-- ==== Sys2Proof/Word.lean ====
section
/-! DEFINITION. The word types of the chiplet: a register word (R8, R12: registers are 64 bits wide), a byte
of memory, and the sparse map by which register files and memories are held. -/

namespace Sys2Proof

/-- One register of a control page (R12): 64 bits. -/
abbrev Word := BitVec 64

/-- One byte of memory. -/
abbrev Byte := BitVec 8

/-- A sparse map from Nat keys, sorted by key: a key that is not listed holds the map's default. -/
abbrev SMap (α : Type) := List (Nat × α)

end Sys2Proof
end

