-- ==== Sys2Proof/Syntax.lean ====
section
/-! DEFINITION. The commands of the block: one constructor for each row of spec/opcode_table.json, with the row's
operands. A row that names something the machine holds (a packet at a unit, a command in a slot) names it by its
place; a row that comes from outside the logic (a frame, a sensor, a beacon) carries what arrives as its operand. -/

namespace Sys2Proof

/-- A frame as the chiplet sends or receives it (Table 11.3): its control fields and its block's bytes. `accept` and
`resend` hold the strand and sequence number they name, `credit` the channel and the blocks returned. -/
structure Frame where
  ftype : Nat := 0
  lvc : Nat := 0
  lseq : Nat := 0
  accept : Option (Nat × Nat) := none
  resend : Option (Nat × Nat) := none
  credit : Option (Nat × Nat) := none
  pstate : Nat := 0
  resv : Nat := 0
  block : List Byte := []
  deriving DecidableEq, Repr

/-- A symbol that did not arrive as it was sent: the physical lane, the symbol's place in the frame, and the wires toggled
within 40 ps of the first, in their order (R247). -/
structure Glitch where
  lane : Nat
  t : Nat
  wires : List Nat
  deriving DecidableEq, Repr

/-- A frame arriving on a strand: what was sent, and the symbols that did not arrive as sent. -/
structure FrameObs where
  frame : Frame
  glitches : List Glitch := []
  deriving DecidableEq, Repr

/-- A lane that shows a fault in the lane test or in confirmation (R255): the symbols of the pattern that arrived wrong,
each with its number and the value taken (4 where none arrived), and the code violations. -/
structure LaneSeen where
  lane : Nat
  wrong : List (Nat × Nat) := []
  violations : Nat := 0
  deriving DecidableEq, Repr

/-- The training of a link as this end sees it: its inbound lanes at fault, the copies of the partner's results message
that arrived (136 bits each), and for each direction the measured rate and the attempts its confirmation took, 4 where
none passed. -/
structure TrainObs where
  lanes : List LaneSeen := []
  copies : List Nat := []
  outRate : Nat := 0
  outTries : Nat := 1
  inRate : Nat := 0
  inTries : Nat := 1
  deriving DecidableEq, Repr

/-- The symbols that the two acknowledge wires of a strand have acknowledged (R248). -/
structure AckSeen where
  k0 : Nat
  k1 : Nat
  deriving DecidableEq, Repr

/-- What stands at the pins as FULL_RST_N rises, SLOT and WARD apart: the ASM strap, and whether COMP_RST_N is low (R350, R351). -/
structure RisePins where
  asm : Nat
  comp : Bool := false
  deriving DecidableEq, Repr

/-- The insertion of a by-pass position (R267): whether the position's traffic and the loopback test are clean, and the
training of the four strands, U's link then D's. -/
structure InsertObs where
  clean : Bool
  loopback : Bool
  up : TrainObs
  down : TrainObs
  deriving DecidableEq, Repr

/-- A window as the weigh-house measures it (R313): the energy at VIN and that of the link, counting-house and larder
domains in nJ, and each domain's beat rate, voltage in mV and junction temperature (Table 2.5). -/
structure WghObs where
  vin : Nat
  fix : Nat
  doms : List (Nat × Nat × Int) := []
  deriving DecidableEq, Repr

/-- What a self-test pass finds (R356): the physical tiles whose logic fails (row, column), the banks it cannot repair
(row, column, bank), the rows and columns it repairs as ledger entries (KIND, UNIT, ARG), the physical slices that fail,
and whether the queue store, window directory or state store fails. -/
structure TestObs where
  tiles : List (Nat × Nat) := []
  banks : List (Nat × Nat × Nat) := []
  repairs : List (Nat × Nat × Nat) := []
  slices : List Nat := []
  storeFail : Bool := false
  deriving DecidableEq, Repr

/-- What the stages measure: the control cores that pass their self-test as a mask, both self-test passes, and for each
domain its rates at codes 20, 50 and 76 and its junction temperature (R355, R356, R359). -/
structure StageObs where
  cores : Nat := 7
  low : TestObs := {}
  high : TestObs := {}
  rates : List (Nat × Nat × Nat × Int) := []
  deriving DecidableEq, Repr

/-- A wear indicator that may have crossed its threshold (Table 17.2): the corrections of unit `u`, the rate of domain
`d` (at the limit code in `limit`), the corrections of the mesh link of router `n`, plane `k`, port `p`, and those of
a strand. -/
inductive WearObs where
  | memory (u : Nat)
  | rate (d : Nat)
  | limit (d : Nat)
  | link (n k p : Nat)
  | strand (p s : Nat)
  deriving DecidableEq, Repr


/-- The commands (spec/opcode_table.json). Operands: `u` a unit (0 to 959 a tile, `20 * row + column`; 960 + g a
chiplet-level group, R275), `q` a queue, `f` an in-flight slot, `n` a count, `t` a tile, `a` an array, `i` the place
of a packet or arrival in its list, `p` a port or mailbox, `s` a strand, `l` a link, `d` a domain. -/
inductive Instr where
  /-- NOP (R192): Command that only waits on a tally and signals one. -/
  | nop (u : Nat) (q : Nat) (f : Nat)
  /-- TSET (R204): Sequencer command that sets a whole tally (COUNT, FAULT, clears OVF) in one change. -/
  | tset (u : Nat) (q : Nat) (f : Nat)
  /-- TINC (R204): Sequencer command that adds N to a tally, optionally setting FAULT, saturating by R195. -/
  | tinc (u : Nat) (q : Nat) (f : Nat)
  /-- QADV (R205): Sequencer command that advances or sets the PI of a queue of this tile, with BOUND on ring overflow. -/
  | qadv (t : Nat)
  /-- REGWR (R206): Sequencer command that writes the masked bits of a tile configuration register that has no behaviour of its own, failing if the register ignores the write. -/
  | regwr (t : Nat)
  /-- MEM_Q_WRITE (R160): REGWR of MEM_Q[q] that sets a queue's base, bound and bank set for later head-of-queue checks and fetches, or sets CFGERR. -/
  | memQWrite (t : Nat)
  /-- MEM_BANKMAP_WRITE (R163): REGWR of MEM_BANKMAP that starts a bank class change, setting PEND_b and failing tag-waiting commands of the old class. -/
  | memBankmapWrite (t : Nat)
  /-- MEM_RGN_WRITE (R170): REGWR of MEM_RGN[n] that validates, invalidates or orders a region mode transition, or is ignored with CFGERR. -/
  | memRgnWrite (t : Nat)
  /-- BR (R207): Q7 branch on a summary slot that redirects the next fetch by DISP when COND holds. -/
  | br (t : Nat)
  /-- FLAGRD (R208): Copies SEQ_NFLAGS to 8 bytes of tile memory and optionally clears the copied bits when the copy lands. -/
  | flagrd (t : Nat)
  /-- SHCLR (R209): Clears the selected scale-history registers. -/
  | shclr (t : Nat)
  /-- ABORT (R212): Aborts commands of selected queues of the tile, each target resolved by the completion arbiter of Table 9.7. -/
  | abort (t : Nat)
  /-- POST (R296): Q7 command that waits on its tally, clears enabled tallies, sends a tile post to the bell unit and awaits the next ring. -/
  | post (t : Nat)
  /-- MMA (R88): Matrix command that runs anchor, product, unload and drain phases on one array and drains or exports a 32x32 tile. -/
  | mma (t : Nat) (a : Nat)
  /-- CHAIN (R134): Chain-engine pass streaming rows through up to eight stages with masks, reductions and summaries. -/
  | chain (t : Nat)
  /-- PSUM (R154): Chain-engine sum of 2 to 256 wide partial records into an extended record or a drained tile. -/
  | psum (t : Nat)
  /-- PUT (R283): Remote write of a local range to an endpoint, unicast or multicast, split into 512-byte parts. -/
  | put (u : Nat) (q : Nat) (f : Nat)
  /-- GET (R285): Remote read into this tile, one READREQ per part, each READDATA landing by the writer rules. -/
  | get (u : Nat) (q : Nat) (f : Nat)
  /-- GATHER (R285): Reads from several sources named in a gather list, split into parts in entry order. -/
  | gather (t : Nat) (f : Nat)
  /-- COPY (R286): Local or larder-to-tile move within the chiplet, one part at a time, optionally incrementing a tally at the destination. -/
  | copy (u : Nat) (q : Nat) (f : Nat)
  /-- RTINC (R286): Sends one TINC packet to increment a tally at a remote holding unit. -/
  | rtinc (u : Nat) (q : Nat) (f : Nat)
  /-- SEAL (R307): Hashes a declared region and sends its contribution to the seal unit. -/
  | seal (t : Nat) (f : Nat)
  /-- SEALX (R308): Exchanges the final seal of a step with the twin chiplet and completes with the joined comparison result. -/
  | sealx (t : Nat) (f : Nat)
  /-- LWB (R286): Writes back every dirty larder line of an address range to its hub. -/
  | lwb (u : Nat) (q : Nat) (f : Nat)
  /-- LINV (R286): Invalidates every larder line of an address range, writing dirty lines back first. -/
  | linv (u : Nat) (q : Nat) (f : Nat)
  /-- LPF (R286): Fetches every line of an address range not held into the larder. -/
  | lpf (u : Nat) (q : Nat) (f : Nat)
  /-- COMMAND_FETCH (R187): Sequencer fetch of a command from a queue ring while PI - CI is positive, consuming tagged slots. -/
  | commandFetch (u : Nat) (q : Nat)
  /-- TALLY_WAIT (R196): A head waiting on WAIT_T proceeds when COUNT reaches WAIT_N, or completes with TALLY_FAULT when FAULT appears and FOK is 0. -/
  | tallyWait (u : Nat) (q : Nat)
  /-- ADMISSION (R200): Sequencer arbitration that starts a ready head against its energy credit, honouring any reservation. -/
  | admission (u : Nat)
  /-- COMMAND_COMPLETION (R210): On a command's outcome, writes the completion record and signals SIG_T with P and FAULT as needed. -/
  | commandCompletion (u : Nat) (q : Nat) (n : Nat)
  /-- TAG_WAIT (R165): An access waiting on a slot tag resumes when the slot becomes FULL (read) or EMPTY (write) and claims it. -/
  | tagWait (u : Nat) (q : Nat) (f : Nat)
  /-- TAGWAIT_EXPIRY (R167): A remote access's tag wait exceeds TAGWAIT; the part completes with TIMEOUT and its claimed slots become FAILED. -/
  | tagwaitExpiry (i : Nat)
  /-- WRITE (R287): A WRITE packet arrives at its holding unit, passes the part checks, lands whole, increments TALLY if TEN and returns an ACK. -/
  | write (i : Nat)
  /-- READREQ (R282): A READREQ arrives at its holding unit or control page, is checked and answered with READDATA or an ACK. -/
  | readreq (i : Nat)
  /-- READDATA (R285): A READDATA reply arrives at the requesting source and lands by the writer rules, completing its part. -/
  | readdata (i : Nat)
  /-- ACK (R289): An ACK arrives at the source and gives its part the status carried, first answer winning. -/
  | ack (i : Nat)
  /-- TINC_PACKET (R286): A TINC packet arrives at its holding unit and increments the named tally, or is refused. -/
  | tincPacket (i : Nat)
  /-- SUBMIT (R275): A SUBMIT packet appends a command to a chiplet-level queue ring or is refused. -/
  | submit (i : Nat)
  /-- REISSUE (R289): A part without an answer REISSUE ticks after issue is reissued with the same SEQ. -/
  | reissue (u : Nat) (q : Nat) (n : Nat) (k : Nat)
  /-- PART_LOSS (R289): A part with no final answer LOSS ticks after first issue completes with TIMEOUT. -/
  | partLoss (u : Nat) (q : Nat) (n : Nat) (k : Nat)
  /-- STREAM_RELEASE (R288): A stream table entry is released after LOSS ticks without traffic. -/
  | streamRelease (i : Nat)
  /-- MULTICAST_COPY_LANDING (R222): A multicast copy reaching the head of a tile's multicast store lands in tile memory with the mover class. -/
  | multicastCopyLanding (t : Nat)
  /-- PACKET_HOP (R231): A packet arrives whole at a router, is decoded and corrected or resent, and is routed or ejected. -/
  | packetHop (i : Nat) (errs : List (Nat × Nat × Nat))
  /-- ESCAPE (R227): A packet that has waited ESCWAIT beats for room moves to the escape route on VC0. -/
  | escape (i : Nat)
  /-- PORT_ARRIVAL (R242): A packet from a hub or ring port is checked at its entry router for type, epoch and DST and admitted to the mesh. -/
  | portArrival (p : Nat)
  /-- LINK_NOTICE (R232): The counting-house takes a router's HEALTH link notice, records the retirement and installs route tables excluding the link. -/
  | linkNotice (i : Nat)
  /-- STACK_NOTICE (R321): A hub's HEALTH STACK notice sets a stack's level and the factor and ceiling of the row pairs beside it. -/
  | stackNotice (i : Nat)
  /-- HEALTH_FORWARD (R388): A HEALTH notice from an upstream chiplet arriving at offset 0060800h is forwarded to LDG_NOTIFY. -/
  | healthForward (i : Nat)
  /-- HEALTH_NOTICE (R388): The chiplet sends a HEALTH notice to LDG_NOTIFY, at most one per 1,000 ticks, carrying the latest index. -/
  | healthNotice
  /-- EPOCHTMO_EXPIRY (R240): A DRAINING route epoch not freed within EPOCHTMO raises job-fatal event 02h. -/
  | epochtmoExpiry
  /-- FRAME (R252): A Sheind frame is received, its control checked, and packets accepted, resent or deduplicated with ACCEPT or RESEND returned. -/
  | frame (p : Nat) (s : Nat) (obs : FrameObs)
  /-- ACCTMO_EXPIRY (R252): A held packet without ACCEPT ACCTMO ticks after its last frame is resent. -/
  | acctmoExpiry (i : Nat)
  /-- IDLE_FRAME (R260): A usable strand idle for IDLEPER ticks sends an IDLE frame carrying the port state. -/
  | idleFrame (p : Nat) (s : Nat)
  /-- ABSENT_NOTICE (R261): An LCTL ABSENT notice makes the end count its partner ABSENT and complete held packets. -/
  | absentNotice (p : Nat)
  /-- RETRAIN (R258): An LCTL RETRAIN message retrains link s at the asked width. -/
  | retrain (p : Nat)
  /-- RETIRE (R259): An LCTL RETIRE message retires a strand, failing the port if it was the last. -/
  | retire (p : Nat)
  /-- DEDUP (R252): An LCTL DEDUP message lists accepted LSEQs so the sender reissues only unlisted packets. -/
  | dedup (p : Nat)
  /-- LINK_TRAINING (R255): On release of an end, a link trains by lane test, results exchange, lane map and confirmation to FULL, HALF or RETIRED. -/
  | linkTraining (p : Nat) (l : Nat) (obs : TrainObs)
  /-- PARTNER_TIMEOUT (R255): A link that finds no partner within 1,000,000 ticks is marked OFF. -/
  | partnerTimeout (p : Nat) (l : Nat)
  /-- LANE_FAIL (R258): A lane showing CVLIM code violations in a window fails and is degraded by Table 11.7. -/
  | laneFail (p : Nat) (s : Nat) (lane : Nat)
  /-- LANE_STALL (R258): A lane delivering nothing for LSTALL ticks while others wait fails and the strand is degraded. -/
  | laneStall (p : Nat) (s : Nat) (lane : Nat)
  /-- HARD_EVENT_LIMIT (R258): HDEG or HRET hard events within a window send a strand to HALF or retire it. -/
  | hardEventLimit (p : Nat) (s : Nat)
  /-- COUNT_WINDOW (R258): The end of a WIN window restarts the per-window lane and hard-event counts. -/
  | countWindow (p : Nat) (s : Nat)
  /-- ACK_WIRE_FAIL (R248): An acknowledge wire falling more than 16 behind the other is marked failed in ACKF. -/
  | ackWireFail (p : Nat) (s : Nat) (seen : AckSeen)
  /-- STRAND_LOST (R261): A strand without acknowledge or frame for STRTMO ticks is LOST and returns to training. -/
  | strandLost (p : Nat) (s : Nat) (ackSilent : Bool)
  /-- PORT_LOSS (R261): LOSSTMO after the partner's last frame, every held packet for the port is completed with TARGET_LOST. -/
  | portLoss (p : Nat)
  /-- RING_RELAY (R263): A ring-port packet for another slot is relayed to the other ring port without entering the die. -/
  | ringRelay (p : Nat)
  /-- BYPASS_CLOSE (R266): VIN or VLINK low, FULL_RST_N low or a trip closes all four by-pass positions within 2 us. -/
  | bypassClose
  /-- RING_INSERTION (R267): Once hub ports are trained, the chiplet inserts itself into the ring one by-pass position at a time. -/
  | ringInsertion (k : Nat) (obs : InsertObs)
  /-- INSERTION_RETRY (R267): 100 ms after a failed insertion, the position is attempted again, up to three times. -/
  | insertionRetry (k : Nat) (obs : InsertObs)
  /-- VRING_LOW (R412): VRING below 1.08 V sets VRLOW and asserts ALERT_N. -/
  | vringLow
  /-- TIME_BEACON (R37): A hub time beacon loads TMB_NOW or corrects INC, with slewing, CAL_VALID and drift checks. -/
  | timeBeacon (hub : Nat)
  /-- WGH_WINDOW (R313): At each 10 us window boundary the weigh-house computes grants, adds credit, updates skip counts and reservations, and sets voltages. -/
  | wghWindow (obs : WghObs)
  /-- THERMAL_STATE (R320): A domain's TJ crossing THROT or LIMIT, or falling HYST below, changes its thermal state, with a 44h record on LIMIT entry. -/
  | thermalState (d : Nat) (a : Int) (b : Int)
  /-- SENSOR_REMOVAL (R320): A junction sensor out of range, or disagreeing by over 5 C for 1 s, is taken out of service. -/
  | sensorRemoval (d : Nat) (a : Int) (b : Int)
  /-- THERMAL_TRIP (R414): A sensor at 115 C sets the trip latch, drives THERMTRIP_N low and starts a full reset. -/
  | thermalTrip
  /-- PHASE_FAIL (R377): A regulator phase failing its monitor is switched out for the spare, or the domain is capped, darkened or device-fatal. -/
  | phaseFail (d : Nat) (phase : Nat)
  /-- TILE_POST (R297): A tile post reaches the bell unit and its status is joined into JSTAT. -/
  | tilePost (i : Nat)
  /-- CHIPLET_POST (R297): A child's chiplet post reaches the bell unit and is joined; when all posts are in, a post goes up or the root forms the ring. -/
  | chipletPost (i : Nat)
  /-- LOSS_NOTICE (R302): A child's loss notice marks it lost and stands in for its post. -/
  | lossNotice (i : Nat)
  /-- RING (R298): A bell unit forms or receives a ring, advances STEP, clears the seal, forwards to children and multicasts to tiles, holding on a non-OK status. -/
  | ring (i : Option Nat)
  /-- RING_AT_TILE (R298): A ring copy at a tile with a pending POST completes that POST with the ring's status. -/
  | ringAtTile (t : Nat)
  /-- BELL_WATCHDOG (R301): No ring within BELLTMO sets WDOG, delivers a TIMEOUT ring to own tiles and enters HOLD. -/
  | bellWatchdog
  /-- SEAL_CONTRIBUTION (R306): A SEAL contribution reaches the seal unit and is XORed into the current step seal. -/
  | sealContribution (i : Nat)
  /-- SEALX_PACKET (R308): A twin's SEALX packet arrives and is compared, held, or answered FAILED for an unexpected step. -/
  | sealxPacket (i : Nat)
  /-- SEALX_COMPARE (R308): A held SEALX for the current step is compared and answered once that step's seal is final. -/
  | sealxCompare (i : Nat)
  /-- MAILBOX_REQUEST (R329): A CHMSG request arrives at a mailbox slot and is accepted, refused or answered again from a stored response. -/
  | mailboxRequest (i : Nat)
  /-- MB_INFO (R334): Returns release, SVN, revision, grade, stage, warden port and core state. -/
  | mbInfo
  /-- MB_FAULTLOG (R387): Returns up to 14 fault records and optionally acknowledges them, clearing JOBF. -/
  | mbFaultlog
  /-- MB_ATTEST (R402): Makes a signed attestation report over a nonce, or returns a piece of the stored one. -/
  | mbAttest
  /-- MB_STAGE (R353): Runs the bring-up stages from the next one up to TARGET, optionally opening reduced service. -/
  | mbStage (obs : StageObs)
  /-- STAGE_3U_4U (R363): After reduced service opens, the chiplet runs 3U and 4U by itself. -/
  | stage3u4u (obs : StageObs)
  /-- MB_RESET_COMPUTE_ONLY (R331): Answers pending requests with TARGET_RESET, then starts a compute-only reset. -/
  | mbResetComputeOnly
  /-- MB_RESET_FULL (R368): Holds the chiplet in full reset for 10 us and then releases it. -/
  | mbResetFull
  /-- MB_FW_BEGIN (R337): Stages a counting-house image header in the bank not running. -/
  | mbFwBegin
  /-- MB_FW_WRITE (R337): Writes a piece of the staged counting-house image body. -/
  | mbFwWrite
  /-- MB_FW_COMMIT (R337): Verifies the staged image and starts it from the ROM or marks it for the next compute-only reset. -/
  | mbFwCommit
  /-- MB_TFW_WRITE (R341): Writes a piece of the tile manifest or image into the crier slice. -/
  | mbTfwWrite
  /-- MB_TFW_CRY (R342): Verifies the staged tile image, broadcasts it, collects reports, repairs, starts tiles and optionally relays downstream. -/
  | mbTfwCry
  /-- MB_CRY_RELAY_PIECE (R346): Ring-relayed manifest or image piece written to the crier slice. -/
  | mbCryRelayPiece
  /-- MB_CRY_RELAY_CRY (R346): Ring-relayed cry that runs a tile-firmware broadcast with RELAY - 1. -/
  | mbCryRelayCry
  /-- MB_SELF (R272): Writes PRT_SELF and PRT_HUBMAP, refusing extents beyond the scale class. -/
  | mbSelf
  /-- MB_BELLCFG (R299): Writes the bell configuration, parent and children and their link-domain copies. -/
  | mbBellcfg
  /-- MB_JOB_START (R293): Sets the job seed, step and participation map, starting a job with the join post. -/
  | mbJobStart
  /-- MB_ROLE (R305): Changes the chiplet role at once or at a named ring. -/
  | mbRole
  /-- MB_ABORT (R212): Aborts commands of any tile queue, Q7 included, or of a chiplet-level group. -/
  | mbAbort
  /-- MB_WIN_OPEN (R279): Opens a window descriptor, incrementing GEN. -/
  | mbWinOpen
  /-- MB_WIN_CLOSE (R280): Closes a window, incrementing GEN and waiting for INBOUND to drain. -/
  | mbWinClose
  /-- MB_RT_BUILD (R240): Loads route tables into the inactive epoch. -/
  | mbRtBuild
  /-- MB_RT_FLIP (R240): Makes the loaded epoch active and the old one DRAINING. -/
  | mbRtFlip
  /-- MB_RT_FREE (R240): Frees the DRAINING epoch once its packet count is zero. -/
  | mbRtFree
  /-- MB_LAR_SET (R176): Sets a larder slice's control, switching it between cache and scratchpad. -/
  | mbLarSet
  /-- MB_LAR_ILV (R178): Sets the larder interleave bypass. -/
  | mbLarIlv
  /-- MB_CAP (R316): Sets the power cap CAPW within 300-750 W. -/
  | mbCap
  /-- MB_SETREG (R335): Writes masked bits of a permitted chiplet-scope register. -/
  | mbSetreg
  /-- MB_DARK (R322): Darkens a row pair: closes windows, darkens regions and removes the voltage. -/
  | mbDark
  /-- MB_DARK_LIGHT (R322): Lights a dark row pair and zeroes its LIT segments. -/
  | mbDarkLight
  /-- MB_PARK (R323): Parks a half: writes back slices, changes epoch and removes its larder domains. -/
  | mbPark
  /-- MB_PARK_UNPARK (R323): Unparks a half, relights its slices and restores epoch and ports. -/
  | mbParkUnpark
  /-- MB_HALLMARK_PRESENT (R397): Stores a hallmark blob in its feature slot as pending. -/
  | mbHallmarkPresent
  /-- MB_HALLMARK_CLEAR (R397): Empties every hallmark slot. -/
  | mbHallmarkClear
  /-- MB_HALLMARK_ADVANCE (R400): Verifies an epoch notice and raises the fused HMEPOCH, FWSVN and TSVN counters. -/
  | mbHallmarkAdvance
  /-- MB_LDG_HISTORY (R381): Presents a piece of an earlier ledger record, verified when LAST is set. -/
  | mbLdgHistory
  /-- MB_LDG_READ (R382): Returns a piece of the ledger snapshot, making a new one at OFFSET 0. -/
  | mbLdgRead
  /-- CONFIG (R383): MB_LDG_REPAIR operation that sets LDG_THRESH, LDG_NOTIFY and LDG_RESCUE. -/
  | config
  /-- REBUILD (R383): MB_LDG_REPAIR operation that runs an in-service ledger build, moving tiles to their new positions. -/
  | rebuild
  /-- RETIRE_TILE (R383): MB_LDG_REPAIR operation that takes a tile out of service. -/
  | retireTile
  /-- RETIRE_BANK (R383): MB_LDG_REPAIR operation that retires a tile-memory bank. -/
  | retireBank
  /-- RETIRE_STRAND (R383): MB_LDG_REPAIR operation that retires a strand. -/
  | retireStrand
  /-- RETIRE_SLICE (R383): MB_LDG_REPAIR operation that fails a larder slice. -/
  | retireSlice
  /-- CORE_SWAP (R326): A lockstep mismatch or core error halts the pair, self-tests all cores and resumes from the journal. -/
  | coreSwap (pass : Nat)
  /-- SPARE_SELF_TEST (R327): The idle spare core self-tests at least every 10 s and is retired if it fails. -/
  | spareSelfTest (pass : Bool)
  /-- REPORT (R344): A crier REPORT command makes each loader write its firmware record into the collection array. -/
  | report (t : Nat)
  /-- REPAIR (R344): A crier REPAIR command makes a loader pull its missing chunks and report again. -/
  | repair (t : Nat)
  /-- START (R346): A crier START makes each verified loader leave LOADING so its queues fetch. -/
  | start
  /-- CRY_COLLECT (R345): When tally 63 reaches the target count or CRYTMO passes, the crier settles each tile's state. -/
  | cryCollect
  /-- REGION_CLOSE (R171): A CLOSING region whose INBOUND reaches zero goes to its ordered mode. -/
  | regionClose (t : Nat) (n : Nat)
  /-- DARKTMO_EXPIRY (R171): A region still CLOSING after DARKTMO goes to its ordered mode. -/
  | darktmoExpiry (t : Nat) (n : Nat)
  /-- REGION_WAKE (R170): A WAKING region finishes restoring or zeroing and becomes SETTLED LIT. -/
  | regionWake (t : Nat) (n : Nat)
  /-- PEND_CLEAR (R163): When earlier commands and inbound parts finish, PEND_b clears and the new bank class applies. -/
  | pendClear (t : Nat)
  /-- SCRUB (R175): Background scrub visits a weight-class line, correcting and rewriting it or logging it uncorrectable. -/
  | scrub (t : Nat) (line : Nat)
  /-- CORRECTION_WRITEBACK (R174): A corrected line is written back when its bank port is next idle. -/
  | correctionWriteback (i : Nat)
  /-- ROW_REMAP (R373): A called memory row is copied to a spare in bank idle time and switched over. -/
  | rowRemap (i : Nat)
  /-- WEAR_THRESHOLD (R378): A wear indicator crossing its threshold writes a 42h record, sends a WEAR notice and acts. -/
  | wearThreshold (w : WearObs)
  /-- LARDER_REQUEST (R182): A larder slice takes a read or write request, serving hits, merging reads and fetching or writing back on misses. -/
  | larderRequest (i : Nat)
  /-- NFLAGS_RC_READ (R86): A read of SEQ_NFLAGS_RC returns and clears all five flag sets. -/
  | nflagsRcRead (t : Nat)
  /-- TMB_STATUS_READ (R38): A read of TMB_STATUS returns and clears DRIFT_ERR. -/
  | tmbStatusRead
  /-- NET_QDEPTH_READ (R243): A read of NET_QDEPTH returns and clears MAXD. -/
  | netQdepthRead (n : Nat) (k : Nat) (p : Nat)
  /-- POWER_ON (R349): VIN ramps with VRING good and the regulators bring up VLINK and the counting-house domain. -/
  | powerOn
  /-- FULL_RST_N_RISE (R350): On the rise of FULL_RST_N the straps are sampled and link training starts on every port. -/
  | fullRstNRise (slot : Nat) (ward : Nat) (pins : RisePins)
  /-- FULL_RESET (R368): FULL_RST_N or PWRGOOD low sends loss and ABSENT notices, closes the by-pass and returns every register to reset. -/
  | fullReset
  /-- SUPPLY_LOSS (R368): Loss of supply has the effects of a full reset without notices. -/
  | supplyLoss
  /-- VIN_LOW (R411): VIN below 1.71 V for 5 us acts as PWRGOOD low. -/
  | vinLow
  /-- COMPUTE_ONLY_RESET (R365): COMP_RST_N low puts ports in HELD, sends a loss notice, discards queued work and in-die packets, and closes windows. -/
  | computeOnlyReset
  /-- WARM_RESTART (R367): At the later of COMP_RST_N rise and end of entry, cores, firmware and memory restart and service reopens. -/
  | warmRestart (obs : StageObs)
  /-- TAP_RESET (R419): TRST_N low puts the test port in Test-Logic-Reset with IDCODE selected. -/
  | tapReset
  /-- EXTEST (R421): Drives the boundary register on sideband and test bumps while FULL_RST_N is low. -/
  | extest
  /-- IDCODE (R420): Selects the 32-bit device identification register. -/
  | idcode
  /-- SAMPLE_PRELOAD (R421): Samples or preloads the boundary register without disturbing operation. -/
  | samplePreload
  /-- CLAMP (R421): Holds bumps from the boundary register with bypass selected while FULL_RST_N is low. -/
  | clamp
  /-- HIGHZ (R421): Puts outputs in high impedance with bypass selected while FULL_RST_N is low. -/
  | highz
  /-- DW_EXTEST (R421): Drives the IEEE 1838 die wrapper register on Sheind and sideband bumps while FULL_RST_N is low. -/
  | dwExtest
  /-- DW_SAMPLE (R421): Samples the die wrapper register without disturbing operation. -/
  | dwSample
  /-- TSTREAD (R423): Reads TST_STATUS through the test port. -/
  | tstread
  /-- WS_SELECT (R420): Selects IEEE 1500 wrapper instruction registers on an unlocked chiplet. -/
  | wsSelect
  /-- WS_INTEST (R422): Runs wrapper internal test on an unlocked chiplet, erasing the identity key and removing it from operation. -/
  | wsIntest
  /-- SCAN (R422): Shifts internal scan chains with TCK on an unlocked chiplet, erasing the identity key first. -/
  | scan
  /-- MBIST (R420): Selects the memory self-test controller on an unlocked chiplet. -/
  | mbist
  /-- BYPASS (R420): Selects the one-bit bypass register; unlisted and locked codes act as this. -/
  | bypass
  /-- VRING_RESTORED (R412): VRING rising back to 1.08 V or above clears VRLOW and lets ALERT_N be released. -/
  | vringRestored
  /-- PARTNER_PRESENT (R255): Four toggles seen on an acknowledge wire of an OFF or LOST link mark the partner present, and training runs from row 3. -/
  | partnerPresent (p : Nat) (l : Nat)
  /-- POSITION_TRAFFIC_RESUMED (R267): Traffic beginning to pass through a closed by-pass position, after at least STRTMO ticks with none, makes the chiplet attempt that position again from step 1. -/
  | positionTrafficResumed (k : Nat) (obs : InsertObs)
  /-- TCK_EDGE (R419): Each TCK edge advances the IEEE 1149.1 TAP controller by TMS, shifting or updating the IR and DR and counting entries into Test-Logic-Reset. -/
  | tckEdge (rise : Bool) (tms : Bool) (tdi : Bool)
  /-- MAILBOX_RESPONSE (R346): A CHMSG response from a downstream mailbox arrives and completes the crier relay piece or cry that awaited it. -/
  | mailboxResponse (i : Nat)
  /-- TRIP_LATCH_CLEAR (R414): With FULL_RST_N held low, the trip latch clears once every comparator reads below 105 C, releasing THERMTRIP_N. -/
  | tripLatchClear (cool : Bool)
  /-- SLEW_COMPLETE (R37): When the timebase has slewed out its offset, SLEWING clears and the rate returns to the calibrated INC. -/
  | slewComplete
  /-- SLICE_SWITCH_DONE (R176): A SWITCHING larder slice finishes writing back and invalidating its lines, or finishes discarding them, and returns to ACTIVE in its new mode, so waiting requests proceed. -/
  | sliceSwitchDone (s : Nat)
  /-- DOMAIN_RAMP_DONE (R322): A row-pair or larder domain's voltage ramp completes, ending DARKENING as DARK or moving LIGHTING on to zeroing and LIT. -/
  | domainRampDone (d : Nat)
  deriving DecidableEq, Repr

end Sys2Proof
end

