-- ==== Sys2Proof/Decode.lean ====
section
/-! DEFINITION. The command a word spells by the bits of spec/opcode_table.json: no row of this table gives bits (the
rows are events and messages of the block), so no word spells a command. -/

namespace Sys2Proof

/-- The command the table's bits give a word: none. -/
def decodeTableWord (_nbits _w : Nat) : Option Instr := none

end Sys2Proof
end

