-- ==== Sys2Proof/Config.lean ====
section
/-! DEFINITION. What an implementation fixes and what the spec leaves open: constants without a body, so that a
claim holds whatever they are. Each is named in the assumption log. -/

namespace Sys2Proof.Config

/-- A free value: the `n`-th the machine draws (log entry 7). -/
opaque freeValue : Nat → BitVec 64

/-- Whether FEXP2 (0) or FLOG2 (1) gives the upper of the two FP32 values within one unit in the last place of the
exact value, by the operand: the fixed procedure is not given (R138, log entry 10). -/
opaque expLogUp : Nat → BitVec 32 → Bool

/-- The outputs (primary, alternate) of the escape tables that the counting-house builds, by the number of the build,
the plane, the router and the destination router, where R226 leaves them to it (log entry 16). -/
opaque escapeOut : Nat → Nat → Nat → Nat → Nat × Nat

/-- The order of channels that shows a build's routes to have no cycle: a number for each output of each router, by the
build and the plane, which rises along every route taken (R226, R228; log entry 16). -/
opaque escapeRank : Nat → Nat → Nat → Nat → Nat

/-- Whether a unit's inbound store has room, and a response slot is free, for one more request while it holds a number of
them (R222, which gives no size; log entry 65). -/
opaque takesRequest : Nat → Nat → Bool

/-- The slice that serves each of the 128 interleave indices, by the cache-mode slices present, where it is a spread that
R183 allows (log entry 30). -/
opaque ilvSpread : List Nat → List Nat

/-- Whether a signature is good: the key's purpose (0 counting-house firmware, 1 tile image, 2 hallmark) and generation,
the bytes signed, and the signature (R392, R393; log entry 32). -/
opaque sigGood : Nat → Nat → List Byte → List Byte → Bool

/-- The chiplet's own signature over bytes (R392, R394): the fused certificate names the key (log entry 32). -/
opaque identitySign : List Byte → List Byte → List Byte

/-- Whether a signature over bytes is one that this chiplet's identity key made (R381). -/
opaque identityGood : List Byte → List Byte → List Byte → Bool

/-- What CH_SECFUSE shows as the generation in use once all four are revoked (log entry 32). -/
opaque spentGen : BitVec 2

/-- The default tile image carried in a counting-house image, by that image's header: its manifest and its image (R360;
log entry 33). -/
opaque defaultTile : List Byte → List Byte × List Byte

/-- The Bolt-8 and reference stack maps carried in a counting-house image, by its header: DOMS of each stack and its hub
(Table 19.4; log entry 33). -/
opaque stackMap : List Byte → Nat → Nat → Nat × Nat

/-- The energy-class costs a counting-house image other than release 1.0 carries, by its header, role and class (R317). -/
opaque classCost : List Byte → Nat → Nat → Nat

/-- The manufacturer identity of IDCODE (R420). -/
opaque jep106 : BitVec 11

/-- The controller codes 2h to 7h of the DR states and 8h to Dh of the IR states (Table 19.12), which the spec does not
give state by state (log entry 34). -/
opaque tapCode : Nat → Nat

/-- What a cell of a test register samples, by the count of free values and the cell (log entry 34). -/
opaque sampled : Nat → Nat → Bool

/-- The length of the register behind an instruction of an unlocked chiplet, by its code, less one (Table 19.10 gives none;
log entry 34). -/
opaque scanLength : Nat → Nat

end Sys2Proof.Config
end

