-- ==== Sys2Proof/Machine/Bits.lean ====
section
/-! DEFINITION. Bit fields, sign extension and byte order (R8: little-endian everywhere), over Nat. -/

namespace Sys2Proof.Machine

/-- `w` bits of `x` from bit `lo` up. -/
def bits (x lo w : Nat) : Nat := x / 2 ^ lo % 2 ^ w

/-- `x` with the `w` bits from bit `lo` up replaced by the low bits of `v`. -/
def setBits (x lo w v : Nat) : Nat :=
  x % 2 ^ lo + 2 ^ lo * (v % 2 ^ w + 2 ^ w * (x / 2 ^ (lo + w)))

/-- One bit of `x`. -/
def bit (x i : Nat) : Bool := x / 2 ^ i % 2 == 1

/-- A truth value as a bit. -/
def b2n (b : Bool) : Nat := if b then 1 else 0

/-- `x` with bit `i` set to `b`. -/
def setBit (x i : Nat) (b : Bool) : Nat := setBits x i 1 (b2n b)

/-- A two's-complement reading of the low `w` bits of `x`. -/
def signedOf (w x : Nat) : Int :=
  if x % 2 ^ w < 2 ^ (w - 1) then ((x % 2 ^ w : Nat) : Int) else ((x % 2 ^ w : Nat) : Int) - 2 ^ w

/-- The low `w` bits of an integer in two's complement. -/
def unsignedOf (w : Nat) (i : Int) : Nat := (i % 2 ^ w).toNat

/-- Counting up, stopping at all ones of `w` bits (a saturating counter). -/
def satAdd (w a b : Nat) : Nat := min (a + b) (2 ^ w - 1)

/-- An integer clamped to the signed range of `w` bits. -/
def clampSigned (w : Nat) (i : Int) : Int := max (-(2 ^ (w - 1) : Int)) (min i (2 ^ (w - 1) - 1))

/-- Division rounding up. -/
def ceilDiv (a b : Nat) : Nat := (a + b - 1) / b

/-- The number that little-endian bytes spell (R8). -/
def ofBytes : List Byte → Nat
  | [] => 0
  | b :: bs => b.toNat + 256 * ofBytes bs

/-- The `n` little-endian bytes of a number (R8). -/
def toBytes : Nat → Nat → List Byte
  | 0, _ => []
  | n + 1, x => BitVec.ofNat 8 x :: toBytes n (x / 256)

/-- Bytes `lo` to `lo + n - 1` of a list as a little-endian number. -/
def leAt (bs : List Byte) (lo n : Nat) : Nat := ofBytes ((bs.drop lo).take n)

/-- A list with its elements from index `i` overwritten by `v` (padding with `d` where it is shorter). -/
def splice {α : Type} (d : α) (l : List α) (i : Nat) (v : List α) : List α :=
  (l ++ List.replicate (i + v.length - l.length) d).take i ++ v ++ l.drop (i + v.length)

/-- The lowest of the set bits of `x` below `n`. -/
def lowestBit (x n : Nat) : Option Nat := (List.range n).find? (bit x)

/-- How many of the low `n` bits of `x` are set. -/
def popCount (x n : Nat) : Nat := ((List.range n).filter (bit x)).length

/-- The element of a list at an index, or a default. -/
def nthD {α : Type} (l : List α) (i : Nat) (d : α) : α := l.getD i d

/-- A list with its element at an index changed. -/
def modNth {α : Type} (l : List α) (i : Nat) (f : α → α) : List α := l.modify i f

end Sys2Proof.Machine
end

