-- ==== Sys2Proof/Machine/Regs.lean ====
section
/-! DEFINITION. The registers of the control page (chapter 12, Table 12.3): every field of the spec's register
tables as a byte offset within the page and a bit range. Fields of one chiplet-scope page count from the page's
base; fields of a tile's page (SEQ_, MEM_, LOOM_, CHN_) from that tile's page. -/

namespace Sys2Proof.Machine

/-- A register field: the offset of its register in the control page, its lowest bit, its width. -/
structure Fld where
  off : Nat
  lo : Nat
  w : Nat
  deriving DecidableEq, Repr

/-- A field of a register word. -/
def fldGet (f : Fld) (x : Word) : Nat := bits x.toNat f.lo f.w

/-- A register word with a field replaced. -/
def fldSet (f : Fld) (x : Word) (v : Nat) : Word := BitVec.ofNat 64 (setBits x.toNat f.lo f.w v)

/-- LDG_FP_SUMMARY.PRESENT (R23, Table 1.4). -/
def R.LDG_FP_SUMMARY_PRESENT : Fld := ⟨0x20000 + 0x0000, 0, 10⟩
/-- LDG_FP_SUMMARY.ENABLED (R23, Table 1.4). -/
def R.LDG_FP_SUMMARY_ENABLED : Fld := ⟨0x20000 + 0x0000, 10, 10⟩
/-- LDG_FP_SUMMARY.HOLES (R23, Table 1.4). -/
def R.LDG_FP_SUMMARY_HOLES : Fld := ⟨0x20000 + 0x0000, 20, 7⟩
/-- LDG_FP_SUMMARY.SUBSET_OK (R23, Table 1.4). -/
def R.LDG_FP_SUMMARY_SUBSET_OK : Fld := ⟨0x20000 + 0x0000, 27, 1⟩
/-- LDG_FP_SUMMARY.SLICES (R23, Table 1.4). -/
def R.LDG_FP_SUMMARY_SLICES : Fld := ⟨0x20000 + 0x0000, 28, 7⟩
/-- LDG_FP_SUMMARY.SPARES_FREE (R23, Table 1.4). -/
def R.LDG_FP_SUMMARY_SPARES_FREE : Fld := ⟨0x20000 + 0x0000, 35, 3⟩
/-- LDG_FP_SUMMARY.GEN (R23, Table 1.4). -/
def R.LDG_FP_SUMMARY_GEN : Fld := ⟨0x20000 + 0x0000, 40, 16⟩
/-- LDG_FP_SUMMARY.VALID (R23, Table 1.4). -/
def R.LDG_FP_SUMMARY_VALID : Fld := ⟨0x20000 + 0x0000, 63, 1⟩
/-- LDG_FP_ROW.BAD (R23, Table 1.5). -/
def R.LDG_FP_ROW_BAD (n : Nat) : Fld := ⟨0x20000 + 0x0100 + 8 * n, 0, 21⟩
/-- LDG_FP_ROW.OOS (R23, Table 1.5). -/
def R.LDG_FP_ROW_OOS (n : Nat) : Fld := ⟨0x20000 + 0x0100 + 8 * n, 21, 21⟩
/-- LDG_FP_ROW.ABSENT (R23, Table 1.5). -/
def R.LDG_FP_ROW_ABSENT (n : Nat) : Fld := ⟨0x20000 + 0x0100 + 8 * n, 42, 20⟩
/-- LDG_FP_ROW.DISABLED (R23, Table 1.5). -/
def R.LDG_FP_ROW_DISABLED (n : Nat) : Fld := ⟨0x20000 + 0x0100 + 8 * n, 62, 1⟩
/-- LDG_FP_SLICEMAP.PHYS_k (R23, Table 1.6). -/
def R.LDG_FP_SLICEMAP_PHYS (m k : Nat) : Fld := ⟨0x20000 + 0x0300 + 8 * m, (8 * k), 7⟩
/-- LDG_FP_SLICEMAP.ABSENT_k (R23, Table 1.6). -/
def R.LDG_FP_SLICEMAP_ABSENT (m k : Nat) : Fld := ⟨0x20000 + 0x0300 + 8 * m, (8 * k + 7), 1⟩
/-- TMB_NOW.NOW (R40, Table 2.3). -/
def R.TMB_NOW_NOW : Fld := ⟨0x10000 + 0x0000, 0, 64⟩
/-- TMB_CAL.INC (R40, Table 2.3). -/
def R.TMB_CAL_INC : Fld := ⟨0x10000 + 0x0008, 0, 32⟩
/-- TMB_STATUS.CAL_VALID (R40, Table 2.4). -/
def R.TMB_STATUS_CAL_VALID : Fld := ⟨0x10000 + 0x0010, 0, 1⟩
/-- TMB_STATUS.SLEWING (R40, Table 2.4). -/
def R.TMB_STATUS_SLEWING : Fld := ⟨0x10000 + 0x0010, 1, 1⟩
/-- TMB_STATUS.DRIFT_ERR (R40, Table 2.4). -/
def R.TMB_STATUS_DRIFT_ERR : Fld := ⟨0x10000 + 0x0010, 2, 1⟩
/-- TMB_STATUS.ERR_PPM (R40, Table 2.4). -/
def R.TMB_STATUS_ERR_PPM : Fld := ⟨0x10000 + 0x0010, 8, 16⟩
/-- TMB_DOMRATE.RATE (R40, Table 2.5). -/
def R.TMB_DOMRATE_RATE (n : Nat) : Fld := ⟨0x10000 + 0x0100 + 8 * n, 0, 13⟩
/-- TMB_DOMRATE.VOLT (R40, Table 2.5). -/
def R.TMB_DOMRATE_VOLT (n : Nat) : Fld := ⟨0x10000 + 0x0100 + 8 * n, 13, 10⟩
/-- TMB_DOMRATE.TJ (R40, Table 2.5). -/
def R.TMB_DOMRATE_TJ (n : Nat) : Fld := ⟨0x10000 + 0x0100 + 8 * n, 23, 8⟩
/-- TMB_DOMRATE.SAMPLE (R40, Table 2.5). -/
def R.TMB_DOMRATE_SAMPLE (n : Nat) : Fld := ⟨0x10000 + 0x0100 + 8 * n, 32, 32⟩
/-- SEQ_SHIST.MAX_E (R83, Table 4.5). -/
def R.SEQ_SHIST_MAX_E (n : Nat) : Fld := ⟨0x300 + 8 * n, 0, 11⟩
/-- SEQ_SHIST.MAX_M (R83, Table 4.5). -/
def R.SEQ_SHIST_MAX_M (n : Nat) : Fld := ⟨0x300 + 8 * n, 11, 10⟩
/-- SEQ_SHIST.NONFIN (R83, Table 4.5). -/
def R.SEQ_SHIST_NONFIN (n : Nat) : Fld := ⟨0x300 + 8 * n, 21, 1⟩
/-- SEQ_SHIST.VALID (R83, Table 4.5). -/
def R.SEQ_SHIST_VALID (n : Nat) : Fld := ⟨0x300 + 8 * n, 22, 1⟩
/-- SEQ_SHIST.CLR (R83, Table 4.5). -/
def R.SEQ_SHIST_CLR (n : Nat) : Fld := ⟨0x300 + 8 * n, 31, 1⟩
/-- SEQ_NFLAGS.A0 (R86, Table 4.7). -/
def R.SEQ_NFLAGS_A0 : Fld := ⟨0x200, 0, 5⟩
/-- SEQ_NFLAGS.A1 (R86, Table 4.7). -/
def R.SEQ_NFLAGS_A1 : Fld := ⟨0x200, 5, 5⟩
/-- SEQ_NFLAGS.A2 (R86, Table 4.7). -/
def R.SEQ_NFLAGS_A2 : Fld := ⟨0x200, 10, 5⟩
/-- SEQ_NFLAGS.A3 (R86, Table 4.7). -/
def R.SEQ_NFLAGS_A3 : Fld := ⟨0x200, 15, 5⟩
/-- SEQ_NFLAGS.CHN (R86, Table 4.7). -/
def R.SEQ_NFLAGS_CHN : Fld := ⟨0x200, 20, 5⟩
/-- LOOM_STATUS.ANCHOR (R109, Table 5.7). -/
def R.LOOM_STATUS_ANCHOR (a : Nat) : Fld := ⟨0x2000 + 0x0000 + 0x20 * a, 0, 1⟩
/-- LOOM_STATUS.PSTATE (R109, Table 5.7). -/
def R.LOOM_STATUS_PSTATE (a : Nat) : Fld := ⟨0x2000 + 0x0000 + 0x20 * a, 1, 2⟩
/-- LOOM_STATUS.DRAIN (R109, Table 5.7). -/
def R.LOOM_STATUS_DRAIN (a : Nat) : Fld := ⟨0x2000 + 0x0000 + 0x20 * a, 3, 1⟩
/-- LOOM_STATUS.SWEEP (R109, Table 5.7). -/
def R.LOOM_STATUS_SWEEP (a : Nat) : Fld := ⟨0x2000 + 0x0000 + 0x20 * a, 4, 3⟩
/-- LOOM_STATUS.KPOS (R109, Table 5.7). -/
def R.LOOM_STATUS_KPOS (a : Nat) : Fld := ⟨0x2000 + 0x0000 + 0x20 * a, 8, 12⟩
/-- LOOM_BEATS.BEATS (R109, Table 5.8). -/
def R.LOOM_BEATS_BEATS (a : Nat) : Fld := ⟨0x2000 + 0x0008 + 0x20 * a, 0, 64⟩
/-- LOOM_GATED.GATED (R109, Table 5.8). -/
def R.LOOM_GATED_GATED (a : Nat) : Fld := ⟨0x2000 + 0x0010 + 0x20 * a, 0, 64⟩
/-- LOOM_CAP.PASS23 (R109, Table 5.9). -/
def R.LOOM_CAP_PASS23 : Fld := ⟨0x2000 + 0x0080, 0, 1⟩
/-- LOOM_CAP.REDUCED (R109, Table 5.9). -/
def R.LOOM_CAP_REDUCED : Fld := ⟨0x2000 + 0x0080, 1, 1⟩
/-- CHN_STATUS.BUSY (R158, Table 7.7). -/
def R.CHN_STATUS_BUSY : Fld := ⟨0x3000 + 0x0000, 0, 1⟩
/-- CHN_STATUS.PSUM (R158, Table 7.7). -/
def R.CHN_STATUS_PSUM : Fld := ⟨0x3000 + 0x0000, 1, 1⟩
/-- CHN_STATUS.ROW (R158, Table 7.7). -/
def R.CHN_STATUS_ROW : Fld := ⟨0x3000 + 0x0000, 8, 12⟩
/-- CHN_LM.LANES (R158, Table 7.8). -/
def R.CHN_LM_LANES (k : Nat) : Fld := ⟨0x3000 + 0x0080 + 8 * k, 0, 32⟩
/-- CHN_MODE.MONLY (R158, Table 7.8). -/
def R.CHN_MODE_MONLY : Fld := ⟨0x3000 + 0x00C0, 0, 1⟩
/-- CHN_BEATS.BEATS (R158, Table 7.8). -/
def R.CHN_BEATS_BEATS : Fld := ⟨0x3000 + 0x0100, 0, 64⟩
/-- CHN_SUMA.VALID (R158, Table 7.9). -/
def R.CHN_SUMA_VALID (k : Nat) : Fld := ⟨0x3000 + 0x0010 + 0x10 * k, 0, 1⟩
/-- CHN_SUMA.ANY (R158, Table 7.9). -/
def R.CHN_SUMA_ANY (k : Nat) : Fld := ⟨0x3000 + 0x0010 + 0x10 * k, 1, 1⟩
/-- CHN_SUMA.ALL (R158, Table 7.9). -/
def R.CHN_SUMA_ALL (k : Nat) : Fld := ⟨0x3000 + 0x0010 + 0x10 * k, 2, 1⟩
/-- CHN_SUMA.TYPE (R158, Table 7.9). -/
def R.CHN_SUMA_TYPE (k : Nat) : Fld := ⟨0x3000 + 0x0010 + 0x10 * k, 3, 1⟩
/-- CHN_SUMA.COUNT (R158, Table 7.9). -/
def R.CHN_SUMA_COUNT (k : Nat) : Fld := ⟨0x3000 + 0x0010 + 0x10 * k, 4, 18⟩
/-- CHN_SUMA.FIRST (R158, Table 7.9). -/
def R.CHN_SUMA_FIRST (k : Nat) : Fld := ⟨0x3000 + 0x0010 + 0x10 * k, 22, 18⟩
/-- CHN_SUMB.MAX (R158, Table 7.9). -/
def R.CHN_SUMB_MAX (k : Nat) : Fld := ⟨0x3000 + 0x0018 + 0x10 * k, 0, 32⟩
/-- CHN_SUMB.MIN (R158, Table 7.9). -/
def R.CHN_SUMB_MIN (k : Nat) : Fld := ⟨0x3000 + 0x0018 + 0x10 * k, 32, 32⟩
/-- MEM_Q.BASE (R164, Table 8.4). -/
def R.MEM_Q_BASE (q : Nat) : Fld := ⟨0x1000 + 0x0000 + 8 * q, 0, 14⟩
/-- MEM_Q.LEN (R164, Table 8.4). -/
def R.MEM_Q_LEN (q : Nat) : Fld := ⟨0x1000 + 0x0000 + 8 * q, 15, 15⟩
/-- MEM_Q.BANKS (R164, Table 8.4). -/
def R.MEM_Q_BANKS (q : Nat) : Fld := ⟨0x1000 + 0x0000 + 8 * q, 32, 16⟩
/-- MEM_BANKMAP.CLASS_b (R164, Table 8.4). -/
def R.MEM_BANKMAP_CLASS (b : Nat) : Fld := ⟨0x1000 + 0x0040, (3 * b), 3⟩
/-- MEM_BANKMAP.PEND (R164, Table 8.4). -/
def R.MEM_BANKMAP_PEND : Fld := ⟨0x1000 + 0x0040, 48, 16⟩
/-- MEM_RGN.START (R172, Table 8.6). -/
def R.MEM_RGN_START (n : Nat) : Fld := ⟨0x1000 + 0x0100 + 8 * n, 0, 6⟩
/-- MEM_RGN.COUNT (R172, Table 8.6). -/
def R.MEM_RGN_COUNT (n : Nat) : Fld := ⟨0x1000 + 0x0100 + 8 * n, 7, 7⟩
/-- MEM_RGN.MODE (R172, Table 8.6). -/
def R.MEM_RGN_MODE (n : Nat) : Fld := ⟨0x1000 + 0x0100 + 8 * n, 14, 2⟩
/-- MEM_RGN.TAG (R172, Table 8.6). -/
def R.MEM_RGN_TAG (n : Nat) : Fld := ⟨0x1000 + 0x0100 + 8 * n, 16, 1⟩
/-- MEM_RGN.CONSUME (R172, Table 8.6). -/
def R.MEM_RGN_CONSUME (n : Nat) : Fld := ⟨0x1000 + 0x0100 + 8 * n, 17, 1⟩
/-- MEM_RGN.WCLASS (R172, Table 8.6). -/
def R.MEM_RGN_WCLASS (n : Nat) : Fld := ⟨0x1000 + 0x0100 + 8 * n, 18, 1⟩
/-- MEM_RGN.VALID (R172, Table 8.6). -/
def R.MEM_RGN_VALID (n : Nat) : Fld := ⟨0x1000 + 0x0100 + 8 * n, 19, 1⟩
/-- MEM_RGN.STATE (R172, Table 8.6). -/
def R.MEM_RGN_STATE (n : Nat) : Fld := ⟨0x1000 + 0x0100 + 8 * n, 20, 2⟩
/-- MEM_RGN.INBOUND (R172, Table 8.6). -/
def R.MEM_RGN_INBOUND (n : Nat) : Fld := ⟨0x1000 + 0x0100 + 8 * n, 24, 16⟩
/-- MEM_STATUS.CFGERR (R172, Table 8.7). -/
def R.MEM_STATUS_CFGERR : Fld := ⟨0x1000 + 0x0200, 0, 1⟩
/-- MEM_STATUS.LO_OK (R172, Table 8.7). -/
def R.MEM_STATUS_LO_OK : Fld := ⟨0x1000 + 0x0200, 1, 1⟩
/-- MEM_STATUS.HI_OK (R172, Table 8.7). -/
def R.MEM_STATUS_HI_OK : Fld := ⟨0x1000 + 0x0200, 2, 1⟩
/-- MEM_STATUS.REFUSED (R172, Table 8.7). -/
def R.MEM_STATUS_REFUSED : Fld := ⟨0x1000 + 0x0200, 16, 16⟩
/-- MEM_TIMERS.DARKTMO (R172, Table 8.7). -/
def R.MEM_TIMERS_DARKTMO : Fld := ⟨0x1000 + 0x0208, 0, 24⟩
/-- MEM_TIMERS.TAGWAIT (R172, Table 8.7). -/
def R.MEM_TIMERS_TAGWAIT : Fld := ⟨0x1000 + 0x0208, 24, 24⟩
/-- MEM_TIMERS.SCRUB (R172, Table 8.7). -/
def R.MEM_TIMERS_SCRUB : Fld := ⟨0x1000 + 0x0208, 48, 10⟩
/-- MEM_ERRCNT.CORR1 (R172, Table 8.7). -/
def R.MEM_ERRCNT_CORR1 : Fld := ⟨0x1000 + 0x0300, 0, 32⟩
/-- MEM_ERRCNT.CORR2 (R172, Table 8.7). -/
def R.MEM_ERRCNT_CORR2 : Fld := ⟨0x1000 + 0x0300, 32, 16⟩
/-- MEM_ERRCNT.UNCORR (R172, Table 8.7). -/
def R.MEM_ERRCNT_UNCORR : Fld := ⟨0x1000 + 0x0300, 48, 16⟩
/-- MEM_UEADDR.LINE (R172, Table 8.7). -/
def R.MEM_UEADDR_LINE : Fld := ⟨0x1000 + 0x0308, 0, 14⟩
/-- MEM_UEADDR.VALID (R172, Table 8.7). -/
def R.MEM_UEADDR_VALID : Fld := ⟨0x1000 + 0x0308, 14, 1⟩
/-- LAR_CTL.MODE (R183, Table 8.10). -/
def R.LAR_CTL_MODE (s : Nat) : Fld := ⟨0x40000 + 0x0000 + 8 * s, 0, 1⟩
/-- LAR_CTL.WCLASS (R183, Table 8.10). -/
def R.LAR_CTL_WCLASS (s : Nat) : Fld := ⟨0x40000 + 0x0000 + 8 * s, 1, 1⟩
/-- LAR_CTL.MWIN (R183, Table 8.10). -/
def R.LAR_CTL_MWIN (s : Nat) : Fld := ⟨0x40000 + 0x0000 + 8 * s, 2, 8⟩
/-- LAR_CTL.FARNC (R183, Table 8.10). -/
def R.LAR_CTL_FARNC (s : Nat) : Fld := ⟨0x40000 + 0x0000 + 8 * s, 10, 1⟩
/-- LAR_CTL.STATE (R183, Table 8.10). -/
def R.LAR_CTL_STATE (s : Nat) : Fld := ⟨0x40000 + 0x0000 + 8 * s, 11, 2⟩
/-- LAR_ILV.SLICE_k (R183, Table 8.10). -/
def R.LAR_ILV_SLICE (m k : Nat) : Fld := ⟨0x40000 + 0x0400 + 8 * m, (8 * k), 7⟩
/-- LAR_ILVCTL.BYPASS (R183, Table 8.10). -/
def R.LAR_ILVCTL_BYPASS : Fld := ⟨0x40000 + 0x0480, 0, 1⟩
/-- LAR_HIT.HITS (R183, Table 8.10). -/
def R.LAR_HIT_HITS (s : Nat) : Fld := ⟨0x40000 + 0x0800 + 8 * s, 0, 64⟩
/-- LAR_MISS.MISSES (R183, Table 8.10). -/
def R.LAR_MISS_MISSES (s : Nat) : Fld := ⟨0x40000 + 0x0B00 + 8 * s, 0, 64⟩
/-- LAR_MERGED.MERGED (R183, Table 8.10). -/
def R.LAR_MERGED_MERGED (s : Nat) : Fld := ⟨0x40000 + 0x0E00 + 8 * s, 0, 64⟩
/-- SEQ_QRING.RBASE (R214, Table 9.9). -/
def R.SEQ_QRING_RBASE (q : Nat) : Fld := ⟨0x0000 + 8 * q, 0, 15⟩
/-- SEQ_QRING.RLEN (R214, Table 9.9). -/
def R.SEQ_QRING_RLEN (q : Nat) : Fld := ⟨0x0000 + 8 * q, 16, 16⟩
/-- SEQ_QRING.PI (R214, Table 9.9). -/
def R.SEQ_QRING_PI (q : Nat) : Fld := ⟨0x0000 + 8 * q, 32, 16⟩
/-- SEQ_QSTAT.CI (R214, Table 9.9). -/
def R.SEQ_QSTAT_CI (q : Nat) : Fld := ⟨0x0040 + 8 * q, 0, 16⟩
/-- SEQ_QSTAT.STATE (R214, Table 9.9). -/
def R.SEQ_QSTAT_STATE (q : Nat) : Fld := ⟨0x0040 + 8 * q, 16, 3⟩
/-- SEQ_QSTAT.FERR (R214, Table 9.9). -/
def R.SEQ_QSTAT_FERR (q : Nat) : Fld := ⟨0x0040 + 8 * q, 19, 4⟩
/-- SEQ_QSTAT.INFLIGHT (R214, Table 9.9). -/
def R.SEQ_QSTAT_INFLIGHT (q : Nat) : Fld := ⟨0x0040 + 8 * q, 23, 5⟩
/-- SEQ_QREC.RBASE (R214, Table 9.9). -/
def R.SEQ_QREC_RBASE (q : Nat) : Fld := ⟨0x0080 + 8 * q, 0, 15⟩
/-- SEQ_QREC.RLEN (R214, Table 9.9). -/
def R.SEQ_QREC_RLEN (q : Nat) : Fld := ⟨0x0080 + 8 * q, 16, 12⟩
/-- SEQ_QREC.RFAIL (R214, Table 9.9). -/
def R.SEQ_QREC_RFAIL (q : Nat) : Fld := ⟨0x0080 + 8 * q, 28, 1⟩
/-- SEQ_QREC.WI (R214, Table 9.9). -/
def R.SEQ_QREC_WI (q : Nat) : Fld := ⟨0x0080 + 8 * q, 32, 16⟩
/-- SEQ_ALLOW.CREDIT (R214, Table 9.10). -/
def R.SEQ_ALLOW_CREDIT : Fld := ⟨0x00C0, 0, 32⟩
/-- SEQ_ALLOW.CAP (R214, Table 9.10). -/
def R.SEQ_ALLOW_CAP : Fld := ⟨0x00C0, 32, 32⟩
/-- SEQ_ADMIT.STARVE (R214, Table 9.10). -/
def R.SEQ_ADMIT_STARVE : Fld := ⟨0x00C8, 0, 4⟩
/-- SEQ_ADMIT.RESV (R214, Table 9.10). -/
def R.SEQ_ADMIT_RESV : Fld := ⟨0x00C8, 4, 1⟩
/-- SEQ_ADMIT.RESQ (R214, Table 9.10). -/
def R.SEQ_ADMIT_RESQ : Fld := ⟨0x00C8, 5, 3⟩
/-- SEQ_ADMIT.SKIPS (R214, Table 9.10). -/
def R.SEQ_ADMIT_SKIPS : Fld := ⟨0x00C8, 8, 24⟩
/-- SEQ_TALLY.COUNT (R214, Table 9.10). -/
def R.SEQ_TALLY_COUNT (n : Nat) : Fld := ⟨0x0400 + 8 * n, 0, 20⟩
/-- SEQ_TALLY.FAULT (R214, Table 9.10). -/
def R.SEQ_TALLY_FAULT (n : Nat) : Fld := ⟨0x0400 + 8 * n, 20, 1⟩
/-- SEQ_TALLY.OVF (R214, Table 9.10). -/
def R.SEQ_TALLY_OVF (n : Nat) : Fld := ⟨0x0400 + 8 * n, 21, 1⟩
/-- NET_RTCTL.ACTIVE (R243, Table 10.7). -/
def R.NET_RTCTL_ACTIVE : Fld := ⟨0x400000 + 0x0000, 0, 1⟩
/-- NET_RTCTL.STATE0 (R243, Table 10.7). -/
def R.NET_RTCTL_STATE0 : Fld := ⟨0x400000 + 0x0000, 4, 2⟩
/-- NET_RTCTL.STATE1 (R243, Table 10.7). -/
def R.NET_RTCTL_STATE1 : Fld := ⟨0x400000 + 0x0000, 6, 2⟩
/-- NET_EPCNT.COUNT (R243, Table 10.7). -/
def R.NET_EPCNT_COUNT (e : Nat) : Fld := ⟨0x400000 + 0x0008 + 8 * e, 0, 32⟩
/-- NET_TIMERS.ESCWAIT (R243, Table 10.7). -/
def R.NET_TIMERS_ESCWAIT : Fld := ⟨0x400000 + 0x0018, 0, 16⟩
/-- NET_TIMERS.EPOCHTMO (R243, Table 10.7). -/
def R.NET_TIMERS_EPOCHTMO : Fld := ⟨0x400000 + 0x0018, 16, 32⟩
/-- NET_STATUS.RETIRED (R243, Table 10.8). -/
def R.NET_STATUS_RETIRED : Fld := ⟨0x400000 + 0x0020, 0, 16⟩
/-- NET_STATUS.STALE (R243, Table 10.8). -/
def R.NET_STATUS_STALE : Fld := ⟨0x400000 + 0x0020, 16, 16⟩
/-- NET_STATUS.MDROP (R243, Table 10.8). -/
def R.NET_STATUS_MDROP : Fld := ⟨0x400000 + 0x0020, 32, 16⟩
/-- NET_STATUS.LOOP (R243, Table 10.8). -/
def R.NET_STATUS_LOOP : Fld := ⟨0x400000 + 0x0020, 48, 8⟩
/-- NET_PKTS.PKTS (R243, Table 10.9). -/
def R.NET_PKTS_PKTS (n k p : Nat) : Fld := ⟨0x500000 + 0x800 * n + 0x200 * k + 0x40 * p + 0, 0, 64⟩
/-- NET_BYTES.BYTES (R243, Table 10.9). -/
def R.NET_BYTES_BYTES (n k p : Nat) : Fld := ⟨0x500000 + 0x800 * n + 0x200 * k + 0x40 * p + 8, 0, 64⟩
/-- NET_STALL.STALL (R243, Table 10.9). -/
def R.NET_STALL_STALL (n k p : Nat) : Fld := ⟨0x500000 + 0x800 * n + 0x200 * k + 0x40 * p + 16, 0, 64⟩
/-- NET_QDEPTH.DEPTH (R243, Table 10.9). -/
def R.NET_QDEPTH_DEPTH (n k p : Nat) : Fld := ⟨0x500000 + 0x800 * n + 0x200 * k + 0x40 * p + 24, 0, 8⟩
/-- NET_QDEPTH.MAXD (R243, Table 10.9). -/
def R.NET_QDEPTH_MAXD (n k p : Nat) : Fld := ⟨0x500000 + 0x800 * n + 0x200 * k + 0x40 * p + 24, 8, 8⟩
/-- NET_LINK.STATE (R243, Table 10.9). -/
def R.NET_LINK_STATE (n k p : Nat) : Fld := ⟨0x500000 + 0x800 * n + 0x200 * k + 0x40 * p + 32, 0, 2⟩
/-- NET_LINK.CORR (R243, Table 10.9). -/
def R.NET_LINK_CORR (n k p : Nat) : Fld := ⟨0x500000 + 0x800 * n + 0x200 * k + 0x40 * p + 32, 2, 22⟩
/-- NET_LINK.RESEND (R243, Table 10.9). -/
def R.NET_LINK_RESEND (n k p : Nat) : Fld := ⟨0x500000 + 0x800 * n + 0x200 * k + 0x40 * p + 32, 24, 16⟩
/-- PRT_STATE.STATE (R270, Table 11.11). -/
def R.PRT_STATE_STATE (p : Nat) : Fld := ⟨0x30000 + 0x0000 + 8 * p, 0, 3⟩
/-- PRT_STATE.WARDEN (R270, Table 11.11). -/
def R.PRT_STATE_WARDEN (p : Nat) : Fld := ⟨0x30000 + 0x0000 + 8 * p, 3, 1⟩
/-- PRT_STATE.BYPOS (R270, Table 11.11). -/
def R.PRT_STATE_BYPOS (p : Nat) : Fld := ⟨0x30000 + 0x0000 + 8 * p, 4, 4⟩
/-- PRT_STATE.OUT_FULL (R270, Table 11.11). -/
def R.PRT_STATE_OUT_FULL (p : Nat) : Fld := ⟨0x30000 + 0x0000 + 8 * p, 8, 6⟩
/-- PRT_STATE.OUT_HALF (R270, Table 11.11). -/
def R.PRT_STATE_OUT_HALF (p : Nat) : Fld := ⟨0x30000 + 0x0000 + 8 * p, 14, 6⟩
/-- PRT_STATE.IN_FULL (R270, Table 11.11). -/
def R.PRT_STATE_IN_FULL (p : Nat) : Fld := ⟨0x30000 + 0x0000 + 8 * p, 20, 6⟩
/-- PRT_STATE.IN_HALF (R270, Table 11.11). -/
def R.PRT_STATE_IN_HALF (p : Nat) : Fld := ⟨0x30000 + 0x0000 + 8 * p, 26, 6⟩
/-- PRT_STATE.CAUSE (R270, Table 11.11). -/
def R.PRT_STATE_CAUSE (p : Nat) : Fld := ⟨0x30000 + 0x0000 + 8 * p, 32, 4⟩
/-- PRT_STATE.HDROP (R270, Table 11.11). -/
def R.PRT_STATE_HDROP (p : Nat) : Fld := ⟨0x30000 + 0x0000 + 8 * p, 36, 16⟩
/-- PRT_STATE.VRLOW (R270, Table 11.11). -/
def R.PRT_STATE_VRLOW (p : Nat) : Fld := ⟨0x30000 + 0x0000 + 8 * p, 52, 1⟩
/-- PRT_PARTNER.DESC (R270, Table 11.11). -/
def R.PRT_PARTNER_DESC (p : Nat) : Fld := ⟨0x30000 + 0x0040 + 8 * p, 0, 64⟩
/-- PRT_THRESH.CVLIM (R270, Table 11.12). -/
def R.PRT_THRESH_CVLIM : Fld := ⟨0x30000 + 0x0080, 0, 8⟩
/-- PRT_THRESH.HDEG (R270, Table 11.12). -/
def R.PRT_THRESH_HDEG : Fld := ⟨0x30000 + 0x0080, 8, 4⟩
/-- PRT_THRESH.HRET (R270, Table 11.12). -/
def R.PRT_THRESH_HRET : Fld := ⟨0x30000 + 0x0080, 12, 4⟩
/-- PRT_THRESH.LSTALL (R270, Table 11.12). -/
def R.PRT_THRESH_LSTALL : Fld := ⟨0x30000 + 0x0080, 16, 16⟩
/-- PRT_THRESH.WIN (R270, Table 11.12). -/
def R.PRT_THRESH_WIN : Fld := ⟨0x30000 + 0x0080, 32, 32⟩
/-- PRT_TIMERS.IDLEPER (R270, Table 11.12). -/
def R.PRT_TIMERS_IDLEPER : Fld := ⟨0x30000 + 0x0088, 0, 12⟩
/-- PRT_TIMERS.ACCTMO (R270, Table 11.12). -/
def R.PRT_TIMERS_ACCTMO : Fld := ⟨0x30000 + 0x0088, 12, 12⟩
/-- PRT_TIMERS.STRTMO (R270, Table 11.12). -/
def R.PRT_TIMERS_STRTMO : Fld := ⟨0x30000 + 0x0088, 24, 16⟩
/-- PRT_TIMERS.LOSSTMO (R270, Table 11.12). -/
def R.PRT_TIMERS_LOSSTMO : Fld := ⟨0x30000 + 0x0088, 40, 24⟩
/-- PRT_STRAND.SSTATE (R270, Table 11.13). -/
def R.PRT_STRAND_SSTATE (p d s : Nat) : Fld := ⟨0x30000 + 0x1000 + 0x1000 * p + 0x800 * d + 0x20 * s + 0, 0, 3⟩
/-- PRT_STRAND.SPARES (R270, Table 11.13). -/
def R.PRT_STRAND_SPARES (p d s : Nat) : Fld := ⟨0x30000 + 0x1000 + 0x1000 * p + 0x800 * d + 0x20 * s + 0, 3, 4⟩
/-- PRT_STRAND.BADHI (R270, Table 11.13). -/
def R.PRT_STRAND_BADHI (p d s : Nat) : Fld := ⟨0x30000 + 0x1000 + 0x1000 * p + 0x800 * d + 0x20 * s + 0, 7, 8⟩
/-- PRT_STRAND.RATE (R270, Table 11.13). -/
def R.PRT_STRAND_RATE (p d s : Nat) : Fld := ⟨0x30000 + 0x1000 + 0x1000 * p + 0x800 * d + 0x20 * s + 0, 15, 13⟩
/-- PRT_STRAND.ATTEMPTS (R270, Table 11.13). -/
def R.PRT_STRAND_ATTEMPTS (p d s : Nat) : Fld := ⟨0x30000 + 0x1000 + 0x1000 * p + 0x800 * d + 0x20 * s + 0, 28, 8⟩
/-- PRT_STRAND.ACKF (R270, Table 11.13). -/
def R.PRT_STRAND_ACKF (p d s : Nat) : Fld := ⟨0x30000 + 0x1000 + 0x1000 * p + 0x800 * d + 0x20 * s + 0, 36, 2⟩
/-- PRT_LANEBAD.BADLO (R270, Table 11.13). -/
def R.PRT_LANEBAD_BADLO (p d s : Nat) : Fld := ⟨0x30000 + 0x1000 + 0x1000 * p + 0x800 * d + 0x20 * s + 8, 0, 64⟩
/-- PRT_CNT.CORR (R270, Table 11.13). -/
def R.PRT_CNT_CORR (p d s : Nat) : Fld := ⟨0x30000 + 0x1000 + 0x1000 * p + 0x800 * d + 0x20 * s + 16, 0, 32⟩
/-- PRT_CNT.RESEND (R270, Table 11.13). -/
def R.PRT_CNT_RESEND (p d s : Nat) : Fld := ⟨0x30000 + 0x1000 + 0x1000 * p + 0x800 * d + 0x20 * s + 16, 32, 16⟩
/-- PRT_CNT.CODEV (R270, Table 11.13). -/
def R.PRT_CNT_CODEV (p d s : Nat) : Fld := ⟨0x30000 + 0x1000 + 0x1000 * p + 0x800 * d + 0x20 * s + 16, 48, 8⟩
/-- PRT_CNT.HARD (R270, Table 11.13). -/
def R.PRT_CNT_HARD (p d s : Nat) : Fld := ⟨0x30000 + 0x1000 + 0x1000 * p + 0x800 * d + 0x20 * s + 16, 56, 8⟩
/-- LAR_WIN.OPEN (R292, Table 12.8). -/
def R.LAR_WIN_OPEN (w : Nat) : Fld := ⟨0x40000 + 0x8000 + 0x20 * w, 0, 1⟩
/-- LAR_WIN.CLOSING (R292, Table 12.8). -/
def R.LAR_WIN_CLOSING (w : Nat) : Fld := ⟨0x40000 + 0x8000 + 0x20 * w, 1, 1⟩
/-- LAR_WIN.WR (R292, Table 12.8). -/
def R.LAR_WIN_WR (w : Nat) : Fld := ⟨0x40000 + 0x8000 + 0x20 * w, 2, 1⟩
/-- LAR_WIN.RD (R292, Table 12.8). -/
def R.LAR_WIN_RD (w : Nat) : Fld := ⟨0x40000 + 0x8000 + 0x20 * w, 3, 1⟩
/-- LAR_WIN.KIND (R292, Table 12.8). -/
def R.LAR_WIN_KIND (w : Nat) : Fld := ⟨0x40000 + 0x8000 + 0x20 * w, 4, 1⟩
/-- LAR_WIN.LOCALONLY (R292, Table 12.8). -/
def R.LAR_WIN_LOCALONLY (w : Nat) : Fld := ⟨0x40000 + 0x8000 + 0x20 * w, 5, 1⟩
/-- LAR_WIN.GEN (R292, Table 12.8). -/
def R.LAR_WIN_GEN (w : Nat) : Fld := ⟨0x40000 + 0x8000 + 0x20 * w, 8, 10⟩
/-- LAR_WIN.ROW (R292, Table 12.8). -/
def R.LAR_WIN_ROW (w : Nat) : Fld := ⟨0x40000 + 0x8000 + 0x20 * w, 24, 6⟩
/-- LAR_WIN.COL (R292, Table 12.8). -/
def R.LAR_WIN_COL (w : Nat) : Fld := ⟨0x40000 + 0x8000 + 0x20 * w, 30, 5⟩
/-- LAR_WIN.SLICE (R292, Table 12.8). -/
def R.LAR_WIN_SLICE (w : Nat) : Fld := ⟨0x40000 + 0x8000 + 0x20 * w, 35, 7⟩
/-- LAR_WIN.LENGTH (R292, Table 12.8). -/
def R.LAR_WIN_LENGTH (w : Nat) : Fld := ⟨0x40000 + 0x8000 + 0x20 * w + 8, 6, 23⟩
/-- LAR_WIN.INBOUND (R292, Table 12.8). -/
def R.LAR_WIN_INBOUND (w : Nat) : Fld := ⟨0x40000 + 0x8000 + 0x20 * w + 8, 48, 16⟩
/-- PRT_SELF.PLANE (R292, Table 12.9). -/
def R.PRT_SELF_PLANE : Fld := ⟨0x30000 + 0x100, 0, 1⟩
/-- PRT_SELF.X (R292, Table 12.9). -/
def R.PRT_SELF_X : Fld := ⟨0x30000 + 0x100, 1, 5⟩
/-- PRT_SELF.Y (R292, Table 12.9). -/
def R.PRT_SELF_Y : Fld := ⟨0x30000 + 0x100, 6, 5⟩
/-- PRT_SELF.Z (R292, Table 12.9). -/
def R.PRT_SELF_Z : Fld := ⟨0x30000 + 0x100, 11, 4⟩
/-- PRT_SELF.SLOT (R292, Table 12.9). -/
def R.PRT_SELF_SLOT : Fld := ⟨0x30000 + 0x100, 15, 4⟩
/-- PRT_SELF.XNM1 (R292, Table 12.9). -/
def R.PRT_SELF_XNM1 : Fld := ⟨0x30000 + 0x100, 19, 5⟩
/-- PRT_SELF.YNM1 (R292, Table 12.9). -/
def R.PRT_SELF_YNM1 : Fld := ⟨0x30000 + 0x100, 24, 5⟩
/-- PRT_SELF.ZNM1 (R292, Table 12.9). -/
def R.PRT_SELF_ZNM1 : Fld := ⟨0x30000 + 0x100, 29, 4⟩
/-- PRT_SELF.VALID (R292, Table 12.9). -/
def R.PRT_SELF_VALID : Fld := ⟨0x30000 + 0x100, 33, 1⟩
/-- PRT_HUBMAP.PORTS0 (R292, Table 12.9). -/
def R.PRT_HUBMAP_PORTS0 : Fld := ⟨0x30000 + 0x108, 0, 4⟩
/-- PRT_HUBMAP.PORTS1 (R292, Table 12.9). -/
def R.PRT_HUBMAP_PORTS1 : Fld := ⟨0x30000 + 0x108, 4, 4⟩
/-- PRT_HUBMAP.SPACEHUB (R292, Table 12.9). -/
def R.PRT_HUBMAP_SPACEHUB : Fld := ⟨0x30000 + 0x108, 8, 16⟩
/-- NET_E2E.REISSUE (R292, Table 12.9). -/
def R.NET_E2E_REISSUE : Fld := ⟨0x400000 + 0x28, 0, 24⟩
/-- NET_E2E.LOSS (R292, Table 12.9). -/
def R.NET_E2E_LOSS : Fld := ⟨0x400000 + 0x28, 24, 24⟩
/-- NET_E2E.DUPS (R292, Table 12.9). -/
def R.NET_E2E_DUPS : Fld := ⟨0x400000 + 0x28, 48, 16⟩
/-- CH_JOBSEED.SEED (R309, Table 13.8). -/
def R.CH_JOBSEED_SEED : Fld := ⟨0x60000 + 0x8000, 0, 64⟩
/-- CH_BELLCFG.ROLE (R309, Table 13.8). -/
def R.CH_BELLCFG_ROLE : Fld := ⟨0x60000 + 0x8008, 0, 2⟩
/-- CH_BELLCFG.ROOT (R309, Table 13.8). -/
def R.CH_BELLCFG_ROOT : Fld := ⟨0x60000 + 0x8008, 2, 1⟩
/-- CH_BELLCFG.NCHILD (R309, Table 13.8). -/
def R.CH_BELLCFG_NCHILD : Fld := ⟨0x60000 + 0x8008, 3, 5⟩
/-- CH_BELLCFG.RINGDIR (R309, Table 13.8). -/
def R.CH_BELLCFG_RINGDIR : Fld := ⟨0x60000 + 0x8008, 8, 1⟩
/-- CH_BELLCFG.CHDIR (R309, Table 13.8). -/
def R.CH_BELLCFG_CHDIR : Fld := ⟨0x60000 + 0x8008, 9, 16⟩
/-- CH_BELLCFG.NTILES (R309, Table 13.8). -/
def R.CH_BELLCFG_NTILES : Fld := ⟨0x60000 + 0x8008, 25, 10⟩
/-- CH_BELLCFG.SEALEN (R309, Table 13.8). -/
def R.CH_BELLCFG_SEALEN : Fld := ⟨0x60000 + 0x8008, 35, 1⟩
/-- CH_BELLPAR.PARENT (R309, Table 13.8). -/
def R.CH_BELLPAR_PARENT : Fld := ⟨0x60000 + 0x8010, 0, 64⟩
/-- PRT_BELLPAR.PARENT (R309, Table 13.8). -/
def R.PRT_BELLPAR_PARENT : Fld := ⟨0x30000 + 0x110, 0, 64⟩
/-- PRT_BELLDIR.RINGDIR (R309, Table 13.8). -/
def R.PRT_BELLDIR_RINGDIR : Fld := ⟨0x30000 + 0x0118, 0, 1⟩
/-- CH_BELLCHILD.CHILD (R309, Table 13.8). -/
def R.CH_BELLCHILD_CHILD (k : Nat) : Fld := ⟨0x60000 + 0x8100 + 8 * k, 0, 64⟩
/-- CH_BELLSTEP.STEP (R309, Table 13.8). -/
def R.CH_BELLSTEP_STEP : Fld := ⟨0x60000 + 0x8018, 0, 32⟩
/-- CH_BELLSTEP.STATE (R309, Table 13.8). -/
def R.CH_BELLSTEP_STATE : Fld := ⟨0x60000 + 0x8018, 32, 2⟩
/-- CH_BELLTMO.WDOG (R309, Table 13.8). -/
def R.CH_BELLTMO_WDOG : Fld := ⟨0x60000 + 0x8028, 0, 32⟩
/-- CH_BELLTMO.PACE (R309, Table 13.8). -/
def R.CH_BELLTMO_PACE : Fld := ⟨0x60000 + 0x8028, 32, 24⟩
/-- SEQ_BELL.PART (R309, Table 13.8). -/
def R.SEQ_BELL_PART : Fld := ⟨0x00D0, 0, 1⟩
/-- SEQ_BELL.PEND (R309, Table 13.8). -/
def R.SEQ_BELL_PEND : Fld := ⟨0x00D0, 1, 1⟩
/-- CH_BELLSTAT.TPOSTS (R309, Table 13.9). -/
def R.CH_BELLSTAT_TPOSTS : Fld := ⟨0x60000 + 0x8020, 0, 10⟩
/-- CH_BELLSTAT.CPOSTS (R309, Table 13.9). -/
def R.CH_BELLSTAT_CPOSTS : Fld := ⟨0x60000 + 0x8020, 10, 5⟩
/-- CH_BELLSTAT.JSTAT (R309, Table 13.9). -/
def R.CH_BELLSTAT_JSTAT : Fld := ⟨0x60000 + 0x8020, 15, 4⟩
/-- CH_BELLSTAT.UPSENT (R309, Table 13.9). -/
def R.CH_BELLSTAT_UPSENT : Fld := ⟨0x60000 + 0x8020, 19, 1⟩
/-- CH_BELLSTAT.HSTAT (R309, Table 13.9). -/
def R.CH_BELLSTAT_HSTAT : Fld := ⟨0x60000 + 0x8020, 20, 4⟩
/-- CH_BELLSTAT.WDOG (R309, Table 13.9). -/
def R.CH_BELLSTAT_WDOG : Fld := ⟨0x60000 + 0x8020, 24, 1⟩
/-- CH_BELLSTAT.LOST (R309, Table 13.9). -/
def R.CH_BELLSTAT_LOST : Fld := ⟨0x60000 + 0x8020, 25, 16⟩
/-- CH_BELLTIME.RINGAT (R309, Table 13.9). -/
def R.CH_BELLTIME_RINGAT : Fld := ⟨0x60000 + 0x8030, 0, 32⟩
/-- CH_BELLTIME.UPAT (R309, Table 13.9). -/
def R.CH_BELLTIME_UPAT : Fld := ⟨0x60000 + 0x8030, 32, 32⟩
/-- CH_BELLLATE.LATE (R309, Table 13.9). -/
def R.CH_BELLLATE_LATE (d : Nat) : Fld := ⟨0x60000 + 0x8200 + 8 * d, 0, 32⟩
/-- CH_SEAL_LO.SEAL (R309, Table 13.9). -/
def R.CH_SEAL_LO_SEAL (k : Nat) : Fld := ⟨0x60000 + 0x8040 + 0x10 * k, 0, 64⟩
/-- CH_SEAL_HI.SEAL (R309, Table 13.9). -/
def R.CH_SEAL_HI_SEAL (k : Nat) : Fld := ⟨0x60000 + 0x8048 + 0x10 * k, 0, 64⟩
/-- CH_SEALST.XSTEP (R309, Table 13.9). -/
def R.CH_SEALST_XSTEP : Fld := ⟨0x60000 + 0x8060, 0, 32⟩
/-- CH_SEALST.XSTAT (R309, Table 13.9). -/
def R.CH_SEALST_XSTAT : Fld := ⟨0x60000 + 0x8060, 32, 4⟩
/-- WGH_CTL.CAPW (R325, Table 14.7). -/
def R.WGH_CTL_CAPW : Fld := ⟨0x50000 + 0x0000, 0, 10⟩
/-- WGH_CTL.TCAP (R325, Table 14.7). -/
def R.WGH_CTL_TCAP : Fld := ⟨0x50000 + 0x0000, 16, 16⟩
/-- WGH_CTL.GFLOOR (R325, Table 14.7). -/
def R.WGH_CTL_GFLOOR : Fld := ⟨0x50000 + 0x0000, 32, 12⟩
/-- WGH_PACECTL.EARLY (R325, Table 14.7). -/
def R.WGH_PACECTL_EARLY : Fld := ⟨0x50000 + 0x0008, 0, 8⟩
/-- WGH_PACECTL.UPSTEP (R325, Table 14.7). -/
def R.WGH_PACECTL_UPSTEP : Fld := ⟨0x50000 + 0x0008, 8, 4⟩
/-- WGH_PACECTL.DNSTEP (R325, Table 14.7). -/
def R.WGH_PACECTL_DNSTEP : Fld := ⟨0x50000 + 0x0008, 12, 4⟩
/-- WGH_PACECTL.POL_r (R325, Table 14.7). -/
def R.WGH_PACECTL_POL (r : Nat) : Fld := ⟨0x50000 + 0x0008, (2 * r + 16), 2⟩
/-- WGH_PACECTL.VNOM (R325, Table 14.7). -/
def R.WGH_PACECTL_VNOM : Fld := ⟨0x50000 + 0x0008, 24, 7⟩
/-- WGH_PACECTL.VMEM (R325, Table 14.7). -/
def R.WGH_PACECTL_VMEM : Fld := ⟨0x50000 + 0x0008, 31, 7⟩
/-- WGH_PACECTL.LMIN (R325, Table 14.7). -/
def R.WGH_PACECTL_LMIN : Fld := ⟨0x50000 + 0x0008, 38, 7⟩
/-- WGH_THERM.THROT (R325, Table 14.7). -/
def R.WGH_THERM_THROT : Fld := ⟨0x50000 + 0x0010, 0, 8⟩
/-- WGH_THERM.LIMIT (R325, Table 14.7). -/
def R.WGH_THERM_LIMIT : Fld := ⟨0x50000 + 0x0010, 8, 8⟩
/-- WGH_THERM.HYST (R325, Table 14.7). -/
def R.WGH_THERM_HYST : Fld := ⟨0x50000 + 0x0010, 16, 4⟩
/-- WGH_DOMCTL.VMIN (R325, Table 14.7). -/
def R.WGH_DOMCTL_VMIN (d : Nat) : Fld := ⟨0x50000 + 0x0100 + 8 * d, 0, 7⟩
/-- WGH_DOMCTL.VMAX (R325, Table 14.7). -/
def R.WGH_DOMCTL_VMAX (d : Nat) : Fld := ⟨0x50000 + 0x0100 + 8 * d, 7, 7⟩
/-- WGH_DOMCTL.WEIGHT (R325, Table 14.7). -/
def R.WGH_DOMCTL_WEIGHT (d : Nat) : Fld := ⟨0x50000 + 0x0100 + 8 * d, 14, 8⟩
/-- WGH_ECT.COST (R325, Table 14.7). -/
def R.WGH_ECT_COST (r k j : Nat) : Fld := ⟨0x50000 + 0x300 + 0x20 * r + 8 * k, (16 * j), 16⟩
/-- WGH_POWER.PWR (R325, Table 14.8). -/
def R.WGH_POWER_PWR : Fld := ⟨0x50000 + 0x0018, 0, 16⟩
/-- WGH_POWER.PAVG (R325, Table 14.8). -/
def R.WGH_POWER_PAVG : Fld := ⟨0x50000 + 0x0018, 16, 16⟩
/-- WGH_POWER.K (R325, Table 14.8). -/
def R.WGH_POWER_K : Fld := ⟨0x50000 + 0x0018, 32, 16⟩
/-- WGH_POWER.CAPHIT (R325, Table 14.8). -/
def R.WGH_POWER_CAPHIT : Fld := ⟨0x50000 + 0x0018, 48, 1⟩
/-- WGH_BUDGET.EROW (R325, Table 14.8). -/
def R.WGH_BUDGET_EROW : Fld := ⟨0x50000 + 0x0020, 0, 32⟩
/-- WGH_BUDGET.EFIX (R325, Table 14.8). -/
def R.WGH_BUDGET_EFIX : Fld := ⟨0x50000 + 0x0020, 32, 32⟩
/-- WGH_DOMST.VSET (R325, Table 14.8). -/
def R.WGH_DOMST_VSET (d : Nat) : Fld := ⟨0x50000 + 0x0200 + 8 * d, 0, 7⟩
/-- WGH_DOMST.VCEIL (R325, Table 14.8). -/
def R.WGH_DOMST_VCEIL (d : Nat) : Fld := ⟨0x50000 + 0x0200 + 8 * d, 7, 7⟩
/-- WGH_DOMST.THST (R325, Table 14.8). -/
def R.WGH_DOMST_THST (d : Nat) : Fld := ⟨0x50000 + 0x0200 + 8 * d, 14, 2⟩
/-- WGH_DOMST.TJ (R325, Table 14.8). -/
def R.WGH_DOMST_TJ (d : Nat) : Fld := ⟨0x50000 + 0x0200 + 8 * d, 16, 8⟩
/-- WGH_DOMST.MODE (R325, Table 14.8). -/
def R.WGH_DOMST_MODE (d : Nat) : Fld := ⟨0x50000 + 0x0200 + 8 * d, 24, 2⟩
/-- WGH_DOMST.GRANT (R325, Table 14.8). -/
def R.WGH_DOMST_GRANT (d : Nat) : Fld := ⟨0x50000 + 0x0200 + 8 * d, 32, 32⟩
/-- WGH_STACK.LEVEL (R325, Table 14.8). -/
def R.WGH_STACK_LEVEL (s : Nat) : Fld := ⟨0x50000 + 0x0400 + 8 * s, 0, 2⟩
/-- WGH_STACK.TEMP (R325, Table 14.8). -/
def R.WGH_STACK_TEMP (s : Nat) : Fld := ⟨0x50000 + 0x0400 + 8 * s, 2, 8⟩
/-- WGH_STACK.DOMS (R325, Table 14.8). -/
def R.WGH_STACK_DOMS (s : Nat) : Fld := ⟨0x50000 + 0x0400 + 8 * s, 10, 24⟩
/-- WGH_STACK.HUB (R325, Table 14.8). -/
def R.WGH_STACK_HUB (s : Nat) : Fld := ⟨0x50000 + 0x0400 + 8 * s, 34, 1⟩
/-- CH_CORES.ACTA (R348, Table 15.10). -/
def R.CH_CORES_ACTA : Fld := ⟨0x60000 + 0x0000, 0, 2⟩
/-- CH_CORES.ACTB (R348, Table 15.10). -/
def R.CH_CORES_ACTB : Fld := ⟨0x60000 + 0x0000, 2, 2⟩
/-- CH_CORES.SPARE (R348, Table 15.10). -/
def R.CH_CORES_SPARE : Fld := ⟨0x60000 + 0x0000, 4, 2⟩
/-- CH_CORES.RETIRED (R348, Table 15.10). -/
def R.CH_CORES_RETIRED : Fld := ⟨0x60000 + 0x0000, 6, 3⟩
/-- CH_CORES.SWAPPING (R348, Table 15.10). -/
def R.CH_CORES_SWAPPING : Fld := ⟨0x60000 + 0x0000, 9, 1⟩
/-- CH_CORES.SWAPS (R348, Table 15.10). -/
def R.CH_CORES_SWAPS : Fld := ⟨0x60000 + 0x0000, 10, 8⟩
/-- CH_FWVER.RELEASE (R348, Table 15.10). -/
def R.CH_FWVER_RELEASE : Fld := ⟨0x60000 + 0x0008, 0, 32⟩
/-- CH_FWVER.SVN (R348, Table 15.10). -/
def R.CH_FWVER_SVN : Fld := ⟨0x60000 + 0x0008, 32, 16⟩
/-- CH_FWVER.BANK (R348, Table 15.10). -/
def R.CH_FWVER_BANK : Fld := ⟨0x60000 + 0x0008, 48, 1⟩
/-- CH_FWVER.NEXT (R348, Table 15.10). -/
def R.CH_FWVER_NEXT : Fld := ⟨0x60000 + 0x0008, 49, 1⟩
/-- CH_FWVER.PEND (R348, Table 15.10). -/
def R.CH_FWVER_PEND : Fld := ⟨0x60000 + 0x0008, 50, 1⟩
/-- CH_FWVER.ROM (R348, Table 15.10). -/
def R.CH_FWVER_ROM : Fld := ⟨0x60000 + 0x0008, 51, 1⟩
/-- CH_MBSTAT.BUSY (R348, Table 15.10). -/
def R.CH_MBSTAT_BUSY (p : Nat) : Fld := ⟨0x60000 + 0x0100 + 8 * p, 0, 16⟩
/-- CH_MBSTAT.ACCEPTED (R348, Table 15.10). -/
def R.CH_MBSTAT_ACCEPTED (p : Nat) : Fld := ⟨0x60000 + 0x0100 + 8 * p, 16, 16⟩
/-- CH_MBSTAT.REFUSED (R348, Table 15.10). -/
def R.CH_MBSTAT_REFUSED (p : Nat) : Fld := ⟨0x60000 + 0x0100 + 8 * p, 32, 16⟩
/-- CH_MBSTAT.LASTREF (R348, Table 15.10). -/
def R.CH_MBSTAT_LASTREF (p : Nat) : Fld := ⟨0x60000 + 0x0100 + 8 * p, 48, 4⟩
/-- CH_MBSTAT.NORESP (R348, Table 15.10). -/
def R.CH_MBSTAT_NORESP (p : Nat) : Fld := ⟨0x60000 + 0x0100 + 8 * p, 52, 1⟩
/-- CH_CRCTL.SLICE (R348, Table 15.11). -/
def R.CH_CRCTL_SLICE : Fld := ⟨0x60000 + 0x0200, 0, 7⟩
/-- CH_CRCTL.CRYTMO (R348, Table 15.11). -/
def R.CH_CRCTL_CRYTMO : Fld := ⟨0x60000 + 0x0200, 32, 32⟩
/-- CH_CRSTAT.STATE (R348, Table 15.11). -/
def R.CH_CRSTAT_STATE : Fld := ⟨0x60000 + 0x0208, 0, 3⟩
/-- CH_CRSTAT.ROUND (R348, Table 15.11). -/
def R.CH_CRSTAT_ROUND : Fld := ⟨0x60000 + 0x0208, 3, 2⟩
/-- CH_CRSTAT.TARGETS (R348, Table 15.11). -/
def R.CH_CRSTAT_TARGETS : Fld := ⟨0x60000 + 0x0208, 5, 10⟩
/-- CH_CRSTAT.VERIFIED (R348, Table 15.11). -/
def R.CH_CRSTAT_VERIFIED : Fld := ⟨0x60000 + 0x0208, 15, 10⟩
/-- CH_CRSTAT.OOS (R348, Table 15.11). -/
def R.CH_CRSTAT_OOS : Fld := ⟨0x60000 + 0x0208, 25, 10⟩
/-- CH_CRSTAT.NCHUNK (R348, Table 15.11). -/
def R.CH_CRSTAT_NCHUNK : Fld := ⟨0x60000 + 0x0208, 35, 7⟩
/-- SEQ_LOADER.LSTATE (R348, Table 15.11). -/
def R.SEQ_LOADER_LSTATE : Fld := ⟨0x00D8, 0, 2⟩
/-- SEQ_LOADER.SEALT (R348, Table 15.11). -/
def R.SEQ_LOADER_SEALT : Fld := ⟨0x00D8, 2, 1⟩
/-- SEQ_FWMAP.CHUNKS (R348, Table 15.11). -/
def R.SEQ_FWMAP_CHUNKS : Fld := ⟨0x00E0, 0, 64⟩
/-- STG_STATUS.STAGE (R370, Table 16.9). -/
def R.STG_STATUS_STAGE : Fld := ⟨0x0000, 0, 4⟩
/-- STG_STATUS.BUSY (R370, Table 16.9). -/
def R.STG_STATUS_BUSY : Fld := ⟨0x0000, 4, 1⟩
/-- STG_STATUS.RSVC (R370, Table 16.9). -/
def R.STG_STATUS_RSVC : Fld := ⟨0x0000, 5, 1⟩
/-- STG_STATUS.FULL (R370, Table 16.9). -/
def R.STG_STATUS_FULL : Fld := ⟨0x0000, 6, 1⟩
/-- STG_STATUS.FAIL (R370, Table 16.9). -/
def R.STG_STATUS_FAIL : Fld := ⟨0x0000, 7, 1⟩
/-- STG_STATUS.FSTAT (R370, Table 16.9). -/
def R.STG_STATUS_FSTAT : Fld := ⟨0x0000, 8, 4⟩
/-- STG_STATUS.FSTAGE (R370, Table 16.9). -/
def R.STG_STATUS_FSTAGE : Fld := ⟨0x0000, 12, 4⟩
/-- STG_STATUS.PASSL (R370, Table 16.9). -/
def R.STG_STATUS_PASSL : Fld := ⟨0x0000, 16, 1⟩
/-- STG_STATUS.PASSU (R370, Table 16.9). -/
def R.STG_STATUS_PASSU : Fld := ⟨0x0000, 17, 1⟩
/-- STG_STATUS.WARM (R370, Table 16.9). -/
def R.STG_STATUS_WARM : Fld := ⟨0x0000, 18, 1⟩
/-- STG_STRAP.SLOT (R370, Table 16.9). -/
def R.STG_STRAP_SLOT : Fld := ⟨0x0008, 0, 4⟩
/-- STG_STRAP.WARD (R370, Table 16.9). -/
def R.STG_STRAP_WARD : Fld := ⟨0x0008, 4, 2⟩
/-- STG_STRAP.ASM (R370, Table 16.9). -/
def R.STG_STRAP_ASM : Fld := ⟨0x0008, 6, 3⟩
/-- STG_STRAP.STRAPERR (R370, Table 16.9). -/
def R.STG_STRAP_STRAPERR : Fld := ⟨0x0008, 9, 1⟩
/-- STG_CAUSE.LAST (R370, Table 16.9). -/
def R.STG_CAUSE_LAST : Fld := ⟨0x0010, 0, 3⟩
/-- STG_CAUSE.WARMS (R370, Table 16.9). -/
def R.STG_CAUSE_WARMS : Fld := ⟨0x0010, 8, 8⟩
/-- STG_TIME.AT (R370, Table 16.9). -/
def R.STG_TIME_AT (n : Nat) : Fld := ⟨0x0100 + 8 * n, 0, 64⟩
/-- STG_CHAR.R60 (R370, Table 16.9). -/
def R.STG_CHAR_R60 (d : Nat) : Fld := ⟨0x0200 + 8 * d, 0, 13⟩
/-- STG_CHAR.R75 (R370, Table 16.9). -/
def R.STG_CHAR_R75 (d : Nat) : Fld := ⟨0x0200 + 8 * d, 13, 13⟩
/-- STG_CHAR.R88 (R370, Table 16.9). -/
def R.STG_CHAR_R88 (d : Nat) : Fld := ⟨0x0200 + 8 * d, 26, 13⟩
/-- STG_CHAR.TJ (R370, Table 16.9). -/
def R.STG_CHAR_TJ (d : Nat) : Fld := ⟨0x0200 + 8 * d, 39, 8⟩
/-- STG_CHAR.SLOW (R370, Table 16.9). -/
def R.STG_CHAR_SLOW (d : Nat) : Fld := ⟨0x0200 + 8 * d, 47, 1⟩
/-- LDG_STATUS.LGEN (R391, Table 17.10). -/
def R.LDG_STATUS_LGEN : Fld := ⟨0x20000 + 0x0400, 0, 32⟩
/-- LDG_STATUS.NENT (R391, Table 17.10). -/
def R.LDG_STATUS_NENT : Fld := ⟨0x20000 + 0x0400, 32, 16⟩
/-- LDG_STATUS.HIST (R391, Table 17.10). -/
def R.LDG_STATUS_HIST : Fld := ⟨0x20000 + 0x0400, 48, 1⟩
/-- LDG_STATUS.BUILD (R391, Table 17.10). -/
def R.LDG_STATUS_BUILD : Fld := ⟨0x20000 + 0x0400, 49, 1⟩
/-- LDG_STATUS.RUSED (R391, Table 17.10). -/
def R.LDG_STATUS_RUSED : Fld := ⟨0x20000 + 0x0400, 50, 5⟩
/-- LDG_THRESH.ROWCORR (R391, Table 17.10). -/
def R.LDG_THRESH_ROWCORR : Fld := ⟨0x20000 + 0x0408, 0, 8⟩
/-- LDG_THRESH.COLCORR (R391, Table 17.10). -/
def R.LDG_THRESH_COLCORR : Fld := ⟨0x20000 + 0x0408, 8, 8⟩
/-- LDG_THRESH.LINKCORR (R391, Table 17.10). -/
def R.LDG_THRESH_LINKCORR : Fld := ⟨0x20000 + 0x0408, 16, 16⟩
/-- LDG_THRESH.DMARGIN (R391, Table 17.10). -/
def R.LDG_THRESH_DMARGIN : Fld := ⟨0x20000 + 0x0408, 32, 8⟩
/-- LDG_THRESH.WINDOW (R391, Table 17.10). -/
def R.LDG_THRESH_WINDOW : Fld := ⟨0x20000 + 0x0408, 40, 24⟩
/-- LDG_ALERT.JOBF (R391, Table 17.10). -/
def R.LDG_ALERT_JOBF : Fld := ⟨0x20000 + 0x0410, 0, 1⟩
/-- LDG_ALERT.DEVF (R391, Table 17.10). -/
def R.LDG_ALERT_DEVF : Fld := ⟨0x20000 + 0x0410, 1, 1⟩
/-- LDG_ALERT.THERM (R391, Table 17.10). -/
def R.LDG_ALERT_THERM : Fld := ⟨0x20000 + 0x0410, 2, 1⟩
/-- LDG_ALERT.VRLOW (R391, Table 17.10). -/
def R.LDG_ALERT_VRLOW : Fld := ⟨0x20000 + 0x0410, 3, 1⟩
/-- LDG_ALERT.NOSPARE (R391, Table 17.10). -/
def R.LDG_ALERT_NOSPARE : Fld := ⟨0x20000 + 0x0410, 4, 1⟩
/-- LDG_ALERT.JOBCNT (R391, Table 17.10). -/
def R.LDG_ALERT_JOBCNT : Fld := ⟨0x20000 + 0x0410, 16, 16⟩
/-- LDG_FLOG.WI (R391, Table 17.10). -/
def R.LDG_FLOG_WI : Fld := ⟨0x20000 + 0x0418, 0, 32⟩
/-- LDG_FLOG.AI (R391, Table 17.10). -/
def R.LDG_FLOG_AI : Fld := ⟨0x20000 + 0x0418, 32, 32⟩
/-- LDG_NOTIFY.ADDR (R391, Table 17.10). -/
def R.LDG_NOTIFY_ADDR : Fld := ⟨0x20000 + 0x0420, 0, 64⟩
/-- LDG_RESCUE.ADDR (R391, Table 17.10). -/
def R.LDG_RESCUE_ADDR : Fld := ⟨0x20000 + 0x0428, 0, 64⟩
/-- LDG_TBANK.RETIRED (R391, Table 17.10). -/
def R.LDG_TBANK_RETIRED (row pcol : Nat) : Fld := ⟨0x20000 + 0x1000 + 8 * (21 * row + pcol), 0, 16⟩
/-- CH_SECFUSE.HMEPOCH (R403, Table 18.8). -/
def R.CH_SECFUSE_HMEPOCH : Fld := ⟨0x60000 + 0x0300, 0, 6⟩
/-- CH_SECFUSE.FWSVN (R403, Table 18.8). -/
def R.CH_SECFUSE_FWSVN : Fld := ⟨0x60000 + 0x0300, 6, 6⟩
/-- CH_SECFUSE.TSVN (R403, Table 18.8). -/
def R.CH_SECFUSE_TSVN : Fld := ⟨0x60000 + 0x0300, 12, 6⟩
/-- CH_SECFUSE.FWGEN (R403, Table 18.8). -/
def R.CH_SECFUSE_FWGEN : Fld := ⟨0x60000 + 0x0300, 18, 2⟩
/-- CH_SECFUSE.TGEN (R403, Table 18.8). -/
def R.CH_SECFUSE_TGEN : Fld := ⟨0x60000 + 0x0300, 20, 2⟩
/-- CH_SECFUSE.HMGEN (R403, Table 18.8). -/
def R.CH_SECFUSE_HMGEN : Fld := ⟨0x60000 + 0x0300, 22, 2⟩
/-- CH_SECFUSE.FWREV (R403, Table 18.8). -/
def R.CH_SECFUSE_FWREV : Fld := ⟨0x60000 + 0x0300, 24, 4⟩
/-- CH_SECFUSE.TREV (R403, Table 18.8). -/
def R.CH_SECFUSE_TREV : Fld := ⟨0x60000 + 0x0300, 28, 4⟩
/-- CH_SECFUSE.HMREV (R403, Table 18.8). -/
def R.CH_SECFUSE_HMREV : Fld := ⟨0x60000 + 0x0300, 32, 4⟩
/-- CH_HMSTAT.PRESENTED (R403, Table 18.8). -/
def R.CH_HMSTAT_PRESENTED : Fld := ⟨0x60000 + 0x0308, 0, 4⟩
/-- CH_HMSTAT.VERIFIED (R403, Table 18.8). -/
def R.CH_HMSTAT_VERIFIED : Fld := ⟨0x60000 + 0x0308, 4, 4⟩
/-- CH_HMSTAT.REFUSED (R403, Table 18.8). -/
def R.CH_HMSTAT_REFUSED : Fld := ⟨0x60000 + 0x0308, 8, 4⟩
/-- CH_HMSTAT.TILES (R403, Table 18.8). -/
def R.CH_HMSTAT_TILES : Fld := ⟨0x60000 + 0x0308, 12, 2⟩
/-- CH_HMSTAT.PASS23 (R403, Table 18.8). -/
def R.CH_HMSTAT_PASS23 : Fld := ⟨0x60000 + 0x0308, 14, 1⟩
/-- CH_HMSTAT.TWIN (R403, Table 18.8). -/
def R.CH_HMSTAT_TWIN : Fld := ⟨0x60000 + 0x0308, 15, 1⟩
/-- CH_HMSTAT.SCALE (R403, Table 18.8). -/
def R.CH_HMSTAT_SCALE : Fld := ⟨0x60000 + 0x0308, 16, 2⟩
/-- CH_HMSTAT.APPLIED (R403, Table 18.8). -/
def R.CH_HMSTAT_APPLIED : Fld := ⟨0x60000 + 0x0308, 18, 1⟩
/-- CH_HMSLOT.RESULT (R403, Table 18.8). -/
def R.CH_HMSLOT_RESULT (n : Nat) : Fld := ⟨0x60000 + 0x0310 + 8 * n, 0, 4⟩
/-- CH_HMSLOT.TIER (R403, Table 18.8). -/
def R.CH_HMSLOT_TIER (n : Nat) : Fld := ⟨0x60000 + 0x0310 + 8 * n, 4, 8⟩
/-- CH_HMSLOT.SERIAL (R403, Table 18.8). -/
def R.CH_HMSLOT_SERIAL (n : Nat) : Fld := ⟨0x60000 + 0x0310 + 8 * n, 16, 32⟩
/-- CH_IDHASH.IDHASH (R403, Table 18.8). -/
def R.CH_IDHASH_IDHASH (k : Nat) : Fld := ⟨0x60000 + 0x0340 + 8 * k, 0, 64⟩
/-- TST_STATUS.LOCKED (R423, Table 19.12). -/
def R.TST_STATUS_LOCKED : Fld := ⟨0x70000 + 0x0000, 0, 1⟩
/-- TST_STATUS.IR (R423, Table 19.12). -/
def R.TST_STATUS_IR : Fld := ⟨0x70000 + 0x0000, 1, 8⟩
/-- TST_STATUS.TAPSTATE (R423, Table 19.12). -/
def R.TST_STATUS_TAPSTATE : Fld := ⟨0x70000 + 0x0000, 9, 4⟩
/-- TST_STATUS.BUMPCTL (R423, Table 19.12). -/
def R.TST_STATUS_BUMPCTL : Fld := ⟨0x70000 + 0x0000, 13, 1⟩
/-- TST_STATUS.THERMTRIP (R423, Table 19.12). -/
def R.TST_STATUS_THERMTRIP : Fld := ⟨0x70000 + 0x0000, 14, 1⟩
/-- TST_STATUS.TAPRESETS (R423, Table 19.12). -/
def R.TST_STATUS_TAPRESETS : Fld := ⟨0x70000 + 0x0000, 16, 16⟩
/-- TST_IDCODE.IDCODE (R423, Table 19.12). -/
def R.TST_IDCODE_IDCODE : Fld := ⟨0x70000 + 0x0008, 0, 32⟩
/-- LAR_WIN.BASE, its bits 15 to 0 (R292, Table 12.8: bits 69 to 48 of the descriptor). -/
def R.LAR_WIN_BASELO (w : Nat) : Fld := ⟨0x40000 + 0x8000 + 0x20 * w, 48, 16⟩
/-- LAR_WIN.BASE, its bits 21 to 16. -/
def R.LAR_WIN_BASEHI (w : Nat) : Fld := ⟨0x40000 + 0x8000 + 0x20 * w + 8, 0, 6⟩

end Sys2Proof.Machine
end

