-- ==== Sys2Proof/Machine/ResetVals.lean ====
section
/-! DEFINITION. The reset values of the registers (the Reset column of every register table): what a register that
the register file does not list holds. -/

namespace Sys2Proof.Machine

/-- One field at a value. -/
def fldVal (f : Fld) (v : Nat) : Nat := v % 2 ^ f.w * 2 ^ f.lo

/-- PRT_STATE of the ring ports resets with all four positions closed (Table 11.11). -/
def ringStateReset : Nat := fldVal (R.PRT_STATE_BYPOS 4) 0xF

/-- The reset word of the chiplet-scope register at an offset of the control page. -/
def cResetWord (off : Nat) : Word :=
  BitVec.ofNat 64 <|
    if off = R.TMB_CAL_INC.off then fldVal R.TMB_CAL_INC 0x02000000
    else if off = (R.PRT_STATE_BYPOS 4).off ∨ off = (R.PRT_STATE_BYPOS 5).off then ringStateReset
    else if off = R.PRT_THRESH_CVLIM.off then
      fldVal R.PRT_THRESH_CVLIM 64 + fldVal R.PRT_THRESH_HDEG 4 + fldVal R.PRT_THRESH_HRET 4
        + fldVal R.PRT_THRESH_LSTALL 200 + fldVal R.PRT_THRESH_WIN 1000000
    else if off = R.PRT_TIMERS_IDLEPER.off then
      fldVal R.PRT_TIMERS_IDLEPER 1000 + fldVal R.PRT_TIMERS_ACCTMO 2000 + fldVal R.PRT_TIMERS_STRTMO 5000
        + fldVal R.PRT_TIMERS_LOSSTMO 20000
    else if 0x40000 ≤ off ∧ off < 0x40000 + 8 * 96 ∧ off % 8 = 0 then fldVal (R.LAR_CTL_MWIN 0) 0x20
    else if off = R.LAR_ILVCTL_BYPASS.off then 1
    else if off = R.NET_TIMERS_ESCWAIT.off then fldVal R.NET_TIMERS_ESCWAIT 256 + fldVal R.NET_TIMERS_EPOCHTMO 2000000
    else if off = R.NET_E2E_REISSUE.off then fldVal R.NET_E2E_REISSUE 50000 + fldVal R.NET_E2E_LOSS 400000
    else if off = R.CH_BELLTMO_WDOG.off then fldVal R.CH_BELLTMO_WDOG 10000000
    else if off = R.WGH_CTL_CAPW.off then
      fldVal R.WGH_CTL_CAPW 540 + fldVal R.WGH_CTL_TCAP 8192 + fldVal R.WGH_CTL_GFLOOR 256
    else if off = R.WGH_PACECTL_EARLY.off then
      fldVal R.WGH_PACECTL_EARLY 26 + fldVal R.WGH_PACECTL_UPSTEP 4 + fldVal R.WGH_PACECTL_DNSTEP 1
        + 0x48 * 2 ^ 16 + fldVal R.WGH_PACECTL_VNOM 50 + fldVal R.WGH_PACECTL_VMEM 20 + fldVal R.WGH_PACECTL_LMIN 30
    else if off = R.WGH_THERM_THROT.off then
      fldVal R.WGH_THERM_THROT 95 + fldVal R.WGH_THERM_LIMIT 105 + fldVal R.WGH_THERM_HYST 3
    else if 0x50100 ≤ off ∧ off < 0x50100 + 8 * 29 ∧ off % 8 = 0 then
      fldVal (R.WGH_DOMCTL_VMAX 0) 76 + (if off < 0x50100 + 8 * 24 then fldVal (R.WGH_DOMCTL_WEIGHT 0) 16 else 0)
    else if off = R.WGH_POWER_K.off then fldVal R.WGH_POWER_K 256
    else if off = R.CH_CORES_ACTB.off then fldVal R.CH_CORES_ACTB 1 + fldVal R.CH_CORES_SPARE 2
    else if off = R.CH_FWVER_ROM.off then fldVal R.CH_FWVER_ROM 1
    else if off = R.CH_CRCTL_CRYTMO.off then fldVal R.CH_CRCTL_CRYTMO 2000000
    else if off = R.LDG_THRESH_ROWCORR.off then
      fldVal R.LDG_THRESH_ROWCORR 8 + fldVal R.LDG_THRESH_COLCORR 4 + fldVal R.LDG_THRESH_LINKCORR 1000
        + fldVal R.LDG_THRESH_DMARGIN 8 + fldVal R.LDG_THRESH_WINDOW 3600000
    else if off = R.TST_STATUS_IR.off then fldVal R.TST_STATUS_IR 1
    else if 0x100000 ≤ off ∧ off < 0x100000 + 0x800 * 100 ∧ off % 0x800 < 8 * 32 ∧ off % 8 = 0 then 0x40 * 2 ^ 16
    else 0

/-- The reset word of the register at an offset of a tile's page. -/
def tResetWord (off : Nat) : Word :=
  BitVec.ofNat 64 <|
    if 0x1100 ≤ off ∧ off < 0x1180 ∧ off % 8 = 0 then fldVal (R.MEM_RGN_MODE 0) 2
    else if off = R.MEM_TIMERS_DARKTMO.off then
      fldVal R.MEM_TIMERS_DARKTMO 10000 + fldVal R.MEM_TIMERS_TAGWAIT 1000000 + fldVal R.MEM_TIMERS_SCRUB 100
    else if off = R.SEQ_ADMIT_STARVE.off then fldVal R.SEQ_ADMIT_STARVE 4
    else if off = R.SEQ_LOADER_LSTATE.off then 1
    else if 0x3080 ≤ off ∧ off < 0x30A0 ∧ off % 8 = 0 then 0xFFFFFFFF
    else if off = R.CHN_MODE_MONLY.off then 1
    else 0

end Sys2Proof.Machine
end

