-- ==== Sys2Proof/Machine/SMap.lean ====
section
/-! DEFINITION. The operations of the sparse map. A map lists only keys whose value differs from its default,
in strictly rising order of the key, so that equal maps are equal lists. -/

namespace Sys2Proof.Machine

/-- The value at key `k`; `d` where the key is not listed. -/
def SMap.get {α : Type} (d : α) : SMap α → Nat → α
  | [], _ => d
  | (j, x) :: m, k => if j = k then x else SMap.get d m k

/-- `m` with key `k` removed. -/
def SMap.del {α : Type} : SMap α → Nat → SMap α
  | [], _ => []
  | (j, x) :: m, k => if j = k then SMap.del m k else (j, x) :: SMap.del m k

/-- `m` with `(k, v)` put before the first key above `k`. -/
def SMap.ins {α : Type} (k : Nat) (v : α) : SMap α → SMap α
  | [] => [(k, v)]
  | (j, x) :: m => if k < j then (k, v) :: (j, x) :: m else (j, x) :: SMap.ins k v m

/-- `m` with the value `v` at key `k`; writing the default removes the entry. -/
def SMap.set {α : Type} [DecidableEq α] (d : α) (m : SMap α) (k : Nat) (v : α) : SMap α :=
  if v = d then SMap.del m k else SMap.ins k v (SMap.del m k)

/-- The entries whose key satisfies `p`; every other key returns to the default. -/
def SMap.keep {α : Type} (p : Nat → Bool) (m : SMap α) : SMap α := m.filter (fun e => p e.1)

/-- The canonical form: keys strictly rising and no entry equal to the default. -/
def SMap.wf {α : Type} [DecidableEq α] (d : α) (m : SMap α) : Bool :=
  decide (m.Pairwise (fun a b => a.1 < b.1)) && m.all (fun e => decide (e.2 ≠ d))

/-- `n` bytes from address `a` up. -/
def readBytes (m : List Host.Cell) (a : Nat) : Nat → List Byte
  | 0 => []
  | n + 1 => SMap.get (0 : Byte) m a :: readBytes m (a + 1) n

/-- Bytes written from address `a` up. -/
def writeBytes (m : List Host.Cell) (a : Nat) : List Byte → List Host.Cell
  | [] => m
  | b :: bs => writeBytes (SMap.set (0 : Byte) m a b) (a + 1) bs

end Sys2Proof.Machine
end

