-- ==== Sys2Proof/Machine/Operands.lean ====
section
/-! DEFINITION. The number formats (chapter 3): the exact value an encoding denotes, the encodings the chiplet
writes, block scales, the splitting of FP32 for the 19-bit path, and the layout of element arrays. -/

namespace Sys2Proof.Machine

/-- The formats of Table 3.1. -/
inductive Fmt where
  | p4 | p8a | p8b | p16 | p19 | fp32 | i8 | i32 | e8
  deriving DecidableEq, Repr

/-- The format a 4-bit code names (Table 3.1); codes 9h to Fh are reserved. -/
def Fmt.ofCode : Nat → Option Fmt
  | 0 => some .p4 | 1 => some .p8a | 2 => some .p8b | 3 => some .p16 | 4 => some .p19
  | 5 => some .fp32 | 6 => some .i8 | 7 => some .i32 | 8 => some .e8 | _ => none

/-- The storage unit of an element in bytes (Table 3.1); P4 holds two elements in one byte. -/
def Fmt.unitBytes : Fmt → Nat
  | .p4 | .p8a | .p8b | .i8 | .e8 => 1
  | .p16 => 2
  | .p19 | .fp32 | .i32 => 4

/-- The alignment of a format's storage unit (Table 3.1). -/
def Fmt.align (f : Fmt) : Nat := f.unitBytes

/-- The bytes an array of `n` elements occupies (R47). -/
def Fmt.arrayBytes (f : Fmt) (n : Nat) : Nat :=
  match f with
  | .p4 => (n + 1) / 2
  | _ => n * f.unitBytes

/-- A format whose elements carry a block scale (R60). -/
def Fmt.scaled : Fmt → Bool
  | .p4 | .p8a | .p8b => true
  | _ => false

/-- A floating format (a drain target, R46). -/
def Fmt.floating : Fmt → Bool
  | .i8 | .i32 | .e8 => false
  | _ => true

/-- The exponent width of a floating layout (Table 3.2; FP32 is binary32). -/
def Fmt.expBits : Fmt → Nat
  | .p8a => 4 | .p8b => 5 | .p16 => 7 | .p19 | .fp32 => 8 | _ => 0

/-- The mantissa width of a floating layout (Table 3.2). -/
def Fmt.manBits : Fmt → Nat
  | .p8a => 3 | .p8b => 2 | .p16 => 8 | .p19 => 10 | .fp32 => 23 | _ => 0

/-- The exponent bias (Table 3.2). -/
def Fmt.bias : Fmt → Int
  | .p8a => 8 | .p8b => 16 | .p16 => 63 | .p19 | .fp32 => 127 | _ => 0

/-- An exact value: NaN, a signed infinity, or `(-1)^neg * m * 2^e`; `m = 0` is a zero of that sign. -/
inductive NV where
  | nan
  | inf (neg : Bool)
  | fin (neg : Bool) (m : Nat) (e : Int)
  deriving DecidableEq, Repr

/-- Positive zero. -/
def NV.zero : NV := .fin false 0 0

/-- The sign of a value (a NaN's is not propagated, R49). -/
def NV.neg : NV → Bool
  | .nan => false
  | .inf n => n
  | .fin n _ _ => n

/-- A zero of either sign. -/
def NV.isZero : NV → Bool
  | .fin _ 0 _ => true
  | _ => false

/-- Neither an infinity nor a NaN. -/
def NV.finite : NV → Bool
  | .fin _ _ _ => true
  | _ => false

/-- An integer as an exact value. -/
def NV.ofInt (i : Int) : NV := .fin (decide (i < 0)) i.natAbs 0

/-- The P4 values of Table 3.3, in quarters, by exponent and mantissa bits. -/
def p4Quarters : Nat → Nat
  | 0 => 0 | 1 => 1 | 2 => 2 | 3 => 3 | 4 => 4 | 5 => 6 | 6 => 8 | 7 => 12 | _ => 16

/-- The value of an encoding of the layout of R48; FP32 subnormals read as zero (R54). -/
def decodeLayout (f : Fmt) (c : Nat) : NV :=
  let e := bits c f.manBits f.expBits
  let m := bits c 0 f.manBits
  let s := bit c (f.expBits + f.manBits)
  if e = 0 then .fin s 0 0
  else if e = 2 ^ f.expBits - 1 then if m = 0 then .inf s else .nan
  else .fin s (2 ^ f.manBits + m) ((e : Int) - f.bias - f.manBits)

/-- The value an element code denotes, its block scale apart (R48, R51, R52, R54, R58, R59). -/
def decodeFmt (f : Fmt) (c : Nat) : NV :=
  match f with
  | .p4 => .fin (bit c 3) (p4Quarters (bits c 0 3)) (-2)
  | .i8 => .ofInt (signedOf 8 c)
  | .i32 => .ofInt (signedOf 32 c)
  | .e8 => .ofInt (c % 256 : Nat)
  | g => decodeLayout g c

/-- An element under its block scale: `v * 2^(e-127)`, and NaN for the whole block where `e` is FFh (R59, R61). -/
def applyScale (v : NV) (scale : Nat) : NV :=
  if scale = 255 then .nan
  else match v with
    | .fin n m e => .fin n m (e + (scale : Int) - 127)
    | w => w

/-- The P8A code a P4 code is expanded to (Table 3.3). -/
def expandP4 (c : Nat) : Nat :=
  let s := if bit c 3 then 128 else 0
  let k := bits c 0 3
  s + (match k with
    | 0 => 0
    | 1 => 0x30
    | _ => 8 * (k / 2 + 6) + 4 * (k % 2))

/-- The P19 code a P16 code is expanded to (R53). -/
def expandP16 (c : Nat) : Nat :=
  let s := if bit c 15 then 0x40000 else 0
  let e := bits c 8 7
  let m := bits c 0 8
  if e = 0 then s
  else if e = 127 then if m = 0 then s + 0x3FC00 else 0x3FE00
  else s + 1024 * (e + 64) + 4 * m

/-- The canonical NaN of a layout (Table 3.2, R54). -/
def Fmt.nanCode (f : Fmt) : Nat := (2 ^ f.expBits - 1) * 2 ^ f.manBits + 2 ^ (f.manBits - 1)

/-- The infinity of a sign in a layout. -/
def Fmt.infCode (f : Fmt) (neg : Bool) : Nat :=
  b2n neg * 2 ^ (f.expBits + f.manBits) + (2 ^ f.expBits - 1) * 2 ^ f.manBits

/-- The zero of a sign (R49; P4 has the zeros 0h and 8h). -/
def Fmt.zeroCode (f : Fmt) (neg : Bool) : Nat :=
  match f with
  | .p4 => if neg then 8 else 0
  | g => b2n neg * 2 ^ (g.expBits + g.manBits)

/-- The largest finite value of a sign (Table 3.2; P4: 3.0). -/
def Fmt.maxCode (f : Fmt) (neg : Bool) : Nat :=
  match f with
  | .p4 => if neg then 15 else 7
  | g => b2n neg * 2 ^ (g.expBits + g.manBits) + (2 ^ g.expBits - 2) * 2 ^ g.manBits + (2 ^ g.manBits - 1)

/-- The encoding of `n * 2^u` where `n` has `manBits + 1` significant bits or is the next power of two. -/
def encodeNormal (f : Fmt) (neg : Bool) (n : Nat) (u : Int) : Nat :=
  let c : Nat × Int := if n = 2 ^ (f.manBits + 1) then (2 ^ f.manBits, u + 1) else (n, u)
  b2n neg * 2 ^ (f.expBits + f.manBits)
    + (c.2 + f.manBits + f.bias).toNat % 2 ^ f.expBits * 2 ^ f.manBits + (c.1 - 2 ^ f.manBits)

/-- `a * 2^ea ≤ b * 2^eb`. -/
def dyLe (a : Nat) (ea : Int) (b : Nat) (eb : Int) : Bool :=
  if ea ≤ eb then decide (a ≤ b * 2 ^ (eb - ea).toNat) else decide (a * 2 ^ (ea - eb).toNat ≤ b)

/-- `a * 2^ea < b * 2^eb`. -/
def dyLt (a : Nat) (ea : Int) (b : Nat) (eb : Int) : Bool := !dyLe b eb a ea

/-- The exponent of the leading bit of `m * 2^e`, for `m > 0`. -/
def leadExp (m : Nat) (e : Int) : Int := (Nat.log2 m : Int) + e

/-- The sum of two signed dyadics as a signed integer at the smaller exponent. -/
def dyAdd (a : Int) (ea : Int) (b : Int) (eb : Int) : Int × Int :=
  if ea ≤ eb then (a + b * 2 ^ (eb - ea).toNat, ea) else (a * 2 ^ (ea - eb).toNat + b, eb)

/-- The signed integer of a sign and a magnitude. -/
def signedMag (neg : Bool) (m : Nat) : Int := if neg then -(m : Int) else m

/-- The order of two ordered values: -1, 0 or 1; `none` where either is NaN (R62: the zeros compare equal). -/
def NV.cmp : NV → NV → Option Ordering
  | .nan, _ => none
  | _, .nan => none
  | .inf a, .inf b => some (if a = b then .eq else if a then .lt else .gt)
  | .inf a, .fin _ _ _ => some (if a then .lt else .gt)
  | .fin _ _ _, .inf b => some (if b then .gt else .lt)
  | .fin na ma ea, .fin nb mb eb =>
    let a := signedMag na ma
    let b := signedMag nb mb
    let d := dyAdd a ea (-b) eb
    some (if d.1 < 0 then .lt else if d.1 = 0 then .eq else .gt)

/-- Maximum with NaN propagated and -0 below +0 (R63, Table 3.5). -/
def NV.max (a b : NV) : NV :=
  match NV.cmp a b with
  | none => .nan
  | some .lt => b
  | some .gt => a
  | some .eq => if a.neg then b else a

/-- Minimum with NaN propagated and -0 below +0 (R63, Table 3.5). -/
def NV.min (a b : NV) : NV :=
  match NV.cmp a b with
  | none => .nan
  | some .lt => a
  | some .gt => b
  | some .eq => if a.neg then a else b

/-- A piece of an FP32 split: flushed where it is nonzero and below `2^-126` (R55); the flag says so. -/
def splitPiece (neg : Bool) (m : Nat) (e : Int) : NV × Bool :=
  if m = 0 then (.fin neg 0 0, false)
  else if dyLt m e 1 (-126) then (.fin neg 0 0, true)
  else (.fin neg m e, false)

/-- One element of the 19-bit path: its three pieces, the non-finite mark (R57) and whether a piece was flushed. -/
structure Split where
  hi : NV
  mid : NV
  lo : NV
  marked : Bool
  flushed : Bool
  deriving DecidableEq, Repr

/-- The split of an element of the 19-bit path (R55 for FP32, R56 for P16 and P19, R57). -/
def splitElem (f : Fmt) (v : NV) : Split :=
  match v with
  | .nan => ⟨.nan, .zero, .zero, true, false⟩
  | .inf n => ⟨.inf n, .fin n 0 0, .fin n 0 0, true, false⟩
  | .fin n m e =>
    if f = .fp32 ∧ m ≠ 0 then
      let a := splitPiece n (m / 2 ^ 13) (e + 13)
      let b := splitPiece n (m / 4 % 2 ^ 11) (e + 2)
      let c := splitPiece n (m % 4) e
      ⟨a.1, b.1, c.1, false, a.2 || b.2 || c.2⟩
    else ⟨.fin n m e, .fin n 0 0, .fin n 0 0, false, false⟩

/-- Whether two formats may meet on the loom (Table 3.6). -/
def pairable (a b : Fmt) : Bool :=
  match a, b with
  | .p4, .p4 | .p4, .p8a | .p8a, .p4 | .p8a, .p8a | .p8b, .p8b => true
  | .p16, .p16 | .p16, .p19 | .p16, .fp32 | .p19, .p16 | .p19, .p19 | .p19, .fp32
  | .fp32, .p16 | .fp32, .p19 | .fp32, .fp32 => true
  | _, _ => false

/-- Element `i` of an array of format `f` held in `bs` (R47, R51). -/
def elemAt (f : Fmt) (bs : List Byte) (i : Nat) : Nat :=
  match f with
  | .p4 => bits (leAt bs (i / 2) 1) (4 * (i % 2)) 4
  | .p19 => leAt bs (4 * i) 4 % 2 ^ 19
  | g => leAt bs (g.unitBytes * i) g.unitBytes

/-- The bytes of an array of elements (R47; an odd P4 array writes zero in the last high nibble). -/
def packElems (f : Fmt) : List Nat → List Byte
  | [] => []
  | [a] => match f with
    | .p4 => [BitVec.ofNat 8 (a % 16)]
    | g => toBytes g.unitBytes a
  | a :: b :: rest => match f with
    | .p4 => BitVec.ofNat 8 (a % 16 + 16 * (b % 16)) :: packElems f rest
    | g => toBytes g.unitBytes a ++ packElems f (b :: rest)

end Sys2Proof.Machine
end

