-- ==== Sys2Proof/Machine/Flags.lean ====
section
/-! DEFINITION. Conversion, rounding and the numeric flags (chapter 4): the conversion control word, the
rounding modes, what each class of value becomes in each target, output scales and scale history. -/

namespace Sys2Proof.Machine

/-- One set of sticky numeric flags (R84). -/
structure NumFlags where
  ovf : Bool := false
  unf : Bool := false
  inexact : Bool := false
  invalid : Bool := false
  cancel : Bool := false
  deriving DecidableEq, Repr

/-- No flag. -/
def NumFlags.none : NumFlags := {}

/-- The union of two sets. -/
def NumFlags.or (a b : NumFlags) : NumFlags :=
  ⟨a.ovf || b.ovf, a.unf || b.unf, a.inexact || b.inexact, a.invalid || b.invalid, a.cancel || b.cancel⟩

/-- The five bits of Table 4.7: overflow, underflow, inexact, invalid, CANCEL from bit 0 up. -/
def NumFlags.toNat (f : NumFlags) : Nat :=
  b2n f.ovf + 2 * b2n f.unf + 4 * b2n f.inexact + 8 * b2n f.invalid + 16 * b2n f.cancel

/-- Overflow with inexact. -/
def NumFlags.overflow : NumFlags := { ovf := true, inexact := true }
/-- Underflow with inexact (R50). -/
def NumFlags.underflow : NumFlags := { unf := true, inexact := true }

/-- The rounding modes of R70. -/
inductive RMode where
  | nearest | zero | odd | stochastic
  deriving DecidableEq, Repr

/-- The conversion control word (R67, Table 4.2). -/
structure Cvt where
  fmt : Nat
  mode : Nat
  inter : Bool
  sat : Bool
  shist : Nat
  ssrc : Bool
  oscale : Nat
  reserved : Nat
  deriving DecidableEq, Repr

/-- The fields of a CVT word. -/
def Cvt.ofWord (x : Nat) : Cvt :=
  { fmt := bits x 0 4, mode := bits x 4 2, inter := bit x 6, sat := bit x 7, shist := bits x 8 4,
    ssrc := bit x 12, oscale := bits x 16 8, reserved := bits x 13 3 + bits x 24 8 }

/-- The rounding mode a CVT asks for: INTER rounds to odd whatever MODE holds (Table 4.2). -/
def Cvt.rmode (c : Cvt) : RMode :=
  if c.inter then .odd
  else match c.mode with
    | 0 => .nearest | 1 => .zero | 2 => .odd | _ => .stochastic

/-- Whether a CVT carries a tensor number and a base index (R68). -/
def Cvt.seeded (c : Cvt) : Bool := decide (c.rmode = .stochastic)

/-- The checks of R68, over the formats `ok` that Table 4.1 allows at the point. -/
def Cvt.valid (ok : Fmt → Bool) (c : Cvt) : Bool :=
  match Fmt.ofCode c.fmt with
  | none => false
  | some f =>
    ok f && decide (c.reserved = 0)
      && (if f.scaled then !(decide (c.oscale = 255) && !c.ssrc)
          else !c.ssrc && decide (c.oscale = 127))

/-- The 16 random bits of seeded stochastic rounding (R75). -/
def srBits (seed tensor index : Nat) : Nat :=
  let x := (seed ^^^ (tensor * 2 ^ 40 % 2 ^ 64)) ^^^ index % 2 ^ 64
  let x := (x ^^^ x / 2 ^ 31) * 0x6E3B9D27C1A58F43 % 2 ^ 64
  let x := (x ^^^ x / 2 ^ 27) * 0xD4F1827B39C6E05D % 2 ^ 64
  let x := x ^^^ x / 2 ^ 33
  bits x 48 16

/-- Whether a magnitude between two grid values goes to the upper one: `rem / den` is its place between them,
`st` a sticky addition below it (R71), `odd` the lowest kept bit of the lower value, `r` the random bits. -/
def roundUp (md : RMode) (odd : Bool) (rem den : Nat) (st : Bool) (r : Nat) : Bool :=
  let inexact := decide (rem ≠ 0) || st
  match md with
  | .nearest => decide (den < 2 * rem) || (decide (2 * rem = den) && (st || odd))
  | .zero => false
  | .odd => inexact && !odd
  | .stochastic => inexact && decide (2 ^ 16 ≤ rem * 2 ^ 16 / den + r)

/-- The quotient, the remainder and the divisor of `m * 2^e` over `2^u`. -/
def scaleTo (m : Nat) (e u : Int) : Nat × Nat × Nat :=
  if u ≤ e then (m * 2 ^ (e - u).toNat, 0, 1)
  else
    let d := 2 ^ (u - e).toNat
    (m / d, m % d, d)

/-- Rounding of `m * 2^e` (`m > 0`) to `sig` significant bits with the exponent unbounded (R69):
the rounded significand, its exponent, and whether it is inexact. -/
def roundSig (sig : Nat) (md : RMode) (m : Nat) (e : Int) (st : Bool) (r : Nat) : Nat × Int × Bool :=
  let u := leadExp m e - ((sig : Int) - 1)
  let q := scaleTo m e u
  let up := roundUp md (decide (q.1 % 2 = 1)) q.2.1 q.2.2 st r
  (q.1 + b2n up, u, decide (q.2.1 ≠ 0) || st)

/-- What an overflowing finite value becomes (Table 4.3, R79). -/
def overflowCode (f : Fmt) (c : Cvt) (neg : Bool) : Nat :=
  if f = .p4 then f.maxCode neg
  else if c.sat then f.maxCode neg
  else if c.rmode = .nearest then f.infCode neg
  else f.maxCode neg

/-- The place of a magnitude on the P4 grid (R69): the index of the grid value at or below it, the remainder
above it and the width of the step, both over the same divisor; magnitudes of 4 and above have no place. -/
def p4Place (m : Nat) (e : Int) : Option (Nat × Nat × Nat) :=
  let q := scaleTo m e (-2)
  if 16 ≤ q.1 then none
  else
    let i := if q.1 < 4 then q.1 else if q.1 < 6 then 4 else if q.1 < 8 then 5 else if q.1 < 12 then 6 else 7
    some (i, (q.1 - p4Quarters i) * q.2.2 + q.2.1, (p4Quarters (i + 1) - p4Quarters i) * q.2.2)

/-- A finite nonzero value into P4 (R69 to R73, Table 4.4). -/
def convertP4 (c : Cvt) (neg : Bool) (m : Nat) (e : Int) (st : Bool) (r : Nat) : Nat × NumFlags :=
  match p4Place m e with
  | none => (Fmt.p4.maxCode neg, .overflow)
  | some (i, rem, den) =>
    let inexact := decide (rem ≠ 0) || st
    let j := i + b2n (roundUp c.rmode (decide (i % 2 = 1)) rem den st r)
    let tooBig := if c.rmode = .nearest then decide (7 < j) else decide (i = 7) && inexact
    if tooBig then (Fmt.p4.maxCode neg, .overflow)
    else if j = 0 then (Fmt.p4.zeroCode neg, .underflow)
    else (8 * b2n neg + j, { inexact := inexact })

/-- A finite nonzero value into P8A, P8B, P16, P19 or FP32 (R69 to R73, Table 4.4). -/
def convertLayout (f : Fmt) (c : Cvt) (neg : Bool) (m : Nat) (e : Int) (st : Bool) (r : Nat) : Nat × NumFlags :=
  let x := roundSig (f.manBits + 1) c.rmode m e st r
  let maxE : Int := 2 ^ f.expBits - 2 - f.bias - f.manBits
  let maxM : Nat := 2 ^ (f.manBits + 1) - 1
  let tooBig :=
    if c.rmode = .nearest then dyLt maxM maxE x.1 x.2.1
    else dyLt maxM maxE m e || (dyLe maxM maxE m e && st)
  if tooBig then (overflowCode f c neg, .overflow)
  else if dyLt x.1 x.2.1 1 (1 - f.bias) then (f.zeroCode neg, .underflow)
  else (encodeNormal f neg x.1 x.2.1, { inexact := x.2.2 })

/-- A rounded conversion into a floating target (R76, Table 4.4), the value already divided by the output scale. -/
def convertFloat (f : Fmt) (c : Cvt) (v : NV) (st : Bool) (r : Nat) : Nat × NumFlags :=
  match v with
  | .nan => if f = .p4 then (0, { invalid := true }) else (f.nanCode, .none)
  | .inf n => if f = .p4 then (f.maxCode n, { invalid := true }) else (f.infCode n, .none)
  | .fin n 0 _ => (f.zeroCode n, .none)
  | .fin n (m + 1) e => if f = .p4 then convertP4 c n (m + 1) e st r else convertLayout f c n (m + 1) e st r

/-- A value divided by the output block scale `2^(e-127)` (R69). -/
def divideScale (v : NV) (scale : Nat) : NV :=
  match v with
  | .fin n m e => .fin n m (e - ((scale : Int) - 127))
  | w => w

/-- An FP32 lane to an I32 lane (R77). -/
def floatToI32 (md : RMode) (v : NV) (r : Nat) : Int × NumFlags :=
  match v with
  | .nan => (0, { invalid := true })
  | .inf n => (if n then -2147483648 else 2147483647, { invalid := true })
  | .fin n m e =>
    let q := scaleTo m e 0
    let up := roundUp md (decide (q.1 % 2 = 1)) q.2.1 q.2.2 false r
    let i := signedMag n (q.1 + b2n up)
    let inexact := decide (q.2.1 ≠ 0)
    if i < -2147483648 then (-2147483648, { invalid := true, inexact := inexact })
    else if 2147483647 < i then (2147483647, { invalid := true, inexact := inexact })
    else (i, { inexact := inexact })

/-- The conversion word of plain nearest-even FP32 arithmetic. -/
def Cvt.fp32Nearest : Cvt :=
  { fmt := 5, mode := 0, inter := false, sat := false, shist := 0, ssrc := false, oscale := 127, reserved := 0 }

/-- A value rounded to nearest even into FP32. -/
def roundFp32 (v : NV) : Nat × NumFlags := convertFloat .fp32 .fp32Nearest v false 0

/-- An I32 lane to I8, I32 or E8, clamping with invalid (R78). -/
def storeInt (f : Fmt) (i : Int) : Nat × NumFlags :=
  match f with
  | .i8 => let j := clampSigned 8 i; (unsignedOf 8 j, { invalid := decide (j ≠ i) })
  | .e8 => let j := max 0 (min i 255); (j.toNat, { invalid := decide (j ≠ i) })
  | _ => (unsignedOf 32 i, .none)

/-- One scale-history register (Table 4.5). -/
structure SHist where
  maxE : Int := 0
  maxM : Nat := 0
  nonfin : Bool := false
  valid : Bool := false
  deriving DecidableEq, Repr

/-- A scale-history register as its word of Table 4.5. -/
def SHist.toNat (h : SHist) : Nat :=
  unsignedOf 11 h.maxE + 2 ^ 11 * h.maxM + 2 ^ 21 * b2n h.nonfin + 2 ^ 22 * b2n h.valid

/-- The word of Table 4.5 as a scale-history register. -/
def SHist.ofNat (x : Nat) : SHist :=
  { maxE := signedOf 11 (bits x 0 11), maxM := bits x 11 10, nonfin := bit x 21, valid := bit x 22 }

/-- One recorded magnitude: the largest since the last clear, truncated to 11 significant bits (R81). -/
def SHist.record (h : SHist) (v : NV) : SHist :=
  match v with
  | .fin _ 0 _ => h
  | .fin _ (m + 1) e =>
    let x := leadExp (m + 1) e
    let f := (scaleTo (m + 1) e (x - 10)).1 - 1024
    if !h.valid || h.maxE < x || (h.maxE = x && h.maxM < f) then { h with maxE := x, maxM := f, valid := true }
    else h
  | _ => { h with nonfin := true }

/-- The largest magnitude of a scaled target, as quarters (R82: 3, 120 or 28,672). -/
def largestQuarters : Fmt → Nat
  | .p4 => 12 | .p8a => 480 | _ => 114688

/-- The upward walk of `select_scale` (R82). -/
def scaleUp (um : Nat) (ue : Int) (l : Nat) : Nat → Nat → Nat
  | 0, e => e
  | k + 1, e => if e < 254 && dyLt l ((e : Int) - 129) um ue then scaleUp um ue l k (e + 1) else e

/-- The downward walk of `select_scale` (R82). -/
def scaleDown (um : Nat) (ue : Int) (l : Nat) : Nat → Nat → Nat
  | 0, e => e
  | k + 1, e => if 0 < e && dyLe um ue l ((e : Int) - 130) then scaleDown um ue l k (e - 1) else e

/-- The output scale derived from a scale-history register (R82). -/
def selectScale (h : SHist) (f : Fmt) : Nat :=
  if !h.valid then 127
  else
    let um := 1025 + h.maxM
    let ue := h.maxE - 10
    let l := largestQuarters f
    scaleDown um ue l 255 (scaleUp um ue l 128 127)

/-- Whether a conversion into `f` records scale history (R81). -/
def Fmt.records : Fmt → Bool
  | .p4 | .p8a | .p8b | .p16 => true
  | _ => false

/-- The scale a conversion into `f` uses and writes (R80). -/
def Cvt.outScale (c : Cvt) (f : Fmt) (h : SHist) : Nat :=
  if f.scaled then if c.ssrc then selectScale h f else c.oscale else 127

end Sys2Proof.Machine
end

