-- ==== Sys2Proof/Machine/Accum.lean ====
section
/-! DEFINITION. Anchored accumulation (chapters 5 and 6): natural anchors, the sweeps of a pass level, the cell and
how products enter it, the drain's stages, the wide partial record and the sum of records. -/

namespace Sys2Proof.Machine

/-- The special state of a cell (Table 6.1). -/
inductive Spec where
  | none | posInf | negInf | nan
  deriving DecidableEq, Repr

/-- The SPEC code of Table 6.1. -/
def Spec.code : Spec → Nat
  | .none => 0 | .posInf => 1 | .negInf => 2 | .nan => 3

/-- The special state of a SPEC code. -/
def Spec.ofCode : Nat → Spec
  | 0 => .none | 1 => .posInf | 2 => .negInf | _ => .nan

/-- The join of special states (Table 6.4). -/
def Spec.join : Spec → Spec → Spec
  | .none, s => s
  | s, .none => s
  | .posInf, .posInf => .posInf
  | .negInf, .negInf => .negInf
  | _, _ => .nan

/-- One accumulator cell (Table 6.1). -/
structure Cell where
  v : Int
  spec : Spec
  sticky : Bool
  anz : Bool
  deriving DecidableEq, Repr

/-- A cleared cell (R110). -/
def Cell.clear : Cell := ⟨0, .none, false, true⟩

/-- A finite product of magnitude `m * 2^e` entering a cell with anchor `a` (R114, R117). -/
def Cell.addFinite (c : Cell) (a : Int) (neg : Bool) (m : Nat) (e : Int) : Cell :=
  if m = 0 then { c with anz := c.anz && neg }
  else
    let q := scaleTo m e (a - 48)
    { c with v := c.v + signedMag neg q.1, sticky := c.sticky || decide (q.2.1 ≠ 0), anz := false }

/-- A special product entering a cell (R116, R117). -/
def Cell.addSpecial (c : Cell) (s : Spec) : Cell := { c with spec := c.spec.join s, anz := false }

/-- One product entering a cell, and whether it is of an infinity and a zero (R114 to R118). -/
def Cell.addProduct (c : Cell) (a : Int) (x y : NV) : Cell × Bool :=
  match x, y with
  | .nan, _ => (c.addSpecial .nan, false)
  | _, .nan => (c.addSpecial .nan, false)
  | .fin nx mx ex, .fin ny my ey => (c.addFinite a (nx != ny) (mx * my) (ex + ey), false)
  | .inf nx, .inf ny => (c.addSpecial (if nx != ny then .negInf else .posInf), false)
  | .inf nx, .fin ny m _ =>
    if m = 0 then (c.addSpecial .nan, true) else (c.addSpecial (if nx != ny then .negInf else .posInf), false)
  | .fin nx m _, .inf ny =>
    if m = 0 then (c.addSpecial .nan, true) else (c.addSpecial (if nx != ny then .negInf else .posInf), false)

/-- The pieces of an element (R55). -/
inductive Piece where
  | hi | mid | lo
  deriving DecidableEq, Repr

/-- A piece of a split element. -/
def Split.get (s : Split) : Piece → NV
  | .hi => s.hi | .mid => s.mid | .lo => s.lo

/-- An element of the 8-bit path: one piece, marked where it is not finite. -/
def Split.ofScaled (v : NV) : Split := ⟨v, .fin v.neg 0 0, .fin v.neg 0 0, !v.finite, false⟩

/-- The sweeps of a pass level in order (Table 5.3); levels are coded as PASS codes them. -/
def sweepsOf : Nat → List (Piece × Piece)
  | 0 => [(.hi, .hi)]
  | 1 => [(.hi, .hi), (.hi, .mid), (.mid, .hi)]
  | _ => [(.hi, .hi), (.hi, .mid), (.mid, .hi), (.mid, .mid), (.hi, .lo), (.lo, .hi)]

/-- Every pair of pieces. -/
def allPairs : List (Piece × Piece) :=
  [(.hi, .hi), (.hi, .mid), (.hi, .lo), (.mid, .hi), (.mid, .mid), (.mid, .lo), (.lo, .hi), (.lo, .mid), (.lo, .lo)]

/-- Whether an operand format fixes a piece at zero (R101). -/
def pieceFixed (f : Fmt) (p : Piece) : Bool := decide (f ≠ .fp32) && decide (p ≠ .hi)

/-- The sweeps a command runs: those of its level that are not skipped (R101, Table 5.4). -/
def runSweeps (level : Nat) (fa fb : Fmt) : List (Piece × Piece) :=
  (sweepsOf level).filter (fun p => !pieceFixed fa p.1 && !pieceFixed fb p.2)

/-- One sweep's product for one reduction index (R57: a marked element adds nothing outside hi × hi). -/
def Cell.sweep (a : Int) (x y : Split) (c : Cell × Bool) (p : Piece × Piece) : Cell × Bool :=
  if p ≠ (.hi, .hi) ∧ (x.marked || y.marked) then c
  else
    let r := c.1.addProduct a (x.get p.1) (y.get p.2)
    (r.1, c.2 || r.2)

/-- Whether the level leaves out a product of two nonzero pieces (R115). -/
def omitsProduct (level : Nat) (x y : Split) : Bool :=
  !x.marked && !y.marked &&
    allPairs.any (fun p => !(sweepsOf level).contains p && !(x.get p.1).isZero && !(y.get p.2).isZero)

/-- All products of one reduction index (R88, R100, R115). -/
def Cell.index (level : Nat) (sw : List (Piece × Piece)) (a : Int) (c : Cell × Bool) (xy : Split × Split) : Cell × Bool :=
  let r := sw.foldl (Cell.sweep a xy.1 xy.2) c
  ({ r.1 with sticky := r.1.sticky || omitsProduct level xy.1 xy.2 }, r.2)

/-- One cell of a matrix command: the sum over the reduction range (R88), and whether ∞ × 0 was met (R118). -/
def Cell.dot (level : Nat) (sw : List (Piece × Piece)) (a : Int) (xs ys : List Split) : Cell × Bool :=
  (xs.zip ys).foldl (Cell.index level sw a) (Cell.clear, false)

/-- The element allowance W of a path (Table 6.2): 0 P8A, 1 P8B, 2 the 19-bit path. -/
def allowance : Nat → Int
  | 0 => 14 | 1 => 30 | _ => 2

/-- The range of row and column anchors of a path (Table 6.2). -/
def anchorInRange (path : Nat) (r : Int) : Bool :=
  decide ((if path = 2 then -126 else -127) ≤ r) && decide (r ≤ 127)

/-- The natural anchor from block scales (R97, 8-bit path). -/
def anchor8 (scales : List Nat) : Int :=
  (scales.filter (fun e => decide (e ≠ 255))).foldl (fun a e => max a ((e : Int) - 127)) (-127)

/-- The natural anchor from elements (R97, 19-bit path). -/
def anchor19 (vs : List NV) : Int :=
  vs.foldl (fun a v => match v with
    | .fin _ (m + 1) e => max a (leadExp (m + 1) e)
    | _ => a) (-126)

/-- A tile of cells with its anchors, as a record holds them (Tables 6.1 and 6.9). -/
structure WideTile where
  path : Nat
  fa : Bool
  pass : Nat
  cells : List Cell
  r : List Int
  c : List Int
  deriving DecidableEq, Repr

/-- The anchor of cell `n = 32 i + j` (R112). -/
def WideTile.anchor (t : WideTile) (n : Nat) : Int :=
  nthD t.r (n / 32) 0 + nthD t.c (n % 32) 0 + allowance t.path

/-- The product phase over a whole tile (R88): the cells, and whether ∞ × 0 was met. -/
def multiply (path level : Nat) (fa fb : Fmt) (forced : Bool) (r c : List Int) (a b : List (List Split)) : WideTile × Bool :=
  let sw := if path = 2 then runSweeps level fa fb else [(.hi, .hi)]
  let z := (List.range 1024).map (fun n =>
    Cell.dot level sw (nthD r (n / 32) 0 + nthD c (n % 32) 0 + allowance path) (nthD a (n / 32) []) (nthD b (n % 32) []))
  (⟨path, forced, level, z.map (·.1), r, c⟩, z.any (·.2))

/-- The value of a cell, sticky apart (R119). -/
def Cell.value (c : Cell) (a : Int) : NV :=
  match c.spec with
  | .posInf => .inf false
  | .negInf => .inf true
  | .nan => .nan
  | .none => if c.v = 0 then .fin c.anz 0 0 else .fin (decide (c.v < 0)) c.v.natAbs (a - 48)

/-- The CANCEL test (R120). -/
def Cell.cancels (c : Cell) : Bool := decide (c.spec = .none) && c.sticky && decide (c.v.natAbs < 256)

/-- Rounding to odd into the drain's working format of 26 significant bits (R121). An inexact zero goes, by R70, to the next
grid value up, the smallest of the format, 2^-1023 (log entry 57). -/
def toWorking (st : Bool) : NV → NV
  | .fin n (m + 1) e => let x := roundSig 26 .odd (m + 1) e st 0; .fin n x.1 x.2.1
  | .fin n 0 e => if st then .fin n 1 (-1023) else .fin n 0 e
  | v => v

/-- An exact product (R64, R122), and whether it is ∞ × 0. -/
def NV.mul (x y : NV) : NV × Bool :=
  match x, y with
  | .nan, _ => (.nan, false)
  | _, .nan => (.nan, false)
  | .fin nx mx ex, .fin ny my ey => (.fin (nx != ny) (mx * my) (ex + ey), false)
  | .inf nx, .inf ny => (.inf (nx != ny), false)
  | .inf nx, .fin ny m _ => if m = 0 then (.nan, true) else (.inf (nx != ny), false)
  | .fin nx m _, .inf ny => if m = 0 then (.nan, true) else (.inf (nx != ny), false)

/-- An exact sum (R64), and whether it is ∞ − ∞. -/
def NV.add (x y : NV) : NV × Bool :=
  match x, y with
  | .nan, _ => (.nan, false)
  | _, .nan => (.nan, false)
  | .inf a, .inf b => if a = b then (.inf a, false) else (.nan, true)
  | .inf a, .fin _ _ _ => (.inf a, false)
  | .fin _ _ _, .inf b => (.inf b, false)
  | .fin na ma ea, .fin nb mb eb =>
    let s := dyAdd (signedMag na ma) ea (signedMag nb mb) eb
    if s.1 = 0 then (.fin (na && nb && decide (ma = 0) && decide (mb = 0)) 0 0, false)
    else (.fin (decide (s.1 < 0)) s.1.natAbs s.2, false)

/-- The negation of a value. -/
def NV.negate : NV → NV
  | .nan => .nan
  | .inf n => .inf (!n)
  | .fin n m e => .fin (!n) m e

/-- The drain descriptor (Table 6.6). -/
structure DrainDesc where
  raw : Nat
  deriving DecidableEq, Repr

/-- The fields of Table 6.6. -/
def DrainDesc.scEn (d : DrainDesc) : Bool := bit d.raw 0
def DrainDesc.scAx (d : DrainDesc) : Bool := bit d.raw 1
def DrainDesc.biEn (d : DrainDesc) : Bool := bit d.raw 2
def DrainDesc.biAx (d : DrainDesc) : Bool := bit d.raw 3
def DrainDesc.tr (d : DrainDesc) : Bool := bit d.raw 4
def DrainDesc.obs (d : DrainDesc) : Bool := bit d.raw 5
def DrainDesc.act (d : DrainDesc) : Nat := bits d.raw 8 4
def DrainDesc.leakN (d : DrainDesc) : Nat := bits d.raw 12 4
def DrainDesc.tensor (d : DrainDesc) : Nat := bits d.raw 16 16
def DrainDesc.cvt (d : DrainDesc) : Cvt := Cvt.ofWord (bits d.raw 32 32)
def DrainDesc.outBase (d : DrainDesc) : Nat := bits d.raw 64 20
def DrainDesc.outStr (d : DrainDesc) : Nat := bits d.raw 84 16
def DrainDesc.oscBase (d : DrainDesc) : Nat := bits d.raw 104 20
def DrainDesc.oscStr (d : DrainDesc) : Nat := bits d.raw 128 12
def DrainDesc.baseIdx (d : DrainDesc) : Nat := bits d.raw 144 40
def DrainDesc.scBase (d : DrainDesc) : Nat := bits d.raw 192 20
def DrainDesc.biBase (d : DrainDesc) : Nat := bits d.raw 224 20
def DrainDesc.clampLo (d : DrainDesc) : Nat := bits d.raw 256 32
def DrainDesc.clampHi (d : DrainDesc) : Nat := bits d.raw 288 32
/-- The reserved bits of Table 6.6, added up. -/
def DrainDesc.reserved (d : DrainDesc) : Nat :=
  bits d.raw 6 2 + bits d.raw 100 4 + bits d.raw 124 4 + bits d.raw 140 4 + bits d.raw 184 8
    + bits d.raw 212 12 + bits d.raw 244 12 + bits d.raw 320 192
/-- The output block size (R123). -/
def DrainDesc.bso (d : DrainDesc) : Nat := if d.obs then 32 else 16
/-- The target format; P4 stands in where the code is no floating format, which R124 refuses. -/
def DrainDesc.fmt (d : DrainDesc) : Fmt := (Fmt.ofCode d.cvt.fmt).getD .p4

/-- The fields of one PWQ table (Table 6.8). -/
def pwqNseg (t : List Byte) : Nat := leAt t 520 1
/-- Breakpoint of a segment. -/
def pwqB (t : List Byte) (s : Nat) : NV := decodeFmt .fp32 (leAt t (16 * s) 4)
/-- Coefficient `k` of a segment. -/
def pwqC (t : List Byte) (s k : Nat) : NV := decodeFmt .fp32 (leAt t (16 * s + 4 + 4 * k) 4)

/-- Whether a table is present and well formed (R127). -/
def pwqUsable (t : List Byte) : Bool :=
  let n := pwqNseg t
  decide (0 < n) && decide (n ≤ 32)
    && (List.range (n - 1)).all (fun i => decide (NV.cmp (pwqB t i) (pwqB t (i + 1)) = some .lt))
    && (List.range n).all (fun s => (pwqB t s).finite && (List.range 3).all (fun k => (pwqC t s k).finite))
    && decide (decodeFmt .fp32 (leAt t 512 4) ≠ .nan) && decide (decodeFmt .fp32 (leAt t 516 4) ≠ .nan)
    && decide (leAt t 521 7 = 0)

/-- The segment of a finite value (R126). -/
def pwqSegment (t : List Byte) (x : NV) : Nat :=
  ((List.range (pwqNseg t)).filter (fun i => decide (NV.cmp (pwqB t i) x ≠ some .gt))).foldl max 0

/-- A working sum and a working product (R126). -/
def wAdd (x y : NV) : NV := toWorking false (NV.add x y).1
/-- A product rounded to odd in the working format. -/
def wMul (x y : NV) : NV := toWorking false (NV.mul x y).1

/-- A piecewise-quadratic table at a working value (R126). -/
def pwqEval (t : List Byte) (x : NV) : NV :=
  match x with
  | .nan => .nan
  | .inf true => decodeFmt .fp32 (leAt t 512 4)
  | .inf false => decodeFmt .fp32 (leAt t 516 4)
  | .fin _ _ _ =>
    let s := pwqSegment t x
    let d := wAdd x (pwqB t s).negate
    wAdd (wMul (wAdd (wMul d (pwqC t s 2)) (pwqC t s 1)) d) (pwqC t s 0)

/-- The activation of a working value (R125, Table 6.7). -/
def activate (d : DrainDesc) (pwq : Nat → List Byte) (x : NV) : NV :=
  if d.act = 0 then x
  else if d.act = 1 then NV.max x .zero
  else if d.act = 2 then
    match x with
    | .fin true (m + 1) e => .fin true (m + 1) (e - d.leakN)
    | v => v
  else if d.act = 3 then NV.min (NV.max x (decodeFmt .fp32 d.clampLo)) (decodeFmt .fp32 d.clampHi)
  else pwqEval (pwq (d.act - 8)) x

/-- The drain's value before the final conversion, the sticky that conversion takes (R71), whether it sets inexact
for a sticky zero (R119, R122), and invalid from forming q (R121, R122). -/
structure Drained where
  x : NV
  st : Bool
  stickyZero : Bool
  invalid : Bool
  deriving DecidableEq, Repr

/-- Scale, bias and activation of one cell (R121, R122); `s` and `b` are its scale and bias elements. -/
def drainStages (d : DrainDesc) (pwq : Nat → List Byte) (c : Cell) (a : Int) (s b : NV) : Drained :=
  let v := c.value a
  let sz := c.sticky && v.isZero
  if !d.scEn && !d.biEn && d.act = 0 then ⟨v, c.sticky && decide (c.spec = .none) && !v.isZero, sz, false⟩
  else
    let vs := if d.scEn then NV.mul v s else (v, false)
    let q := if d.biEn then NV.add vs.1 b else (vs.1, false)
    let st := c.sticky && decide (c.spec = .none) && !vs.1.isZero && vs.1.finite
    ⟨activate d pwq (toWorking st q.1), false, sz, vs.2 || q.2⟩

/-- One drained element: its code, its flags, and the value scale history records (R121, R128, R81). DESIGN CHOICE (log
entry 69): an element index past 40 bits, which R75 does not speak of, is taken modulo 2^40. -/
def drainCell (d : DrainDesc) (pwq : Nat → List Byte) (seed scale : Nat) (c : Cell) (a : Int) (s b : NV) (n : Nat) :
    Nat × NumFlags × NV :=
  let g := drainStages d pwq c a s b
  let r := if d.cvt.seeded then srBits seed d.tensor ((d.baseIdx + n) % 2 ^ 40) else 0
  let x := convertFloat d.fmt d.cvt (divideScale g.x scale) g.st r
  (x.1, x.2.or { inexact := g.stickyZero, invalid := g.invalid, cancel := c.cancels }, g.x)

/-- The side nibble of a cell (Table 6.9). -/
def Cell.side (c : Cell) : Nat := c.spec.code + 4 * b2n c.sticky + 8 * b2n c.anz

/-- The bytes of side nibbles, two to a byte. -/
def packNibbles : List Nat → List Byte
  | a :: b :: r => BitVec.ofNat 8 (a + 16 * b) :: packNibbles r
  | [a] => [BitVec.ofNat 8 a]
  | [] => []

/-- A record: KIND 01h with 64-bit cells (R129) or 02h with 96-bit cells (R130). -/
def WideTile.encode (kind : Nat) (t : WideTile) : List Byte :=
  let w := if kind = 2 then 12 else 8
  [BitVec.ofNat 8 kind, BitVec.ofNat 8 t.path, BitVec.ofNat 8 (allowance t.path).toNat,
    BitVec.ofNat 8 (b2n t.fa + 2 * t.pass)] ++ List.replicate 60 0
    ++ (t.cells.map (fun c => toBytes w (unsignedOf (8 * w) c.v))).flatten
    ++ packNibbles (t.cells.map Cell.side)
    ++ (t.r.map (fun r => toBytes 2 (unsignedOf 16 r))).flatten
    ++ (t.c.map (fun c => toBytes 2 (unsignedOf 16 c))).flatten

/-- The length of a record of a kind: 8,896 bytes, and 12,992 for an extended one. -/
def recordBytes (kind : Nat) : Nat := if kind = 2 then 12992 else 8896

/-- The cell `n` of a record. -/
def recordCell (bs : List Byte) (n : Nat) : Cell :=
  let w := if leAt bs 0 1 = 2 then 12 else 8
  let side := bits (leAt bs (64 + 1024 * w + n / 2) 1) (4 * (n % 2)) 4
  ⟨signedOf (8 * w) (leAt bs (64 + w * n) w), Spec.ofCode (side % 4), bit side 2, bit side 3⟩

/-- The tile a record holds. -/
def WideTile.decode (bs : List Byte) : WideTile :=
  let w := if leAt bs 0 1 = 2 then 12 else 8
  let anchors := bs.drop (64 + 1024 * w + 512)
  { path := leAt bs 1 1, fa := bit (leAt bs 3 1) 0, pass := bits (leAt bs 3 1) 1 2,
    cells := (List.range 1024).map (recordCell bs),
    r := (List.range 32).map (fun i => signedOf 16 (leAt anchors (2 * i) 2)),
    c := (List.range 32).map (fun j => signedOf 16 (leAt anchors (64 + 2 * j) 2)) }

/-- Whether a record is one a sum takes (R131); the reserved bits of RFLAGS count as reserved. -/
def recordValid (bs : List Byte) : Bool :=
  let t := WideTile.decode bs
  (decide (leAt bs 0 1 = 1) || decide (leAt bs 0 1 = 2)) && decide (t.path ≤ 2)
    && decide ((leAt bs 2 1 : Int) = allowance t.path) && decide (leAt bs 3 1 / 8 = 0) && decide (leAt bs 4 60 = 0)
    && t.r.all (anchorInRange t.path) && t.c.all (anchorInRange t.path)

/-- The largest of a list of anchors. -/
def maxAnchor : List Int → Int
  | [] => 0
  | a :: as => as.foldl max a

/-- One record's cell entering the sum under the common anchors: `s` is the shift of R131. -/
def Cell.joinRecord (acc c : Cell) (s : Int) : Cell :=
  { v := acc.v + c.v / 2 ^ s.toNat
    spec := acc.spec.join c.spec
    sticky := acc.sticky || decide (c.v % 2 ^ s.toNat ≠ 0) || c.sticky
    anz := acc.anz && c.anz }

/-- The range test of a completed sum (R131). -/
def Cell.sumRange (c : Cell) : Cell × Bool :=
  if c.v < 2 ^ 95 ∧ -(2 ^ 95) ≤ c.v then (c, false)
  else ({ c with v := 0, spec := c.spec.join (if c.v < 0 then .negInf else .posInf) }, true)

/-- The sum of cell `n` over records under the anchors `r`, `c` (R131). -/
def sumCell (ts : List WideTile) (r c : List Int) (n : Nat) : Cell × Bool :=
  (ts.foldl (fun acc t => acc.joinRecord (nthD t.cells n Cell.clear)
    ((nthD r (n / 32) 0 - nthD t.r (n / 32) 0) + (nthD c (n % 32) 0 - nthD t.c (n % 32) 0))) Cell.clear).sumRange

/-- The sum of wide partials (R131), and whether a cell overflowed. -/
def sumPartials (ts : List WideTile) : WideTile × Bool :=
  let r := (List.range 32).map (fun i => maxAnchor (ts.map (fun t => nthD t.r i 0)))
  let c := (List.range 32).map (fun j => maxAnchor (ts.map (fun t => nthD t.c j 0)))
  let z := (List.range 1024).map (sumCell ts r c)
  (⟨(ts.head?.map (·.path)).getD 0, ts.all (·.fa), 0, z.map (·.1), r, c⟩, z.any (·.2))

end Sys2Proof.Machine
end

