-- ==== Sys2Proof/Machine/Types.lean ====
section
/-! DEFINITION. The records the state is made of: packets, commands past fetch, parts, arrivals and streams. -/

namespace Sys2Proof.Machine

/-- A packet: the header of Table 10.2 and the payload of a data packet. `resv` is the sum of the reserved bits. -/
structure Packet where
  typ : Nat
  epoch : Nat := 0
  vc : Nat := 0
  phase : Nat := 0
  esc : Bool := false
  mcast : Bool := false
  maxis : Bool := false
  ackreq : Bool := false
  resv : Nat := 0
  len : Nat := 0
  tally : Nat := 0
  mlast : Nat := 0
  status : Nat := 0
  hops : Nat := 0
  inter : Nat := 0
  seq : Nat := 0
  part : Nat := 0
  arg : Nat := 0
  dst : Nat := 0
  src : Nat := 0
  payload : List Byte := []
  deriving DecidableEq, Repr

/-- Where a command stands between its fetch and its completion (R199, R210). -/
inductive CPhase where
  | fetched | waitTally | ready | run | done
  deriving DecidableEq, Repr

/-- A wait of a local command on a slot tag (R165): the slot of its tile, and whether it waits to write. -/
structure TagWait where
  slot : Nat
  write : Bool
  deriving DecidableEq, Repr

/-- One part of a split command (R211, R283): its number, its request as issued, when it was first issued, how often
it was reissued, where its data lands, and its status once it has one. COPY reads (`stage` 0), then writes (1). -/
structure Part where
  k : Nat
  stage : Nat := 0
  pkt : Packet
  first : Nat := 0
  tries : Nat := 0
  loc : Nat := 0
  status : Option Nat := none
  deriving DecidableEq, Repr

/-- One row of a chain pass: each stage's output and its active lanes. -/
structure RowTrace where
  outs : List (List Nat)
  act : List (List Bool)
  deriving DecidableEq, Repr

/-- Progress of a matrix command in its array (R97, R103, R104): `stage` is 0 before its anchor phase, 1 in it, 2 with it
complete, 3 in its product phase, 4 in its unload and 5 in its drain. Beside it the drain descriptor and its vectors as
read, the scales and the anchors of rows, then columns, the reduction index at which its product phase waits, and its
accumulators once formed. -/
structure LoomRun where
  stage : Nat := 0
  desc : Nat := 0
  sc : List Byte := []
  bi : List Byte := []
  scales : List (List Byte) := []
  anchors : List Int := []
  kpos : Nat := 0
  tile : Option WideTile := none
  deriving DecidableEq, Repr

/-- Bytes that a read of a command has reached within one slot while it waits on another (R165): the command, as its queue
code and count, the place and the bytes. -/
structure Seen where
  cmd : Nat × Nat
  addr : Nat
  bytes : List Byte
  deriving DecidableEq, Repr

/-- A command past fetch: the queue it came from and its count, its 32 bytes, and its progress. -/
structure Cmd where
  unit : Nat
  q : Nat
  idx : Nat
  word : Nat
  /-- The address its record goes to (chiplet-level queues, R275). -/
  recAddr : Nat := 0
  phase : CPhase := .fetched
  /-- The in-flight slot, from its start. -/
  slot : Nat := 0
  started : Bool := false
  status : Nat := 0
  /-- Skips counted and the mark of the current window (R200). -/
  skips : Nat := 0
  skipped : Bool := false
  /-- MEM_Q and MEM_BANKMAP as its head-of-queue checks saw them (R160, R163). -/
  memq : Nat := 0
  bmap : Nat := 0
  wait : Option TagWait := none
  /-- Slots read in consuming regions, slots claimed, and claimed slots written into (R166). -/
  reads : List Nat := []
  claims : List Nat := []
  wrote : List Nat := []
  /-- Past its commit point (R107, R153). -/
  committed : Bool := false
  /-- Bytes still to be written, by tile-memory address. -/
  out : List (Nat × Byte) := []
  /-- The rows a chain pass has finished, and the bytes its own stores replaced (R141). -/
  rows : List RowTrace := []
  oldMem : List (Nat × Byte) := []
  oldCache : List (Nat × Byte) := []
  /-- Scale-history registers and SEQ_NFLAGS as they stood at its start (R82, R208). -/
  shist : List Word := []
  nflags : Nat := 0
  /-- How far a matrix command has come. -/
  loom : LoomRun := {}
  /-- The flags and scale-history records it has raised and not yet shown (R84, R85, R81). -/
  flags : Nat := 0
  hist : List (Nat × Nat) := []
  /-- The number of parts (R192), the gather list, the parts issued, and AUX of Table 9.5. -/
  p : Nat := 1
  gather : List Nat := []
  parts : List Part := []
  aux : Nat := 0
  /-- Whether its parts were ended by an abort before issue (R213). -/
  cut : Bool := false
  /-- LWB, LINV and LPF: the lines taken so far, and the first refused line by line order with its status (R286). -/
  cursor : Nat := 0
  lineBad : Option (Nat × Nat) := none
  deriving DecidableEq, Repr

/-- The tag of a slot (Table 8.5); a claimed slot reads as EMPTY and names its claimer. -/
inductive Tag where
  | empty
  | full
  | failed
  | claimed (owner : Nat)
  deriving DecidableEq, Repr

/-- A packet ejected at its holding unit and not finished there (R222). -/
structure Arrival where
  id : Nat
  unit : Nat
  pkt : Packet
  /-- The port it came in by; none for a packet of this die. -/
  port : Option Nat := none
  accepted : Bool := false
  /-- The part, as its command's identity, its number and its place, whose data this READDATA is bringing (R285, R289). -/
  land : Option ((Nat × Nat) × Nat × Nat) := none
  /-- Bytes of a read already reached while it waits on another slot (R165): the place and the bytes. -/
  seen : List (Nat × List Byte) := []
  /-- The part counts in INBOUND of these regions and this window (R171, R280). -/
  rgns : List Nat := []
  win : Option Nat := none
  claims : List Nat := []
  /-- Slots whose bytes have landed. -/
  wrote : List Nat := []
  /-- The first moment of its tag wait (R167). -/
  since : Option Nat := none
  deriving DecidableEq, Repr

/-- A packet inside the die (R217): its plane, the router that holds it, where it is ejected, and how its hop stands. -/
structure Flying where
  pkt : Packet
  plane : Nat
  here : Nat
  /-- The router it is ejected at and the unit that takes it. -/
  dest : Nat
  unit : Nat
  port : Option Nat := none
  /-- The port it came in by, if it did. -/
  via : Option Nat := none
  /-- The input of `here` that holds it (Table 10.1). -/
  inp : Nat := 4
  /-- The output it last tried to leave by, and its uncorrectable arrivals over that link (R232). -/
  out : Nat := 6
  resends : Nat := 0
  /-- It has waited ESCWAIT for room (R227). -/
  waited : Bool := false
  /-- It waits at its source for room at the router's input (R220); its epoch is stamped when it enters (R239). -/
  queued : Bool := false
  /-- The tick at which it was first held for want of room (Table 10.9). -/
  heldAt : Option Nat := none
  deriving DecidableEq, Repr

/-- A source's stream (R288): its next SEQ and the tick of its last traffic. -/
structure SStream where
  unit : Nat
  dst : Nat
  seq : Nat
  last : Nat
  deriving DecidableEq, Repr

/-- A holding unit's stream (R288): the base SEQ, the map of parts landed at or above it, the last traffic. -/
structure HStream where
  unit : Nat
  src : Nat
  dst : Nat
  base : Nat
  map : List Nat
  last : Nat
  deriving DecidableEq, Repr

/-- A class change of a bank under way (R163): the class served meanwhile, the commands (unit, queue, count) and the
inbound parts it waits for. -/
structure BankPend where
  tile : Nat
  bank : Nat
  old : Nat
  cmds : List (Nat × Nat)
  parts : List Nat
  deriving DecidableEq, Repr

/-- Commands an abort has taken: counts `lo` to `lo + n - 1` of a queue, not yet fetched (R212). -/
structure AbortMark where
  unit : Nat
  q : Nat
  lo : Nat
  n : Nat
  deriving DecidableEq, Repr

/-- A region ordered to close (R171): the tick of its order. -/
structure Closing where
  tile : Nat
  n : Nat
  start : Nat
  deriving DecidableEq, Repr

/-- A packet an outbound strand holds until it is accepted (R252): its strand and link sequence number once sent, the
tick of its last frame, the RESENDs it has met there, whether it is due to be sent there again, the strand it has left
for another, and whether it is relayed. -/
structure Held where
  port : Nat
  pkt : Packet
  lvc : Nat
  strand : Option Nat := none
  lseq : Nat := 0
  sentAt : Nat := 0
  resends : Nat := 0
  again : Bool := false
  avoid : Option Nat := none
  relay : Bool := false
  deriving DecidableEq, Repr

/-- A packet whose frames an inbound strand is collecting (R249): its sequence number and channel, its bytes so far,
and whether a block was uncorrectable. -/
structure Partial where
  port : Nat
  strand : Nat
  lseq : Nat
  lvc : Nat
  bytes : List Byte
  blocks : Nat
  bad : Bool
  /-- Frames are being discarded until the next packet begins. -/
  skip : Bool
  deriving DecidableEq, Repr

/-- A packet a strand has accepted, waiting for the entry router or the relay path, and the credits it occupies. -/
structure Rx where
  port : Nat
  strand : Nat
  lvc : Nat
  blocks : Nat
  pkt : Packet
  deriving DecidableEq, Repr

/-- What the link logic keeps for one link: inbound, the LSEQs accepted most recently, newest first, the RESENDs sent by
LSEQ, code violations by lane, and the tick of the last frame; outbound, the next LSEQ, the credits by channel and the
tick of the last frame; the start of the count window; the width a retrain is asked for (2 half), by direction;
when a partner was last waited for; the symbols sent, acknowledged and taken; by direction, the width last trained to and
the spare lanes then in use; the results message last sent; and the directions whose hard events have been recorded in
this window (R248, R251, R252, R255, R258, R261). -/
structure LinkSt where
  accepted : List Nat := []
  resent : List (Nat × Nat) := []
  lanes : List (Nat × Nat) := []
  lastIn : Nat := 0
  nextLseq : Nat := 0
  credits : List Nat := [0, 0, 0, 0]
  lastOut : Nat := 0
  window : Nat := 0
  want : List Nat := [1, 1]
  since : Nat := 0
  sent : Nat := 0
  acked : Nat := 0
  taken : Nat := 0
  was : List (Nat × List Nat) := [(0, []), (0, [])]
  told : Nat := 0
  worn : List Nat := []
  deriving DecidableEq, Repr

/-- A link control message received or sent (Table 11.4). -/
structure Lctl where
  port : Nat
  ltype : Nat
  link : Nat
  dir : Nat
  width : Nat
  entries : List Nat := []
  deriving DecidableEq, Repr

/-- A line a cache-mode slice holds (R177): its set and way, bits 62 to 6 of its address, whether it is dirty, and when
it was last used. Its 64 bytes stand in memory (Machine/Larder.lean). -/
structure CLine where
  slice : Nat
  set : Nat
  way : Nat
  tag : Nat
  dirty : Bool
  used : Nat
  deriving DecidableEq, Repr

/-- A line request of a slice to its hub (R177, R182): a read, or a write of `data`. `waiters` are the arrivals it serves, `joined` how many requests it has served or will
and `owner` the command line it belongs to, as owner code and line number. A read done with, whose line was not
allocated, keeps its data while arrivals wait. -/
structure Fetch where
  tag : Nat
  slice : Nat
  addr : Nat
  write : Bool
  data : List Byte := []
  done : Bool := false
  status : Nat := 0
  waiters : List Nat := []
  owner : Option (Nat × Nat) := none
  /-- A write-back of a dirty line; its loss is job-fatal (R176). -/
  evict : Bool := false
  joined : Nat := 1
  /-- A write-back of LINV: the line leaves once it is taken (R286). -/
  inval : Bool := false
  /-- A read whose line has been written since: no later read joins it, and its line is not allocated (R180). -/
  shut : Bool := false
  deriving DecidableEq, Repr

/-- A read whose merge is open (R180): its slice and line, the tick its data became available, the requests it has served
and the data. -/
structure Merge where
  slice : Nat
  addr : Nat
  since : Nat
  count : Nat
  data : List Byte
  deriving DecidableEq, Repr

/-- A SEAL contribution on its way to the seal unit (R307): its command, its region identifier and the region's bytes. -/
structure SealMsg where
  cmd : Nat × Nat
  rid : Nat
  data : List Byte
  deriving DecidableEq, Repr

/-- A fault record (Table 17.8). -/
structure FaultRec where
  cls : Nat
  source : Nat
  unit : Nat
  status : Nat
  code : Nat
  info : Nat
  time : Nat
  index : Nat
  deriving DecidableEq, Repr

/-- An entry of the ledger (R380). -/
structure LEntry where
  kind : Nat
  unit : Nat
  arg : Nat := 0
  val : Nat := 0
  deriving DecidableEq, Repr

/-- A ledger snapshot, but for the identity hash and the signature (R379, R382). -/
structure Snap where
  lgen : Nat
  time : Nat
  entries : List LEntry
  deriving DecidableEq, Repr

/-- A single-symbol correction noted within a WINDOW (R372): the tile or 960 + slice, its bank or sub-array, row and symbol,
and whether its row has been called, or its column remapped, for it already. -/
structure Noted where
  unit : Nat
  bank : Nat
  row : Nat
  sym : Nat
  rowDone : Bool := false
  colDone : Bool := false
  deriving DecidableEq, Repr

/-- A bank being retired (R374): the tile and bank, when its step 2 began, and the lines its rescue could not write. -/
structure Retiring where
  tile : Nat
  bank : Nat
  since : Nat
  lost : Nat
  deriving DecidableEq, Repr

/-- A ramp of a domain's voltage (R32, R310): the lowest code it leaves or goes to, and the tick by which it is over. -/
structure Swing where
  low : Nat := 127
  until' : Nat := 0
  deriving DecidableEq, Repr

/-- A health notice waiting to be sent (R388). -/
structure Notice where
  kind : Nat
  cls : Nat
  code : Nat
  index : Nat
  deriving DecidableEq, Repr

/-- An accepted mailbox request whose response has not been sent (R328 to R331): the port and slot, the command, TAG,
VMAJ and RESP, the body, the status and DETAIL it is answered with untried (R333), whether it has started, when, and
what a long command has noted. -/
structure MbReq where
  port : Nat
  slot : Nat
  cmd : Nat
  vmaj : Nat
  tag : Nat
  resp : Nat
  body : List Byte
  started : Bool := false
  since : Nat := 0
  note : List Nat := []
  deriving DecidableEq, Repr

/-- A response kept for check 4 of Table 15.2. -/
structure MbDone where
  port : Nat
  cmd : Nat
  tag : Nat
  pkt : Packet
  deriving DecidableEq, Repr

/-- A message of the crier to a tile's loader: REPORT, REPAIR or START (R344, R346). -/
inductive CryKind where
  | report | repair | start
  deriving DecidableEq, Repr

/-- A loader's record as it reported it (R344): the tile, SEQ_FWMAP, SEALT and the round. -/
structure CryRec where
  tile : Nat
  chunks : Nat
  sealt : Bool
  round : Nat
  deriving DecidableEq, Repr

/-- How a tile of a broadcast was settled (R345). -/
inductive Settled where
  | verified | oos | left
  deriving DecidableEq, Repr

/-- A piece of the relay still to be sent (R346): its KIND, OFFSET and LEN, and its TAG once sent. -/
structure RelayPiece where
  kind : Nat
  offset : Nat
  len : Nat
  tag : Nat := 0
  deriving DecidableEq, Repr

/-- The states of the IEEE 1149.1 controller. -/
inductive TapState where
  | reset | idle
  | selDr | capDr | shDr | ex1Dr | pauDr | ex2Dr | upDr
  | selIr | capIr | shIr | ex1Ir | pauIr | ex2Ir | upIr
  deriving DecidableEq, Repr

end Sys2Proof.Machine
end

