-- ==== Sys2Proof/Machine/State.lean ====
section
/-! DEFINITION. The state of the chiplet as plain data, and State.reset. A register that `creg` or `treg` does not
list holds its reset value (Machine/ResetVals.lean), so that reset lists none. -/

namespace Sys2Proof.Machine

/-- Commands past fetch in the order they were fetched, abort marks on counts not yet fetched, what waiting reads have
reached, per unit the queue
admitted last, and the chiplet-level groups' credit and reservation, whose tiles' counterparts are registers (R185,
R200, R212); a reservation is the queue plus one. Every ceiling is WGH_CTL.TCAP (R315). -/
structure QueueSt where
  cmds : List Cmd := []
  aborts : List AbortMark := []
  seen : List Seen := []
  last : SMap Nat := []
  groupCredit : SMap Nat := []
  groupResv : SMap Nat := []
  groupSkips : SMap Nat := []
  deriving DecidableEq, Repr

/-- Slot tags (key 4096 · tile + slot), bank class changes and closing regions, and the writes accepted by region
(key 16 · tile + n, with the SRC): R163, R165, R171. -/
structure TileSt where
  tags : SMap Tag := []
  pend : List BankPend := []
  closing : List Closing := []
  /-- WAKING regions that were DARK (tile, n): their lines are to be zeroed and their slots emptied (Table 8.8). -/
  waking : List (Nat × Nat) := []
  accSrc : List (Nat × Nat) := []
  deriving DecidableEq, Repr

/-- Packets inside the die, packets at their holding units, multicast stores, streams, and the plane toggles of the
sources (R217, R222, R288). -/
structure NetSt where
  fly : List Flying := []
  arr : List Arrival := []
  nextId : Nat := 0
  mstore : List Arrival := []
  src : List SStream := []
  held : List HStream := []
  planes : SMap Nat := []
  /-- The escape tables of each epoch: the number of their build, and what they exclude, each link as 12 times its router
  plus 4 times its plane plus its port, and half h as 2^20 + h (R226). -/
  tables : SMap Nat := []
  cuts : SMap (List Nat) := []
  builds : Nat := 0
  /-- Tables the counting-house is to install by itself once it can, excluding these halves beside what is retired or
  parked (R232, R323). -/
  want : Option (List Nat) := none
  /-- Channels signalled OFF: 8 times the input (18 times its router plus 6 times its plane plus its port) plus the channel
  (R221). -/
  off : List Nat := []
  /-- By output (numbered as inputs are), the channel served last among VC2 to VC5, and the tick up to which NET_STALL is
  counted (R221, Table 10.9). -/
  turn : SMap Nat := []
  stalled : SMap Nat := []
  /-- The tick at which an epoch began to drain, until event 02h has been raised for it (R240). -/
  draining : Option Nat := none
  /-- The epoch change under way is the counting-house's own: it flips to the LOADING tables and frees the DRAINING ones by
  itself (R232, R323). -/
  own : Bool := false
  /-- The usable strands of each port, out and in, that an epoch's tables carry (R259). -/
  strands : SMap (List (Nat × Nat)) := []
  deriving DecidableEq, Repr

/-- The link domain (chapter 11): packets received and held, partial packets, links (key 64 · port + link), link control
messages waiting, ports whose partner is counted ABSENT, when each port last heard its partner, attempts at each
by-pass position and when the last one failed, whether the chiplet's ports are HELD, whether warden authority is lost
(R262), the state each partner presents (2, ACTIVE, until a frame has told), and the frames sent (log entry 8). -/
structure PortSt where
  rx : List Rx := []
  held : List Held := []
  partials : List Partial := []
  links : SMap LinkSt := []
  lctl : List Lctl := []
  absent : List Nat := []
  lastFrame : SMap Nat := []
  tries : SMap Nat := []
  failedAt : SMap Nat := []
  hold : Bool := false
  wardenLost : Bool := false
  peer : SMap Nat := []
  wire : List (Nat × Nat × Frame) := []
  deriving DecidableEq, Repr

/-- The larder's cache lines, hub fetches and reads still open to merging (R177, R180, R182). -/
structure LarSt where
  lines : List CLine := []
  fetches : List Fetch := []
  merges : List Merge := []
  nextTag : Nat := 0
  /-- The correction counts of each slice (R378), packed as VAL of a COUNTS entry (Table 17.4). -/
  counts : SMap Nat := []
  deriving DecidableEq, Repr

/-- The bell unit and the seal unit (chapter 13) beside their registers: the tiles and children that have posted this
step, the notices of lost children, the tick at which the watchdog was armed, the role change waiting for its ring
(step, role), contributions on their way, and the results of seal comparisons and
of whole exchanges by step. -/
structure BellSt where
  tiles : List Nat := []
  kids : List Nat := []
  lost : List (Nat × Nat) := []
  armed : Option Nat := none
  change : Option (Nat × Nat) := none
  seals : List SealMsg := []
  compared : List (Nat × Nat) := []
  exchanged : List (Nat × Nat) := []
  deriving DecidableEq, Repr

/-- The ledger (chapter 17): the entries in force, the snapshot in force, rows called and not yet remapped (tile or
960 + slice, bank or sub-array, row) and those of them found uncorrectable, single-symbol corrections noted in this
window and when the window began, and the history presented: the pieces received (offset, length), whose bytes stand in memory,
and the entries of the one accepted (R381). -/
structure LedSt where
  entries : List LEntry := []
  snap : Option Snap := none
  called : List (Nat × Nat × Nat) := []
  stuck : List (Nat × Nat × Nat) := []
  noted : List Noted := []
  window : Nat := 0
  /-- Banks being retired (R374). -/
  retiring : List Retiring := []
  got : List (Nat × Nat) := []
  hist : List LEntry := []
  /-- What parts 3L and 3U have found, for 4L and 4U (R355 to R358). -/
  low : Option TestObs := none
  high : Option TestObs := none
  /-- The self-test passes done, each with the physical tiles (row, column) whose banks do not all pass it (R356). -/
  passLow : Option (List (Nat × Nat)) := none
  passHigh : Option (List (Nat × Nat)) := none
  deriving DecidableEq, Repr

/-- The weigh-house beside its registers: stacks treated as HOT since the hub port that reached them was lost (R321),
the pace setpoints (default 50, VNOM's reset value), the setpoints a wear response raises domains to (R36) and the ramps
of their voltages (R32), `k` as a fraction, the last window done and the powers of up to 100,
thermal sensors out of service and failed phases by domain, when each domain's ramp was ordered, and the link mesh
corrections seen at the start of their window. -/
structure WghSt where
  hot : List Nat := []
  tgt : SMap Nat := []
  raised : SMap Nat := []
  swing : SMap Swing := []
  kNum : Nat := 1
  kDen : Nat := 1
  last : Nat := 0
  hist : List Nat := []
  sensors : List (Nat × Nat) := []
  phases : SMap Nat := []
  ramp : SMap Nat := []
  corr : SMap Nat := []
  deriving DecidableEq, Repr

/-- The timebase beside its registers (R37): the fraction of a tick the accumulator holds and the offset still to be
slewed out and what has been slewed since the last beacon, in units of 2^-24 tick, the last beacon applied (hub ticks, local ticks), and agreeing intervals in a row. -/
structure TmbSt where
  frac : Nat := 0
  slew : Int := 0
  slewed : Int := 0
  beacon : Option (Nat × Nat) := none
  agree : Nat := 0
  deriving DecidableEq, Repr

/-- The mailboxes (R328 to R331): accepted requests in order of acceptance, and the 16 most recent responses of each
port, newest last. -/
structure MbSt where
  reqs : List MbReq := []
  done : List MbDone := []
  deriving DecidableEq, Repr

/-- Counting-house firmware (R336, R337): the header staged by MB_FW_BEGIN and the bank it goes to, the pieces of its
body written, and the headers of the images committed in banks A and B. The bodies stand in memory. -/
structure FwSt where
  staged : Option (Nat × List Byte) := none
  written : List (Nat × Nat) := []
  heads : SMap (List Byte) := []
  deriving DecidableEq, Repr

/-- The crier (R338 to R347): the manifest of the broadcast, whether it uses the default image rather than the staged one
and the counting-house's own copy rather than the crier slice, its targets and how they were settled, when the collection
under way began, loader messages on their way, the 512-byte packets each loader has taken, records of the loaders, the RELAY field and the
pieces still to relay, the piece awaiting its response and the status of one that failed, whether the broadcast has
ended, and the SHA-384 of the manifest last verified. -/
structure CrySt where
  manifest : List Byte := []
  default : Bool := false
  own : Bool := false
  targets : List Nat := []
  settled : List (Nat × Settled) := []
  since : Nat := 0
  msgs : List (CryKind × Nat) := []
  loads : SMap (List Nat) := []
  recs : List CryRec := []
  hops : Nat := 0
  relay : List RelayPiece := []
  waiting : Option RelayPiece := none
  relayStatus : Nat := 0
  ended : Bool := true
  measured : List Byte := []
  deriving DecidableEq, Repr

/-- Hallmarks and attestation (chapter 18): the blobs by slot, and the stored report. -/
structure HmSt where
  slots : SMap (List Byte) := []
  report : List Byte := []
  deriving DecidableEq, Repr

/-- The fault log (the 1,024 most recent records, R387), the notices waiting and the tick of the last one (R388). -/
structure LogSt where
  flog : List FaultRec := []
  due : List Notice := []
  lastNotice : Option Nat := none
  deriving DecidableEq, Repr

/-- Everything but the bytes of memory and their codeword errors. -/
structure Core where
  creg : SMap Word := []
  treg : SMap Word := []
  queues : QueueSt := {}
  tiles : TileSt := {}
  net : NetSt := {}
  ports : PortSt := {}
  lar : LarSt := {}
  bell : BellSt := {}
  led : LedSt := {}
  wgh : WghSt := {}
  tmb : TmbSt := {}
  mb : MbSt := {}
  fw : FwSt := {}
  cry : CrySt := {}
  hm : HmSt := {}
  log : LogSt := {}
  free : Nat := 0
  lastRead : Nat := 0
  deriving DecidableEq, Repr

/-- The machine with its memories: `mem` is every byte memory of the chiplet in one flat space (Machine/Ops.lean lays
it out), `errs` the symbol errors standing in each line's codeword (R173), `corr` lines waiting to be written back
corrected (R174). -/
structure Mach where
  core : Core := {}
  mem : List Host.Cell := []
  errs : SMap (List (Nat × Nat)) := []
  corr : List Nat := []
  deriving DecidableEq, Repr

/-- The faults of a step. -/
inductive Fault where
  /-- Raised by a command that names a unit the chiplet does not have (a tile above 959, a port above 5, a queue its
  unit lacks): safe, no agent of the spec can send such a command. -/
  | noSuchUnit
  deriving DecidableEq, Repr

/-- The refusals of a step. -/
inductive Refusal where
  /-- Raised by an arm of Machine/Dispatch.lean that has no meaning yet: safe. -/
  | notModelled (mnemonic : String)
  deriving DecidableEq, Repr

/-- The one-time fuses (R4, R380, R394, R400, R420): the device certificate, the three monotonic counters, the key
generations revoked, the wafer-test defects, and the test lock. -/
structure Fuses where
  cert : List Byte := []
  hmepoch : Nat := 0
  fwsvn : Nat := 0
  tsvn : Nat := 0
  fwrev : Nat := 0
  trev : Nat := 0
  hmrev : Nat := 0
  defects : List LEntry := []
  locked : Bool := true
  deriving DecidableEq, Repr

/-- Supplies, pins and reset (chapters 16 and 19): VIN in range with the regulators up, VRING good, FULL_RST_N and
COMP_RST_N, the trip latch, a compute-only reset under way, and whether SCAN or WS_INTEST has erased the identity key
and removed the chiplet from operation (R394, R422). -/
structure PwrSt where
  on : Bool := true
  vring : Bool := true
  fullRstN : Bool := false
  compRstN : Bool := false
  trip : Bool := false
  comp : Bool := false
  erased : Bool := false
  out : Bool := false
  deriving DecidableEq, Repr

/-- The test port (R419 to R423): the controller, the level of TCK, the instruction in effect, both shift registers (the
data one with its length), the boundary and die wrapper registers, the output, and entries into Test-Logic-Reset. -/
structure TapSt where
  tap : TapState := .reset
  tck : Bool := false
  ir : Nat := 1
  irShift : Nat := 1
  drShift : Nat := 0
  drLen : Nat := 32
  boundary : Nat := 0
  wrapper : Nat := 0
  tdo : Option Bool := none
  resets : Nat := 0
  deriving DecidableEq, Repr

/-- The whole block. -/
structure State where
  mach : Mach := {}
  fuses : Fuses := {}
  pwr : PwrSt := {}
  tap : TapSt := {}
  pending : List Instr := []
  deriving DecidableEq, Repr

/-- The machine right after reset: power-on is done, supplies are good and FULL_RST_N is still low (log entry 5). -/
def State.reset : State := {}

end Sys2Proof.Machine
end

