-- ==== Sys2Proof/Machine/Ops.lean ====
section
/-! DEFINITION. Named operations: register fields, the memory map, the floor plan, tallies, commands, faults and
notices, and the lifting of an operation to the whole block. -/

namespace Sys2Proof.Machine

/-! ## Registers -/

/-- A chiplet-scope register word. -/
def Core.cword (c : Core) (off : Nat) : Word := SMap.get (cResetWord off) c.creg off

/-- A chiplet-scope register word written. -/
def Core.setCword (c : Core) (off : Nat) (x : Word) : Core := { c with creg := SMap.set (cResetWord off) c.creg off x }

/-- A chiplet-scope field. -/
def Core.rd (c : Core) (f : Fld) : Nat := fldGet f (c.cword f.off)

/-- A chiplet-scope field written. -/
def Core.wr (c : Core) (f : Fld) (v : Nat) : Core := c.setCword f.off (fldSet f (c.cword f.off) v)

/-- The key of a tile's register: each tile's page is 16 KiB (Table 12.3). -/
def tileKey (t off : Nat) : Nat := t * 0x4000 + off

/-- A tile-scope register word. -/
def Core.tword (c : Core) (t off : Nat) : Word := SMap.get (tResetWord off) c.treg (tileKey t off)

/-- A tile-scope register word written. -/
def Core.setTword (c : Core) (t off : Nat) (x : Word) : Core :=
  { c with treg := SMap.set (tResetWord off) c.treg (tileKey t off) x }

/-- A tile-scope field. -/
def Core.trd (c : Core) (t : Nat) (f : Fld) : Nat := fldGet f (c.tword t f.off)

/-- A tile-scope field written. -/
def Core.twr (c : Core) (t : Nat) (f : Fld) (v : Nat) : Core := c.setTword t f.off (fldSet f (c.tword t f.off) v)

/-- A field counted up, saturating at all ones. -/
def Core.bump (c : Core) (f : Fld) (n : Nat) : Core := c.wr f (satAdd f.w (c.rd f) n)

/-- A tile-scope field counted up, saturating. -/
def Core.tbump (c : Core) (t : Nat) (f : Fld) (n : Nat) : Core := c.twr t f (satAdd f.w (c.trd t f) n)

/-- A field counted up, wrapping. -/
def Core.bumpWrap (c : Core) (f : Fld) (n : Nat) : Core := c.wr f (c.rd f + n)

/-- The local time, TMB_NOW (R37). -/
def Core.now (c : Core) : Nat := c.rd R.TMB_NOW_NOW

/-- A free value: whatever Config.freeValue gives for the machine's counter, which advances (log entry 7). -/
def Core.draw (c : Core) : BitVec 64 × Core := (Config.freeValue c.free, { c with free := c.free + 1 })

/-! ## Units and the floor plan -/

/-- The tiles: logical row `t / 20`, logical column `t % 20`. -/
def nTiles : Nat := 960
/-- Whether a unit code is a tile's. -/
def isTile (u : Nat) : Bool := decide (u < 960)
/-- Whether a unit code is a chiplet-level group's: 960 + g, slices first, then the hub ports (R275). -/
def isGroup (u : Nat) : Bool := decide (960 ≤ u) && decide (u < 1060)
/-- The unit that holds the control page's chiplet scope, in the seam band. -/
def unitSeam : Nat := 1060
/-- Mailbox `p`'s unit. -/
def unitMailbox (p : Nat) : Nat := 1061 + p
/-- The logic of port `p`, by which a packet leaves the die. -/
def unitPort (p : Nat) : Nat := 1070 + p

/-- Queues of a unit (Table 9.1). -/
def queuesOf (u : Nat) : Nat := if u < 960 then 8 else if u < 1056 then 4 else 32

/-- Whether `u` and `q` name a queue. -/
def isQueue (u q : Nat) : Bool := decide (u < 1060) && decide (q < queuesOf u)

/-- Whether a logical tile is present (R16, R17, R21; before the first ledger build none is). -/
def Core.present (c : Core) (t : Nat) : Bool :=
  decide (t < 960) && decide (c.rd R.LDG_FP_SUMMARY_VALID = 1) && !bit (c.rd (R.LDG_FP_ROW_ABSENT (t / 20))) (t % 20)

/-- The physical column of a logical column under a row's BAD set (R16); 21 where there is none. -/
def physCol (bad lcol : Nat) : Nat :=
  (((List.range 21).filter (fun p => !bit bad p))[lcol]?).getD 21

/-- The router of a tile (R15, R215: mcol = pcol + 1). -/
def Core.tileRouter (c : Core) (t : Nat) : Nat :=
  23 * (t / 20) + physCol (c.rd (R.LDG_FP_ROW_BAD (t / 20))) (t % 20) + 1

/-- The physical slice of a logical one, and whether it is absent (R22). -/
def Core.physSlice (c : Core) (s : Nat) : Nat := c.rd (R.LDG_FP_SLICEMAP_PHYS (s / 8) (s % 8))
/-- Whether a logical slice is present. -/
def Core.slicePresent (c : Core) (s : Nat) : Bool :=
  decide (s < 96) && decide (c.rd R.LDG_FP_SUMMARY_VALID = 1) && decide (c.rd (R.LDG_FP_SLICEMAP_ABSENT (s / 8) (s % 8)) = 0)

/-- The router of a physical slice (R14, Table 10.1). -/
def physSliceRouter (p : Nat) : Nat :=
  if p < 96 then 23 * (p / 2) + (if p % 2 = 0 then 0 else 22)
  else if p = 96 then 23 * 23 else if p = 97 then 23 * 23 + 22 else if p = 98 then 23 * 24 else 23 * 24 + 22

/-- The larder domain of a router: 24 NW, 25 NE, 26 SW, 27 SE (Table 1.9). -/
def routerDomain (n : Nat) : Nat := 24 + (if n / 23 < 24 then 0 else 2) + (if n % 23 ≤ 11 then 0 else 1)

/-- Domain modes of WGH_DOMST (Table 14.8): a half is parked while both its larder domains are DARK (R26). -/
def Core.halfParked (c : Core) (south : Bool) : Bool :=
  let d := if south then 26 else 24
  decide (c.rd (R.WGH_DOMST_MODE d) = 2) && decide (c.rd (R.WGH_DOMST_MODE (d + 1)) = 2)

/-- The router at which the seam band's units inject: (23, 11), or (24, 11) while the north half is parked (log entry 13). -/
def Core.seamRouter (c : Core) : Nat := if c.halfParked false then 23 * 24 + 11 else 23 * 23 + 11

/-- The router at which a packet from a router reaches the seam band, whose units stand behind AUX of rows 23 and 24 at mesh
columns 1 to 21 (Table 10.1): the source's own half and column, as far as they reach (log entry 13). -/
def Core.seamNear (c : Core) (src : Nat) : Nat :=
  let north := (decide (src / 23 < 24) && !c.halfParked false) || c.halfParked true
  23 * (if north then 23 else 24) + max 1 (min 21 (src % 23))

/-- Whether a tile's row pair is unpowered: any mode but LIT (R222, R322). -/
def Core.tileDark (c : Core) (t : Nat) : Bool := decide (c.rd (R.WGH_DOMST_MODE (t / 20 / 2)) ≠ 0)

/-- Whether a unit lies in a parked half (R234). -/
def Core.unitParked (c : Core) (u : Nat) : Bool :=
  if u < 960 then c.halfParked (decide (24 ≤ u / 20))
  else if u < 1056 then c.halfParked (decide (24 ≤ physSliceRouter (c.physSlice (u - 960)) / 23))
  else false

/-- The router at which packets to and from a unit enter the mesh; a port's is given apart. -/
def Core.unitRouter (c : Core) (u : Nat) : Nat :=
  if u < 960 then c.tileRouter u
  else if u < 1056 then physSliceRouter (c.physSlice (u - 960))
  else c.seamRouter

/-- The port of its router that a unit stands behind (Table 10.1). -/
def Core.unitSide (c : Core) (u : Nat) : Nat :=
  if u < 960 ∨ (u < 1056 ∧ c.physSlice (u - 960) < 96) then 4 else 5

/-- The chiplet serves work (R359). -/
def Core.serving (c : Core) : Bool := decide (c.rd R.STG_STATUS_RSVC = 1) || decide (c.rd R.STG_STATUS_FULL = 1)
/-- Reduced service is open (R362). -/
def Core.reduced (c : Core) : Bool := decide (c.rd R.STG_STATUS_RSVC = 1)

/-! ## The memory map -/

/-- Where a tile's memory stands in the flat space. -/
def tileBase (t : Nat) : Nat := t * 2 ^ 20
/-- A logical slice's 4 MiB. -/
def sliceBase (s : Nat) : Nat := 2 ^ 30 + s * 2 ^ 22
/-- A tile's operand cache. -/
def cacheBase (t : Nat) : Nat := 2 ^ 31 + t * 2 ^ 16
/-- A loader's firmware store. -/
def loaderBase (t : Nat) : Nat := 2 ^ 32 + t * 2 ^ 19
/-- A counting-house firmware bank. -/
def bankBase (b : Nat) : Nat := 2 ^ 33 + b * 2 ^ 22
/-- A tile's T registers: 8 of 4 KiB (R142). -/
def tregBase (t : Nat) : Nat := 2 ^ 34 + t * 2 ^ 15
/-- A chiplet-level queue's ring entry (R275): 64 bytes, the command and its record address. -/
def storeBase (g q pos : Nat) : Nat := 2 ^ 35 + ((g * 32 + q) * 64 + pos) * 64

/-- The bytes at an address of the flat space. -/
def Mach.read (m : Mach) (a n : Nat) : List Byte := readBytes m.mem a n
/-- Bytes written. -/
def Mach.write (m : Mach) (a : Nat) (bs : List Byte) : Mach := { m with mem := writeBytes m.mem a bs }
/-- Scattered bytes written in order. -/
def Mach.writeAll (m : Mach) (bs : List (Nat × Byte)) : Mach :=
  bs.foldl (fun m p => { m with mem := SMap.set (0 : Byte) m.mem p.1 p.2 }) m
/-- Bytes returned to zero: those at `lo` up to `hi`. -/
def Mach.zero (m : Mach) (lo hi : Nat) : Mach :=
  { m with mem := SMap.keep (fun k => !(decide (lo ≤ k) && decide (k < hi))) m.mem }
/-- The registers and control state changed, memory left alone. -/
def Mach.onCore (m : Mach) (f : Core → Core) : Mach := { m with core := f m.core }

/-! ## Lifting to the block -/

/-- Whether the chiplet's logic runs: supplies up, FULL_RST_N high, no trip latched, not removed from operation by a
test (R351, R368, R414, R422). -/
def State.live (s : State) : Bool := s.pwr.on && s.pwr.fullRstN && !s.pwr.trip && !s.pwr.out
/-- A command that touches the machine, not the supplies, fuses, test port or queue; nothing happens where the logic does
not run. -/
def State.onMach (s : State) (f : Mach → Mach) : Host.Outcome State Fault Refusal :=
  .next (if s.live then { s with mach := f s.mach } else s)
/-- A command that touches control state alone. -/
def State.onCore (s : State) (f : Core → Core) : Host.Outcome State Fault Refusal := s.onMach (fun m => m.onCore f)
/-- A command whose operands must name units that exist. -/
def onlyIf (ok : Bool) (o : Host.Outcome State Fault Refusal) : Host.Outcome State Fault Refusal :=
  if ok then o else .fault .noSuchUnit

/-! ## Statuses (Table 9.6) -/

/-- The status codes of Table 9.6. -/
def stOK : Nat := 0
def stFAILED : Nat := 1
def stABORTED : Nat := 2
def stRESET : Nat := 3
def stLOST : Nat := 4
def stCLOSED : Nat := 5
def stDARK : Nat := 6
def stBOUND : Nat := 7
def stBANK : Nat := 8
def stUNCORR : Nat := 9
def stTIMEOUT : Nat := 10
def stDENIED : Nat := 11
def stTALLY : Nat := 12
def stFORMAT : Nat := 13
def stEPOCH : Nat := 14

/-! ## Fault records, events and notices (R384 to R388) -/

/-- UNIT of a tile or group in a fault record: logical row and column, or the group (Table 17.8). -/
def faultUnit (u : Nat) : Nat :=
  if u < 960 then u / 20 + 64 * (u % 20) else if u < 1060 then 2 ^ 15 + (u - 960) else 0

/-- One fault record appended: the log keeps the 1,024 most recent (R387). -/
def Core.record (c : Core) (cls source unit status code info : Nat) : Core :=
  let i := c.rd R.LDG_FLOG_WI
  let r : FaultRec := ⟨cls, source, unit, status, code, info, c.now, i⟩
  let l := c.log.flog ++ [r]
  { c.wr R.LDG_FLOG_WI (i + 1) with log := { c.log with flog := l.drop (l.length - 1024) } }

/-- A notice was sent within the last 1,000 ticks (R388). -/
def Core.noticeSoon (c : Core) : Bool := c.log.lastNotice.any (fun t => decide (c.now - t < 1000))

/-- A notice made due (R388). Where none was sent in the last 1,000 ticks the first of an interval is sent as it is, and
those after it, like those of an interval under way, are one notice: the latest (log entry 61). -/
def Core.notify (c : Core) (kind cls code : Nat) : Core :=
  let n : Notice := ⟨kind, cls, code, c.rd R.LDG_FLOG_WI - 1⟩
  { c with log := { c.log with due := if c.noticeSoon then [n] else c.log.due.take 1 ++ [n] } }

/-- The join of statuses (Table 13.2); a status the table does not list joins as FAILED (R297). -/
def joinRank (s : Nat) : Nat := if s = 4 then 5 else if s = 3 then 4 else if s = 10 then 3 else if s = 0 then 1 else 2
/-- The status as it joins. -/
def joinNorm (s : Nat) : Nat := if s = 4 ∨ s = 3 ∨ s = 10 ∨ s = 0 then s else 1
/-- The higher-ranked of two statuses. -/
def joinStatus (a b : Nat) : Nat := if joinRank a < joinRank b then joinNorm b else joinNorm a

/-- FAILED joined into the step being collected, in RUN (R385). -/
def Core.joinStep (c : Core) (s : Nat) : Core :=
  if c.rd R.CH_BELLSTEP_STATE = 1 then c.wr R.CH_BELLSTAT_JSTAT (joinStatus (c.rd R.CH_BELLSTAT_JSTAT) s) else c

/-- The SOURCE of an event's code (Table 17.7). -/
def eventSource (code : Nat) : Nat :=
  match code with
  | 0x01 => 1 | 0x02 => 3 | 0x03 | 0x04 | 0x05 => 5 | 0x06 => 2 | 0x07 => 4 | 0x08 | 0x09 | 0x0A => 8
  | 0x41 | 0x42 | 0x43 => 8 | 0x44 => 7 | 0x45 => 2 | 0x81 => 3 | 0x82 => 4 | 0x83 | 0x84 => 6 | 0x85 => 7 | _ => 0

/-- A corrected-class event record (codes 41h to 45h) with its notice kind (Table 17.6). -/
def Core.corrected (c : Core) (code kind unit info : Nat) : Core :=
  (c.record 0 (eventSource code) unit 0 code info).notify kind 0 code

/-- A job-fatal event (R385). -/
def Core.jobFatal (c : Core) (code unit : Nat) (info : Nat := 0) : Core :=
  let c := (c.record 2 (eventSource code) unit 0 code info).wr R.LDG_ALERT_JOBF 1
  ((c.bump R.LDG_ALERT_JOBCNT 1).notify 2 2 code).joinStep 1

/-! ## Commands past fetch -/

/-- The identity of a command: its unit and queue, and its count. -/
def Cmd.id (m : Cmd) : Nat × Nat := (m.unit * 32 + m.q, m.idx)
/-- The owner code by which a command claims slots. -/
def Cmd.owner (m : Cmd) : Nat := 2 * ((m.unit * 32 + m.q) * 65536 + m.idx)
/-- The owner code of an arrival. -/
def Arrival.owner (a : Arrival) : Nat := 2 * a.id + 1

/-- The header fields (Table 9.2). -/
def Cmd.opcode (m : Cmd) : Nat := bits m.word 0 8
def Cmd.sigen (m : Cmd) : Bool := bit m.word 8
def Cmd.fok (m : Cmd) : Bool := bit m.word 9
def Cmd.fence (m : Cmd) : Bool := bit m.word 10
def Cmd.recFlag (m : Cmd) : Bool := bit m.word 11
def Cmd.eclass (m : Cmd) : Nat := bits m.word 16 4
def Cmd.waitT (m : Cmd) : Nat := bits m.word 20 6
def Cmd.sigT (m : Cmd) : Nat := bits m.word 26 6
def Cmd.waitN (m : Cmd) : Nat := bits m.word 32 20

/-- The commands of a queue, oldest first. -/
def Core.queueCmds (c : Core) (u q : Nat) : List Cmd :=
  c.queues.cmds.filter (fun m => decide (m.unit = u) && decide (m.q = q))

/-- A command that has started and not completed. -/
def Cmd.running (m : Cmd) : Bool := decide (m.phase = .run)
/-- A command that has not started. -/
def Cmd.waiting (m : Cmd) : Bool := decide (m.phase = .fetched) || decide (m.phase = .waitTally) || decide (m.phase = .ready)

/-- The running command in an in-flight slot of a queue. -/
def Core.running? (c : Core) (u q f : Nat) : Option Cmd :=
  c.queues.cmds.find? (fun m => decide (m.unit = u) && decide (m.q = q) && m.running && decide (m.slot = f))

/-- A command replaced by its changed self. -/
def Core.putCmd (c : Core) (m : Cmd) : Core :=
  { c with queues := { c.queues with cmds := c.queues.cmds.map (fun x => if x.id = m.id then m else x) } }

/-- Every command changed by `f`. -/
def Core.mapCmds (c : Core) (f : Cmd → Cmd) : Core :=
  { c with queues := { c.queues with cmds := c.queues.cmds.map f } }

/-- A command given its outcome. -/
def Cmd.finish (m : Cmd) (st : Nat) : Cmd := { m with phase := .done, status := st, wait := none }

/-! ## Queue and tally registers of tiles and groups (R275: groups have the layouts of Tables 9.9 and 9.10) -/


/-- The register field of queue `q` of a group: `k` selects ring (0), status (1), record (2). -/
def groupFld (u q k : Nat) (f : Fld) : Fld := { f with off := 0x100000 + 0x800 * (u - 960) + 0x100 * k + 8 * q }

/-- A field of queue `q`'s ring (0), status (1) or record (2) register. -/
def Core.qget (c : Core) (u q k : Nat) (f : Fld) : Nat :=
  if u < 960 then c.trd u { f with off := 0x40 * k + 8 * q } else c.rd (groupFld u q k f)
/-- The same field written. -/
def Core.qset (c : Core) (u q k : Nat) (f : Fld) (v : Nat) : Core :=
  if u < 960 then c.twr u { f with off := 0x40 * k + 8 * q } v else c.wr (groupFld u q k f) v

/-- A field of tally `n` of a tile or group bank. -/
def Core.tallyGet (c : Core) (u n : Nat) (f : Fld) : Nat :=
  if u < 960 then c.trd u { f with off := 0x400 + 8 * n }
  else c.rd { f with off := 0x100000 + 0x800 * (u - 960) + 0x400 + 8 * n }
/-- The word of tally `n` written whole. -/
def Core.tallyPut (c : Core) (u n count : Nat) (fault ovf : Bool) : Core :=
  let w := BitVec.ofNat 64 (count % 2 ^ 20 + 2 ^ 20 * b2n fault + 2 ^ 21 * b2n ovf)
  if u < 960 then c.setTword u (0x400 + 8 * n) w else c.setCword (0x100000 + 0x800 * (u - 960) + 0x400 + 8 * n) w

/-- COUNT, FAULT and OVF of a tally (R193). -/
def Core.tallyCount (c : Core) (u n : Nat) : Nat := c.tallyGet u n (R.SEQ_TALLY_COUNT 0)
def Core.tallyFault (c : Core) (u n : Nat) : Bool := decide (c.tallyGet u n (R.SEQ_TALLY_FAULT 0) = 1)
def Core.tallyOvf (c : Core) (u n : Nat) : Bool := decide (c.tallyGet u n (R.SEQ_TALLY_OVF 0) = 1)

/-- A waiting head looking at its tally (R196). -/
def Core.checkWait (c : Core) (m : Cmd) : Cmd :=
  if m.phase = .waitTally then
    if !m.fok && c.tallyFault m.unit m.waitT then m.finish stTALLY
    else if m.waitN ≤ c.tallyCount m.unit m.waitT then { m with phase := .ready }
    else m
  else m

/-- The heads waiting on a tally see its value (R194, R196). -/
def Core.wake (c : Core) (u n : Nat) : Core :=
  c.mapCmds (fun m => if m.unit = u ∧ m.waitT = n then c.checkWait m else m)

/-- A tally set whole (R204), seen by its waiters. -/
def Core.tallySet (c : Core) (u n count : Nat) (fault ovf : Bool) : Core := (c.tallyPut u n count fault ovf).wake u n

/-- A tally incremented (R194, R195): past FFFFFh it stays there with OVF and FAULT. -/
def Core.tallyAdd (c : Core) (u n k : Nat) (fault : Bool) : Core :=
  let s := c.tallyCount u n + k
  let sat := decide (0xFFFFF < s)
  c.tallySet u n (min s 0xFFFFF) (c.tallyFault u n || fault || sat) (c.tallyOvf u n || sat)

end Sys2Proof.Machine
end

