-- ==== Sys2Proof/Machine/Addr.lean ====
section
/-! DEFINITION. Endpoint addresses (R271): their fields, this chiplet's own coordinates, and the source's checks of a
part (Table 12.6, rows 1 to 4). -/

namespace Sys2Proof.Machine

/-- The fields of Table 12.1. -/
def adPlane (a : Nat) : Nat := bits a 63 1
def adX (a : Nat) : Nat := bits a 58 5
def adY (a : Nat) : Nat := bits a 53 5
def adZ (a : Nat) : Nat := bits a 49 4
def adSlot (a : Nat) : Nat := bits a 45 4
def adClass (a : Nat) : Nat := bits a 42 3
def adRel (a : Nat) : Nat := bits a 0 42
/-- The unit-relative fields of Table 12.2. -/
def adRow (a : Nat) : Nat := bits a 36 6
def adCol (a : Nat) : Nat := bits a 31 5
def adTileOff (a : Nat) : Nat := bits a 0 20
def adSlice (a : Nat) : Nat := bits a 35 7
def adSliceOff (a : Nat) : Nat := bits a 0 22
def adT (a : Nat) : Nat := bits a 41 1
def adPageRow (a : Nat) : Nat := bits a 35 6
def adPageCol (a : Nat) : Nat := bits a 30 5
def adPageOff (a : Nat) : Nat := bits a 0 30
def adWin (a : Nat) : Nat := bits a 32 10
def adGen (a : Nat) : Nat := bits a 22 10
def adWinOff (a : Nat) : Nat := bits a 0 22
def adMbPort (a : Nat) : Nat := bits a 39 3
def adMbOff (a : Nat) : Nat := bits a 0 16

/-- The address fields above the unit class that name this chiplet: bits 63 to 45. -/
def Core.selfTop (c : Core) : Nat :=
  ((((c.rd R.PRT_SELF_PLANE * 32 + c.rd R.PRT_SELF_X) * 32 + c.rd R.PRT_SELF_Y) * 16 + c.rd R.PRT_SELF_Z) * 16
    + c.rd R.PRT_SELF_SLOT)

/-- An address of this chiplet: its class and unit-relative field. -/
def Core.selfAddr (c : Core) (cls rel : Nat) : Nat := c.selfTop * 2 ^ 45 + cls * 2 ^ 42 + rel

/-- A tile's address at a byte of its memory. -/
def Core.tileAddr (c : Core) (t p : Nat) : Nat := c.selfAddr 0 (t / 20 * 2 ^ 36 + t % 20 * 2 ^ 31 + p)

/-- The chiplet-scope control page at an offset. -/
def Core.pageAddr (c : Core) (off : Nat) : Nat := c.selfAddr 2 off

/-- The submission address of a chiplet-level queue (R275). -/
def Core.submitAddr (c : Core) (u q : Nat) : Nat := c.pageAddr (0x100000 + 0x80000 + 0x800 * (u - 960) + 0x40 * q)

/-- The SRC of a command's packets (R276). -/
def Core.srcOf (c : Core) (m : Cmd) : Nat :=
  if m.unit < 960 then c.tileAddr m.unit 0 + m.q * 2 ^ 28 + m.slot * 2 ^ 24
  else c.submitAddr m.unit m.q + 4 * m.slot

/-- The source unit of a SRC, its queue and in-flight-slot bits taken out (R288). -/
def srcUnit (src : Nat) : Nat :=
  if adClass src = 0 then src / 2 ^ 31 * 2 ^ 31 else src / 2 ^ 11 * 2 ^ 11

/-- The destination of a stream: a window, or the unit itself (R288). -/
def streamDst (dst : Nat) : Nat :=
  match adClass dst with
  | 0 => dst / 2 ^ 31 * 2 ^ 31
  | 1 => dst / 2 ^ 35 * 2 ^ 35
  | 2 => dst / 2 ^ 30 * 2 ^ 30
  | 3 => dst / 2 ^ 32 * 2 ^ 32
  | _ => dst / 2 ^ 42 * 2 ^ 42

/-- Whether an address names a chiplet other than this one in coordinates: plane, x, y, z or slot. For memory classes
the SLOT field is the memory space. -/
def Core.elsewhere (c : Core) (a : Nat) : Bool :=
  if adClass a = 4 ∨ adClass a = 5 then decide (a / 2 ^ 49 ≠ c.selfTop / 2 ^ 4) else decide (a / 2 ^ 45 ≠ c.selfTop)

/-- The zero fields of Table 12.2 are zero and the class is one of the table (check 1). -/
def adFormat (a : Nat) : Bool :=
  match adClass a with
  | 0 => decide (bits a 20 11 = 0) && decide (adRow a < 48) && decide (adCol a < 20)
  | 1 => decide (bits a 22 13 = 0) && decide (adSlice a < 96)
  | 2 => if adT a = 0 then decide (bits a 30 11 = 0) else decide (adPageRow a < 48) && decide (adPageCol a < 20)
  | 3 | 4 | 5 => true
  | 6 => decide (bits a 16 23 = 0)
  | _ => false

/-- A part that runs past the end of its unit (R282). -/
def adPastEnd (a n : Nat) : Bool :=
  match adClass a with
  | 0 => decide (2 ^ 20 < adTileOff a + n)
  | 1 => decide (2 ^ 22 < adSliceOff a + n)
  | _ => false

/-- The extents of the plane (check 3). -/
def Core.inExtents (c : Core) (a : Nat) : Bool :=
  decide (adX a ≤ c.rd R.PRT_SELF_XNM1) && decide (adY a ≤ c.rd R.PRT_SELF_YNM1) && decide (adZ a ≤ c.rd R.PRT_SELF_ZNM1)

/-- Window fields (Table 12.8). -/
def Core.winBase (c : Core) (w : Nat) : Nat := c.rd (R.LAR_WIN_BASELO w) + 2 ^ 16 * c.rd (R.LAR_WIN_BASEHI w)
/-- A window that is open and not closing. -/
def Core.winOpen (c : Core) (w : Nat) : Bool := decide (c.rd (R.LAR_WIN_OPEN w) = 1) && decide (c.rd (R.LAR_WIN_CLOSING w) = 0)
/-- The unit that holds a window. -/
def Core.winUnit (c : Core) (w : Nat) : Nat :=
  if c.rd (R.LAR_WIN_KIND w) = 0 then 20 * c.rd (R.LAR_WIN_ROW w) + c.rd (R.LAR_WIN_COL w) else 960 + c.rd (R.LAR_WIN_SLICE w)

/-- The unit on this die that an address names. -/
def Core.unitOf (c : Core) (a : Nat) : Nat :=
  match adClass a with
  | 0 => 20 * adRow a + adCol a
  | 1 => 960 + adSlice a
  | 2 => if adT a = 1 then 20 * adPageRow a + adPageCol a else unitSeam
  | 3 => c.winUnit (adWin a)
  | 6 => unitMailbox (adMbPort a)
  | _ => unitSeam

/-- A unit that exists, is present and lies in no parked half. -/
def Core.unitThere (c : Core) (u : Nat) : Bool :=
  (if u < 960 then c.present u else if u < 1056 then c.slicePresent (u - 960) else true) && !c.unitParked u

/-- Hub ports of a mask that are in one of some states. -/
def Core.portsIn (c : Core) (states : List Nat) (mask : Nat) : List Nat :=
  (List.range 4).filter (fun p => bit mask p && states.contains (c.rd (R.PRT_STATE_STATE p)))

/-- The interleave index of a memory address (R178). -/
def memIndex (a : Nat) : Nat :=
  let h := (List.range 8).foldl (fun h k => h ^^^ bits a (6 + 7 * k) 7) 0
  h ^^^ bits a 62 1

/-- The hub ports a memory space is reached by (R277). -/
def Core.spaceMask (c : Core) (a : Nat) : Nat :=
  if bit (c.rd R.PRT_HUBMAP_SPACEHUB) (adSlot a) then c.rd R.PRT_HUBMAP_PORTS1 else c.rd R.PRT_HUBMAP_PORTS0

/-- The fold of DST[62:45] to 7 bits with the source's router (R277). -/
def portFold (a router : Nat) : Nat :=
  (bits a 45 7 ^^^ bits a 52 7 ^^^ bits a 59 4) ^^^ router

/-- The hub port chosen for an address among those in some states (R277). -/
def Core.exitAmong (c : Core) (states : List Nat) (a router : Nat) : Option Nat :=
  let ps := c.portsIn states (if adClass a = 4 ∨ adClass a = 5 then c.spaceMask a
    else c.rd R.PRT_HUBMAP_PORTS0 ||| c.rd R.PRT_HUBMAP_PORTS1)
  ps[(if adClass a = 4 ∨ adClass a = 5 then memIndex a else portFold a router) % ps.length]?

/-- The hub port a request or response leaves the die by, if one is ACTIVE. -/
def Core.exitPort (c : Core) (a router : Nat) : Option Nat := c.exitAmong [2] a router

/-- The hub port of a request that names an address off this chiplet; none while PRT_SELF is not valid (R272). -/
def Core.wayOut (c : Core) (a router : Nat) : Option Nat := if c.rd R.PRT_SELF_VALID = 0 then none else c.exitPort a router

/-- A memory access that passes through the larder (R278). -/
def Core.cached (c : Core) (a : Nat) : Bool :=
  (decide (adClass a = 4) || decide (adClass a = 5)) && decide (adPlane a = c.rd R.PRT_SELF_PLANE)
    && decide (c.rd R.LAR_ILVCTL_BYPASS = 0)

/-- The slice a memory line belongs to (R178). -/
def Core.sliceFor (c : Core) (a : Nat) : Nat := c.rd (R.LAR_ILV_SLICE (memIndex a / 8) (memIndex a % 8))

/-- Bytes of a slice that only the crier and the tile loaders may reach (R341). -/
def Core.crierZone (c : Core) (s base n : Nat) : Bool :=
  decide (c.rd R.CH_CRCTL_SLICE = s) && decide (c.rd (R.LAR_CTL_MODE s) = 1) && decide (0x380000 < base + n)

/-- The source's checks of one part (Table 12.6, rows 1 to 4, and the end-of-unit check between 1 and 2). -/
def Core.sourceStatus (c : Core) (a n router : Nat) : Option Nat :=
  let cls := adClass a
  let own := c.rd R.PRT_SELF_PLANE
  if !adFormat a then some stFORMAT
  else if adPastEnd a n then some stBOUND
  else if adPlane a ≠ own ∧ (c.rd R.CH_HMSTAT_TWIN = 0 ∨ cls = 0 ∨ cls = 1 ∨ cls = 2) then some stDENIED
  else if (cls = 0 ∨ cls = 1) ∧ c.elsewhere a then some stDENIED
  else if c.elsewhere a && !c.inExtents a then some stFORMAT
  else if (cls = 4 ∨ cls = 5) then
    if c.rd R.PRT_SELF_VALID = 0 then some stLOST
    else if c.cached a then (if c.unitThere (960 + c.sliceFor a) then none else some stLOST)
    else if (c.wayOut a router).isNone then some stLOST else none
  else if c.elsewhere a then (if (c.wayOut a router).isNone then some stLOST else none)
  else if cls = 3 ∧ c.rd (R.LAR_WIN_OPEN (adWin a)) = 0 then some stLOST
  else if c.unitThere (c.unitOf a) then none
  else some stLOST

end Sys2Proof.Machine
end

