-- ==== Sys2Proof/Machine/ChainOps.lean ====
section
/-! DEFINITION. The chain engine's arithmetic (chapter 7): stage entries and their checks, what each stage computes
for a lane, reductions and summaries. -/

namespace Sys2Proof.Machine

/-- A stage entry (Table 7.2). -/
structure Stage where
  raw : Nat
  deriving DecidableEq, Repr

/-- The fields of Table 7.2. -/
def Stage.sop (s : Stage) : Nat := bits s.raw 0 8
def Stage.src (s : Stage) (k : Nat) : Nat := bits s.raw (8 + 4 * k) 4
def Stage.sub (s : Stage) : Nat := bits s.raw 20 4
def Stage.isat (s : Stage) : Bool := bit s.raw 24
def Stage.cache (s : Stage) : Bool := bit s.raw 25
def Stage.bs (s : Stage) : Bool := bit s.raw 26
def Stage.lstep (s : Stage) : Nat := bits s.raw 27 2
def Stage.reserved (s : Stage) : Nat := bits s.raw 29 3
def Stage.imm (s : Stage) : Nat := bits s.raw 32 32
def Stage.addr (s : Stage) : Nat := bits s.raw 64 20
def Stage.rstr (s : Stage) : Nat := bits s.raw 84 16
def Stage.saddr (s : Stage) : Nat := bits s.raw 100 20
def Stage.sstr (s : Stage) : Nat := bits s.raw 120 8
def Stage.cvt (s : Stage) : Cvt := Cvt.ofWord s.imm
/-- The format an LD or ST names. -/
def Stage.fmt (s : Stage) : Fmt := (Fmt.ofCode s.cvt.fmt).getD .fp32
/-- Lanes of a scale block. -/
def Stage.blockLanes (s : Stage) : Nat := if s.bs then 32 else 16

/-- The stage opcodes of Table 7.3 that the model names. -/
def sopLD : Nat := 0x01
def sopST : Nat := 0x02
def sopLDT : Nat := 0x03
def sopSTT : Nat := 0x04
def sopIDX : Nat := 0x08
def sopCVFI : Nat := 0x30
def sopCVIF : Nat := 0x31
def sopSEL : Nat := 0x38
def sopMSET : Nat := 0x40
def sopRSUM : Nat := 0x50
def sopRMAX : Nat := 0x51
def sopRMIN : Nat := 0x52

/-- A reduction stage. -/
def Stage.reduces (s : Stage) : Bool := decide (0x50 ≤ s.sop) && decide (s.sop ≤ 0x52)
/-- The reduction fields of ADDR (R147). -/
def Stage.rdst (s : Stage) : Nat := bits s.addr 0 3
def Stage.ren (s : Stage) : Bool := bit s.addr 3
def Stage.ridx (s : Stage) : Nat := bits s.addr 4 3
def Stage.xen (s : Stage) : Bool := bit s.addr 7
def Stage.rpos (s : Stage) : Nat := bits s.addr 8 5
/-- AXIS 1 of a reduction. -/
def Stage.axis1 (s : Stage) : Bool := bit s.sub 0

/-- How many sources a stage uses (Table 7.3); none where SOP is not in the catalogue. -/
def Stage.arity (s : Stage) : Option Nat :=
  match s.sop with
  | 0x01 | 0x03 | 0x08 => some 0
  | 0x02 | 0x04 | 0x15 | 0x18 | 0x19 | 0x1A | 0x1B | 0x1C | 0x30 | 0x31 | 0x40 | 0x50 | 0x51 | 0x52 => some 1
  | 0x10 | 0x11 | 0x12 | 0x14 | 0x16 | 0x17 | 0x1D => some 2
  | 0x20 | 0x21 | 0x22 | 0x23 | 0x24 | 0x25 | 0x26 | 0x27 | 0x28 | 0x29 | 0x2A | 0x2B => some 2
  | 0x13 | 0x38 => some 3
  | _ => none

/-- Whether SUB is defined for the stage (Table 7.3). -/
def Stage.subOk (s : Stage) : Bool :=
  match s.sop with
  | 0x03 => decide (s.sub ≤ 3)
  | 0x04 => decide (s.sub = 0) || decide (s.sub = 2)
  | 0x08 => decide (s.sub ≤ 2)
  | 0x1C | 0x1D => decide (s.sub ≤ 7)
  | 0x2B => decide (s.sub ≤ 5)
  | 0x50 | 0x51 | 0x52 => decide (s.sub ≤ 3)
  | _ => decide (s.sub = 0)

/-- A load or store stage. -/
def Stage.moves (s : Stage) : Bool := decide (s.sop = 0x01) || decide (s.sop = 0x02)

/-- A stage whose IMM holds a CVT word. -/
def Stage.converts (s : Stage) : Bool := s.moves || decide (s.sop = 0x30) || decide (s.sop = 0x31)

/-- The type of source `k`: `true` for I32; the immediate takes the type asked for, and I32 where any type would do
(log entry 11). -/
def Stage.srcTy (s : Stage) (tys : List Bool) (want : Bool) (k : Nat) : Bool :=
  if s.src k = 8 then want else nthD tys (s.src k) false

/-- The type of A of a stage that takes either: that of A, or of B for SEL with an immediate A. -/
def Stage.anyTy (s : Stage) (tys : List Bool) : Bool :=
  if s.sop = sopSEL ∧ s.src 0 = 8 then s.srcTy tys true 1 else s.srcTy tys true 0

/-- Whether operand `k` of a stage is of type FP32 where IMM stands for it (R135, log entry 11). -/
def Stage.immFp (s : Stage) (tys : List Bool) (k : Nat) : Bool :=
  if s.sop = sopSEL then decide (k ≠ 2) && !s.anyTy tys
  else if s.reduces then !bit s.sub 1
  else decide (0x10 ≤ s.sop) && decide (s.sop ≤ 0x1D)

/-- The output type of a stage: `true` for I32 (Table 7.3, Table 4.1). -/
def Stage.outTy (s : Stage) (tys : List Bool) : Bool :=
  if s.sop = 0x01 then !s.fmt.floating
  else if s.sop = 0x03 then bit s.sub 0
  else if s.sop = 0x02 ∨ s.sop = 0x04 ∨ s.sop = 0x38 ∨ s.sop = 0x40 then s.anyTy tys
  else if s.reduces then bit s.sub 1
  else decide (s.sop = 0x08) || decide (s.sop = 0x1D) || (decide (0x20 ≤ s.sop) && decide (s.sop ≤ 0x2B))
    || decide (s.sop = 0x30)

/-- The output types of a chain of stages. -/
def stageTypes (sts : List Stage) : List Bool :=
  sts.foldl (fun tys s => tys ++ [s.outTy tys]) []

/-- Whether the sources of stage `n` are earlier stages or the immediate, and unused fields are zero (R136). -/
def Stage.sourcesOk (s : Stage) (n : Nat) : Bool :=
  match s.arity with
  | none => false
  | some k =>
    (List.range 3).all (fun j =>
      if j < k then decide (s.src j < n) && decide (s.src j < 8) || (decide (s.src j = 8) && !s.converts)
      else decide (s.src j = 0))

/-- Whether the operand types of a stage are right (R136). -/
def Stage.typesOk (s : Stage) (tys : List Bool) : Bool :=
  let f := fun k => s.srcTy tys false k = false
  let i := fun k => s.srcTy tys true k = true
  if s.sop = 0x02 then decide (s.srcTy tys false 0 = !s.fmt.floating)
  else if 0x10 ≤ s.sop ∧ s.sop ≤ 0x1D then
    (List.range ((s.arity).getD 0)).all (fun k => decide (f k))
  else if 0x20 ≤ s.sop ∧ s.sop ≤ 0x2B then decide (i 0) && decide (i 1)
  else if s.sop = 0x30 then decide (f 0)
  else if s.sop = 0x31 then decide (i 0)
  else if s.sop = 0x38 then decide (i 2) && decide (s.srcTy tys (s.anyTy tys) 1 = s.anyTy tys)
  else if s.reduces then decide (s.srcTy tys (bit s.sub 1) 0 = bit s.sub 1)
  else true

/-- The checks of an LD or ST (R136, R68, R91); BS, SADDR and SSTR need a scaled format. -/
def Stage.moveOk (s : Stage) : Bool :=
  let lane : Cvt := { s.cvt with fmt := 5 }
  (match Fmt.ofCode s.cvt.fmt with
    | none => false
    | some f =>
      (if s.sop = 0x01 then lane.valid (fun _ => true) else s.cvt.valid (fun _ => true))
        && (f.scaled || (!s.bs && decide (s.saddr = 0) && decide (s.sstr = 0)))
        && decide (s.lstep ≠ 3) && (decide (f ≠ .p4) || decide (s.lstep = 0))
        && decide (s.addr % f.align = 0) && decide (s.rstr % f.align = 0))

/-- The bits of ADDR a stage does not use are reserved (R136, log entry 12). -/
def Stage.addrOk (s : Stage) : Bool :=
  if s.moves then true
  else if s.sop = 0x03 ∨ s.sop = 0x04 then decide (s.addr / 8 = 0)
  else if s.sop = 0x40 then decide (s.addr / 4 = 0) && decide (s.addr ≠ 0)
  else if s.reduces then decide (s.addr / 2 ^ 13 = 0) && (!s.axis1 || s.ren) && !(s.xen && decide (s.sop = 0x50))
  else decide (s.addr = 0)

/-- The checks of R136 on stage `n` of a command of `nr` rows. -/
def Stage.ok (s : Stage) (pwq : Nat → List Byte) (n nr : Nat) (tys : List Bool) : Bool :=
  decide (s.reserved = 0) && s.sourcesOk n && s.typesOk tys && s.subOk && s.addrOk
    && (!s.isat || decide (s.sop = 0x20) || decide (s.sop = 0x21) || decide (s.sop = 0x22)
        || (decide (s.sop = 0x50) && bit s.sub 1))
    && (s.moves || (!s.cache && !s.bs && decide (s.lstep = 0) && decide (s.rstr = 0) && decide (s.saddr = 0)
        && decide (s.sstr = 0)))
    && (!s.moves || s.moveOk)
    && (decide (s.sop ≠ 0x30) || s.cvt.valid (fun f => decide (f = .i32)))
    && (decide (s.sop ≠ 0x31) || s.cvt.valid (fun f => decide (f = .fp32)))
    && (decide (nr ≤ 32) || !(decide (s.sop = 0x03) || decide (s.sop = 0x04)
        || (s.reduces && !s.axis1 && s.ren)))
    && (decide (s.sop ≠ 0x1C) || pwqUsable (pwq s.sub))

/-- Whether a stage converts by seeded stochastic rounding (R67, R136). -/
def Stage.seeded (s : Stage) : Bool :=
  s.converts && s.cvt.seeded && (!s.moves || s.fmt.floating)

/-- All stages of a chain pass R136. -/
def stagesOk (sts : List Stage) (pwq : Nat → List Byte) (nr : Nat) : Bool :=
  let tys := stageTypes sts
  (List.range sts.length).all (fun n => (nthD sts n ⟨0⟩).ok pwq n nr (tys.take n))

/-- An FP32 lane pattern as a value. -/
def fpv (x : Nat) : NV := decodeFmt .fp32 x
/-- The FP32 pattern of a value that FP32 holds. -/
def fpCode (v : NV) : Nat := (roundFp32 v).1

/-- An FP32 pattern as it is read: subnormals as zeros of their sign, every NaN as 7FC00000h (R54). -/
def fpRead (x : Nat) : Nat := fpCode (fpv x)

/-- A quotient of finite values, rounded (R137). -/
def fpDiv (x y : NV) : Nat × NumFlags :=
  match x, y with
  | .nan, _ => (Fmt.fp32.nanCode, .none)
  | _, .nan => (Fmt.fp32.nanCode, .none)
  | .inf _, .inf _ => (Fmt.fp32.nanCode, { invalid := true })
  | .inf a, .fin b _ _ => (Fmt.fp32.infCode (a != b), .none)
  | .fin a _ _, .inf b => (Fmt.fp32.zeroCode (a != b), .none)
  | .fin a ma ea, .fin b mb eb =>
    if mb = 0 then if ma = 0 then (Fmt.fp32.nanCode, { invalid := true }) else (Fmt.fp32.infCode (a != b), { ovf := true })
    else if ma = 0 then (Fmt.fp32.zeroCode (a != b), .none)
    else convertFloat .fp32 .fp32Nearest (.fin (a != b) (ma * 2 ^ 64 / mb) (ea - eb - 64))
      (decide (ma * 2 ^ 64 % mb ≠ 0)) 0

/-- A square root, rounded (R137). -/
def fpSqrt (x : NV) : Nat × NumFlags :=
  match x with
  | .nan => (Fmt.fp32.nanCode, .none)
  | .inf n => if n then (Fmt.fp32.nanCode, { invalid := true }) else (Fmt.fp32.infCode false, .none)
  | .fin n m e =>
    if m = 0 then (Fmt.fp32.zeroCode n, .none)
    else if n then (Fmt.fp32.nanCode, { invalid := true })
    else
      let odd := e % 2
      let w := m * 2 ^ odd.toNat * 2 ^ 64
      let s := Nat.sqrt w
      convertFloat .fp32 .fp32Nearest (.fin false s ((e - odd) / 2 - 32)) (decide (s * s ≠ w)) 0

/-- `floor (2^(f / 2^64) * 2^128)` for `f < 2^64`, by square roots of two: the factor of bit `63 - i` of `f` is
`2^(2^-(i+1))`. -/
def pow2Frac : Nat → Nat → Nat → Nat → Nat
  | 0, _, _, acc => acc
  | k + 1, root, f, acc =>
    let r := Nat.sqrt (root * 2 ^ 128)
    pow2Frac k r f (if bit f k then acc * r / 2 ^ 128 else acc)

/-- The bits of `log2 (x / 2^256)` after the point, for `x` in `[2^256, 2^257)`, by squaring. -/
def log2Frac : Nat → Nat → Nat → Nat
  | 0, _, acc => acc
  | k + 1, x, acc =>
    let y := x * x / 2 ^ 256
    if 2 ^ 257 ≤ y then log2Frac k (y / 2) (2 * acc + 1) else log2Frac k y (2 * acc)

/-- One of the two FP32 values within one unit in the last place of an inexact value just above `m * 2^e` in
magnitude: the choice is the implementation's (R138). -/
def withinUlp (up : Bool) (neg : Bool) (m : Nat) (e : Int) : Nat × NumFlags :=
  let x := roundSig 24 .zero m e true 0
  (encodeNormal .fp32 neg (x.1 + b2n up) x.2.1, { inexact := true })

/-- FEXP2 (R138). -/
def fpExp2 (code : Nat) : Nat × NumFlags :=
  match fpv code with
  | .nan => (Fmt.fp32.nanCode, .none)
  | .inf true => (0, .none)
  | .inf false => (Fmt.fp32.infCode false, .none)
  | .fin n m e =>
    let x : Int := signedMag n (scaleTo m e (-64)).1
    let exact := decide ((scaleTo m e (-64)).2.1 = 0)
    let y : Int := if exact ∨ !n then x else x - 1
    if 128 * 2 ^ 64 ≤ y then (Fmt.fp32.infCode false, .overflow)
    else if y < -126 * 2 ^ 64 then (0, .underflow)
    else
      let i := y / 2 ^ 64
      let f := (y % 2 ^ 64).toNat
      if f = 0 ∧ exact then (encodeNormal .fp32 false (2 ^ 23) (i - 23), .none)
      else withinUlp (Config.expLogUp 0 (BitVec.ofNat 32 code)) false (pow2Frac 64 (2 ^ 129) f (2 ^ 128)) (i - 128)

/-- FLOG2 (R138). -/
def fpLog2 (code : Nat) : Nat × NumFlags :=
  match fpv code with
  | .nan => (Fmt.fp32.nanCode, .none)
  | .inf n => if n then (Fmt.fp32.nanCode, { invalid := true }) else (Fmt.fp32.infCode false, .none)
  | .fin n m e =>
    if m = 0 then (Fmt.fp32.infCode true, { ovf := true })
    else if n then (Fmt.fp32.nanCode, { invalid := true })
    else
      let x := leadExp m e
      if m = 2 ^ Nat.log2 m then roundFp32 (.ofInt x)
      else
        let f := log2Frac 80 (m * 2 ^ 256 / 2 ^ Nat.log2 m) 0
        let y : Int := x * 2 ^ 80 + f
        let up := Config.expLogUp 1 (BitVec.ofNat 32 code)
        if 0 ≤ y then withinUlp up false y.toNat (-80) else withinUlp up true ((-y).toNat - 1) (-80)

/-- A comparison predicate (Table 7.3, R62). -/
def predicate (sub : Nat) (o : Option Ordering) : Bool :=
  match sub, o with
  | 0, some .eq => true
  | 1, some .eq => false | 1, _ => true
  | 2, some .lt => true
  | 3, some .lt | 3, some .eq => true
  | 4, some .gt => true
  | 5, some .gt | 5, some .eq => true
  | 6, none => true
  | 7, some _ => true
  | _, _ => false

/-- An exact integer wrapped or saturated to 32 bits (R139). -/
def i32Result (sat : Bool) (i : Int) : Nat × NumFlags :=
  if sat then
    let j := clampSigned 32 i
    (unsignedOf 32 j, { invalid := decide (j ≠ i) })
  else (unsignedOf 32 i, .none)

/-- A rounded value with an invalid operation marked. -/
def fpResult (v : NV × Bool) : Nat × NumFlags :=
  let x := roundFp32 v.1
  (x.1, { x.2 with invalid := x.2.invalid || v.2 })

/-- One lane of a stage that neither moves, stores to a register nor reduces (Table 7.3); `r` is the random number
of its element. -/
def laneOp (s : Stage) (pwq : Nat → List Byte) (row lane r : Nat) (a b c : Nat) : Nat × NumFlags :=
  let x := fpv a
  let y := fpv b
  let i := signedOf 32 a
  let j := signedOf 32 b
  match s.sop with
  | 0x08 => (if s.sub = 0 then lane else if s.sub = 1 then row else 32 * row + lane, .none)
  | 0x10 => fpResult (NV.add x y)
  | 0x11 => fpResult (NV.add x y.negate)
  | 0x12 => fpResult (NV.mul x y)
  | 0x13 =>
    let p := NV.mul x y
    let q := NV.add p.1 (fpv c)
    fpResult (q.1, p.2 || q.2)
  | 0x14 => fpDiv x y
  | 0x15 => fpSqrt x
  | 0x16 => (fpCode (NV.max x y), .none)
  | 0x17 => (fpCode (NV.min x y), .none)
  | 0x18 => (fpCode (if x.neg then x.negate else x), .none)
  | 0x19 => (fpCode x.negate, .none)
  | 0x1A => fpExp2 a
  | 0x1B => fpLog2 a
  | 0x1C => roundFp32 (pwqEval (pwq s.sub) (toWorking false x))
  | 0x1D => (b2n (predicate s.sub (NV.cmp x y)), .none)
  | 0x20 => i32Result s.isat (i + j)
  | 0x21 => i32Result s.isat (i - j)
  | 0x22 => i32Result s.isat (i * j)
  | 0x23 => (unsignedOf 32 (max i j), .none)
  | 0x24 => (unsignedOf 32 (min i j), .none)
  | 0x25 => (a &&& b, .none)
  | 0x26 => (a ||| b, .none)
  | 0x27 => (a ^^^ b, .none)
  | 0x28 => (a * 2 ^ (b % 32) % 2 ^ 32, .none)
  | 0x29 => (a / 2 ^ (b % 32), .none)
  | 0x2A => (unsignedOf 32 (i / 2 ^ (b % 32)), .none)
  | 0x2B => (b2n (predicate s.sub (some (if i < j then .lt else if i = j then .eq else .gt))), .none)
  | 0x30 => let z := floatToI32 s.cvt.rmode x r; (unsignedOf 32 z.1, z.2)
  | 0x31 => convertFloat .fp32 { s.cvt with sat := false } (.ofInt i) false r
  | 0x38 => (if c = 0 then b else a, .none)
  | _ => (a, .none)

/-- Whether a lane value counts as nonzero (R144). -/
def laneNonzero (isInt : Bool) (x : Nat) : Bool := if isInt then decide (x ≠ 0) else !(fpv x).isZero

/-- The order RMAX and RMIN use (R149): -0 below +0; `none` on a NaN. -/
def redCmp (isInt : Bool) (a b : Nat) : Ordering :=
  if isInt then (if signedOf 32 a < signedOf 32 b then .lt else if signedOf 32 a = signedOf 32 b then .eq else .gt)
  else match NV.cmp (fpv a) (fpv b) with
    | some .eq =>
      if (fpv a).isZero && (fpv b).isZero then
        (if (fpv a).neg = (fpv b).neg then .eq else if (fpv a).neg then .lt else .gt)
      else .eq
    | some o => o
    | none => .eq

/-- RMAX or RMIN over indexed elements (R149): the value and the winning index. -/
def redExtreme (isMax isInt : Bool) (xs : List (Nat × Nat)) : Nat × Nat :=
  match (if isInt then none else xs.find? (fun p => decide (fpv p.2 = .nan))) with
  | some p => (Fmt.fp32.nanCode, p.1)
  | none =>
    match xs with
    | [] =>
      (if isInt then (if isMax then 0x80000000 else 0x7FFFFFFF) else Fmt.fp32.infCode isMax, 0xFFFFFFFF)
    | p :: ps =>
      let w := ps.foldl (fun best q =>
        if redCmp isInt q.2 best.2 = (if isMax then .gt else .lt) then q else best) p
      (if isInt then w.2 else fpCode (fpv w.2), w.1)

/-- RSUM over FP32 elements: the exact sum rounded once (R148). -/
def redSumFp (xs : List Nat) : Nat × NumFlags :=
  if xs.any (fun x => decide (fpv x = .nan)) then (Fmt.fp32.nanCode, .none)
  else
    match xs with
    | [] => (0, .none)
    | x :: rest => fpResult (rest.foldl (fun acc y => let z := NV.add acc.1 (fpv y); (z.1, acc.2 || z.2)) (fpv x, false))

/-- A reduction over indexed active elements: the value, the index and the flags (R147 to R149). -/
def reduce (s : Stage) (xs : List (Nat × Nat)) : Nat × Nat × NumFlags :=
  let isInt := bit s.sub 1
  if s.sop = 0x50 then
    let z := if isInt then i32Result s.isat ((xs.map (fun p => signedOf 32 p.2)).foldl (· + ·) 0)
      else redSumFp (xs.map (·.2))
    (z.1, 0xFFFFFFFF, z.2)
  else
    let z := redExtreme (decide (s.sop = 0x51)) isInt xs
    (z.1, z.2, .none)

/-- A summary (R150): the words CHN_SUMA and CHN_SUMB over the indexed active elements of a stage. -/
def summarise (isInt : Bool) (xs : List (Nat × Nat)) : Nat × Nat :=
  let nz := xs.filter (fun p => laneNonzero isInt p.2)
  let first := (nz.head?.map (·.1)).getD 0x3FFFF
  (1 + 2 * b2n (!nz.isEmpty) + 4 * b2n (decide (nz.length = xs.length)) + 8 * b2n isInt + 16 * nz.length + 2 ^ 22 * first,
    (redExtreme true isInt xs).1 + 2 ^ 32 * (redExtreme false isInt xs).1)

end Sys2Proof.Machine
end

