-- ==== Sys2Proof/Machine/Code.lean ====
section
/-! DEFINITION. The Reed–Solomon codes of R173 and R219: arithmetic in GF(2^8), syndromes of an error pattern, and
what each decoder makes of it. The code is linear, so a decoder's answer depends on the errors alone. Symbol `p` of a
codeword has the locator `α^p` (log entry 9). -/

namespace Sys2Proof.Machine

/-- Multiplication by `x` in GF(2^8) modulo `x^8 + x^4 + x^3 + x^2 + 1`. -/
def gfDouble (a : Nat) : Nat := if a < 128 then 2 * a else (2 * a) ^^^ 0x11D

/-- The product, over the low `k` bits of the second factor. -/
def gfMulAux : Nat → Nat → Nat → Nat
  | 0, _, _ => 0
  | k + 1, a, b => (if b % 2 = 1 then a else 0) ^^^ gfMulAux k (gfDouble a) (b / 2)

/-- The product in GF(2^8). -/
def gfMul (a b : Nat) : Nat := gfMulAux 8 a b

/-- A power in GF(2^8). -/
def gfPow (a : Nat) : Nat → Nat
  | 0 => 1
  | n + 1 => gfMul a (gfPow a n)

/-- The inverse of a nonzero element. -/
def gfInv (a : Nat) : Nat :=
  let a2 := gfMul a a
  let a4 := gfMul a2 a2
  let a8 := gfMul a4 a4
  let a16 := gfMul a8 a8
  let a32 := gfMul a16 a16
  let a64 := gfMul a32 a32
  let a128 := gfMul a64 a64
  gfMul a2 (gfMul a4 (gfMul a8 (gfMul a16 (gfMul a32 (gfMul a64 a128)))))

/-- The locator of symbol `p`: `α^p`, with `α = 2`. -/
def locator (p : Nat) : Nat := gfPow 2 p

/-- Syndrome `j` of an error pattern: the sum of `v · α^(j p)`. -/
def syndrome (j : Nat) (es : List (Nat × Nat)) : Nat :=
  es.foldl (fun s e => s ^^^ gfMul e.2 (gfPow (locator e.1) j)) 0

/-- An error pattern with the value `v` added at symbol `p`. -/
def addError (es : List (Nat × Nat)) (p v : Nat) : List (Nat × Nat) :=
  SMap.set 0 es p (SMap.get 0 es p ^^^ v)

/-- What a decoder makes of an error pattern: the errors left in the word it delivers and how many symbols it
corrected, or that the word is uncorrectable. -/
inductive Decoded where
  | word (left : List (Nat × Nat)) (corrected : Nat)
  | uncorrectable
  deriving DecidableEq, Repr

/-- The symbol a single-error decoder names, over `n` symbols and `r` check symbols. -/
def singlePlace (n r : Nat) (es : List (Nat × Nat)) : Option Nat :=
  if syndrome 0 es = 0 then none
  else (List.range n).find? (fun p =>
    (List.range (r - 1)).all (fun j => syndrome (j + 1) es == gfMul (locator p) (syndrome j es)))

/-- Every syndrome is zero: the word is a codeword. -/
def cleanWord (r : Nat) (es : List (Nat × Nat)) : Bool := (List.range r).all (fun j => syndrome j es == 0)

/-- A decoder that corrects one symbol: the activation class (`r = 4`, 68 symbols, R173) and the hop and frame codes
(`r = 2`, R219). -/
def decodeOne (n r : Nat) (es : List (Nat × Nat)) : Decoded :=
  if cleanWord r es then .word es 0
  else match singlePlace n r es with
    | some p => .word (addError es p (syndrome 0 es)) 1
    | none => .uncorrectable

/-- The pair of symbols a two-error decoder names: `S2 = (X+Y) S1 + XY S0` and `S3 = (X+Y) S2 + XY S1`. -/
def pairPlace (es : List (Nat × Nat)) : Option (Nat × Nat) :=
  let s := fun j => syndrome j es
  ((List.range 68).flatMap (fun p => (List.range p).map (fun q => (q, p)))).find? (fun pq =>
    let x := locator pq.1
    let y := locator pq.2
    s 2 == gfMul (x ^^^ y) (s 1) ^^^ gfMul (gfMul x y) (s 0)
      && s 3 == gfMul (x ^^^ y) (s 2) ^^^ gfMul (gfMul x y) (s 1))

/-- The weight class's decoder: up to two symbols (R173). -/
def decodeTwo (es : List (Nat × Nat)) : Decoded :=
  match decodeOne 68 4 es with
  | .word l k => .word l k
  | .uncorrectable =>
    match pairPlace es with
    | none => .uncorrectable
    | some (p, q) =>
      let x := locator p
      let y := locator q
      let vq := gfMul (syndrome 1 es ^^^ gfMul x (syndrome 0 es)) (gfInv (x ^^^ y))
      .word (addError (addError es p (syndrome 0 es ^^^ vq)) q vq) 2

/-- The symbols of a block on a link: `len` data symbols and the check symbols 64 and 65; the padding between is zero and
holds no error (R219). -/
def hopSymbols (len : Nat) : List Nat := List.range (min len 64) ++ [64, 65]

/-- The decoder of a block on a link (R219). -/
def decodeHop (len : Nat) (es : List (Nat × Nat)) : Decoded :=
  if cleanWord 2 es then .word es 0
  else if syndrome 0 es = 0 then .uncorrectable
  else match (hopSymbols len).find? (fun p => syndrome 1 es == gfMul (locator p) (syndrome 0 es)) with
    | some p => .word (addError es p (syndrome 0 es)) 1
    | none => .uncorrectable

/-- The same with bytes marked as erasures (R247): one or two are filled in where the syndromes allow it. -/
def decodeErased (len : Nat) (es : List (Nat × Nat)) (erased : List Nat) : Decoded :=
  let s0 := syndrome 0 es
  let s1 := syndrome 1 es
  match erased.dedup with
  | [] => decodeHop len es
  | [p] => if s1 = gfMul (locator p) s0 ∧ s0 ≠ 0 then .word (addError es p s0) 1 else decodeHop len es
  | [p, q] =>
    let vq := gfMul (s1 ^^^ gfMul (locator p) s0) (gfInv (locator p ^^^ locator q))
    if cleanWord 2 es then .word es 0 else .word (addError (addError es p (s0 ^^^ vq)) q vq) 1
  | _ => .uncorrectable

/-- Bytes with the errors of a delivered word left in them; symbol `i` is byte `i`. -/
def withErrors (bs : List Byte) (left : List (Nat × Nat)) : List Byte :=
  left.foldl (fun bs e => bs.modify e.1 (fun b => b ^^^ BitVec.ofNat 8 e.2)) bs

end Sys2Proof.Machine
end

