-- ==== Sys2Proof/Machine/TileMem.lean ====
section
/-! DEFINITION. Tile memory (chapter 8): queue base and bound, bank classes, regions, slot tags and the error code, as
every access meets them. -/

namespace Sys2Proof.Machine

/-! ## Bound and bank (R160, R162) -/

/-- The engine classes of Table 8.2. -/
def clsBobbin : Nat := 1
def clsChain : Nat := 2
def clsMover : Nat := 3
def clsSeq : Nat := 4

/-- The byte address of an offset of a queue (R160). -/
def Cmd.phys (m : Cmd) (off : Nat) : Nat := bits m.memq 0 14 * 64 + off
/-- Whether `n` bytes at an offset lie within the queue's bound (R160). -/
def Cmd.inBound (m : Cmd) (off n : Nat) : Bool := decide (off + n ≤ bits m.memq 15 15 * 64)

/-- The units of `2^k` bytes that `n` bytes at `p` touch. -/
def touched (k p n : Nat) : List Nat :=
  if n = 0 then [] else (List.range ((p + n - 1) / 2 ^ k + 1 - p / 2 ^ k)).map (fun i => p / 2 ^ k + i)

/-- The class a bank map gives a bank (Table 8.4). -/
def bankClass (bmap b : Nat) : Nat := bits bmap (3 * b) 3

/-- Whether every bank that `n` bytes at an offset touch is bound to the class and reachable by the queue (R162). -/
def Cmd.bankOk (m : Cmd) (cls off n : Nat) : Bool :=
  (touched 16 (m.phys off) n).all (fun b => decide (bankClass m.bmap b = cls) && bit (bits m.memq 32 16) b)

/-- Whether a bank change keeps a command's accesses to a bank waiting (R163): one that did not pass its checks before
the write. -/
def Core.bankHeld (c : Core) (m : Cmd) (p n : Nat) : Bool :=
  c.tiles.pend.any (fun b => decide (b.tile = m.unit) && (touched 16 p n).contains b.bank && !b.cmds.contains m.id)

/-- The class that serves inbound parts at a bank: the old one while a change is under way (R163). DESIGN CHOICE (log entry
72): so too for a part that arrives meanwhile, which R163 does not name; it is judged by the old class, and PEND does not
wait for it. -/
def Core.servedClass (c : Core) (t b : Nat) : Nat :=
  match c.tiles.pend.find? (fun x => decide (x.tile = t) && decide (x.bank = b)) with
  | some x => x.old
  | none => c.trd t (R.MEM_BANKMAP_CLASS b)

/-! ## Regions (R168, R169) -/

/-- The valid region that covers a segment. -/
def Core.regionOf (c : Core) (t seg : Nat) : Option Nat :=
  (List.range 16).find? (fun n =>
    decide (c.trd t (R.MEM_RGN_VALID n) = 1) && decide (c.trd t (R.MEM_RGN_START n) ≤ seg)
      && decide (seg < c.trd t (R.MEM_RGN_START n) + c.trd t (R.MEM_RGN_COUNT n)))

/-- A region that is LIT and SETTLED. -/
def Core.rgnLit (c : Core) (t n : Nat) : Bool :=
  decide (c.trd t (R.MEM_RGN_MODE n) = 0) && decide (c.trd t (R.MEM_RGN_STATE n) = 0)

/-- Whether a pass of the self-test has covered a segment's half: untested segments behave as DARK (R168, R356). A bank a
pass could not repair is retired, and refuses by that. -/
def Core.segTested (c : Core) (_t seg : Nat) : Bool := if seg < 32 then c.led.passLow.isSome else c.led.passHigh.isSome

/-- Whether a tile's bank is retired (R374). -/
def Core.bankRetired (c : Core) (t b : Nat) : Bool :=
  bit (c.rd (R.LDG_TBANK_RETIRED (t / 20) (physCol (c.rd (R.LDG_FP_ROW_BAD (t / 20))) (t % 20)))) b

/-- Whether a segment is accessible (R168, R169, R374). -/
def Core.segLit (c : Core) (t seg : Nat) : Bool :=
  !c.bankRetired t (seg / 4) && match c.regionOf t seg with
    | some n => c.rgnLit t n
    | none => c.segTested t seg

/-- The refusal of an access by reduced service or by its segments' modes (R169). -/
def Core.modeStatus (c : Core) (t p n : Nat) : Option Nat :=
  if c.reduced && (touched 16 p n).any (fun b => decide (8 ≤ b)) then some stDENIED
  else if (touched 14 p n).all (c.segLit t) then none
  else some stDARK

/-- A region's property at a slot: the region of a tagged slot. -/
def Core.taggedRegion (c : Core) (t slot : Nat) : Option Nat :=
  match c.regionOf t (slot / 64) with
  | some n => if c.trd t (R.MEM_RGN_TAG n) = 1 then some n else none
  | none => none

/-- Whether reads of a slot consume it (R166). -/
def Core.consuming (c : Core) (t slot : Nat) : Bool :=
  match c.taggedRegion t slot with
  | some n => decide (c.trd t (R.MEM_RGN_CONSUME n) = 1)
  | none => false

/-- Whether a line is of the weight class (R168, R173). -/
def Core.weightLine (c : Core) (t line : Nat) : Bool :=
  match c.regionOf t (line / 256) with
  | some n => decide (c.trd t (R.MEM_RGN_WCLASS n) = 1)
  | none => false

/-! ## Tags (R165, R166) -/

/-- A slot's tag. -/
def Core.tag (c : Core) (t slot : Nat) : Tag := SMap.get .empty c.tiles.tags (t * 4096 + slot)
/-- A slot's tag changed. -/
def Core.setTag (c : Core) (t slot : Nat) (x : Tag) : Core :=
  { c with tiles := { c.tiles with tags := SMap.set .empty c.tiles.tags (t * 4096 + slot) x } }
/-- The tags of slots set alike. -/
def Core.setTags (c : Core) (t : Nat) (slots : List Nat) (x : Tag) : Core :=
  slots.foldl (fun c s => c.setTag t s x) c

/-- What a tag does to an access. -/
inductive TagAns where
  | go | wait (slot : Nat) | fail
  deriving DecidableEq, Repr

/-- What `n` bytes at `p` are cut into at slot boundaries. -/
def slotChunks (p n : Nat) : List (Nat × Nat) :=
  (touched 8 p n).map (fun s => (max p (256 * s), min (p + n) (256 * (s + 1)) - max p (256 * s)))

/-- The tags of the slots a read touches: a FAILED slot fails it, any other slot not FULL makes it wait (Table 8.5). -/
def Core.readTags (c : Core) (t p n : Nat) : TagAns :=
  let ss := (touched 8 p n).filter (fun s => (c.taggedRegion t s).isSome)
  if ss.any (fun s => decide (c.tag t s = .failed)) then .fail
  else match ss.find? (fun s => decide (c.tag t s ≠ .full)) with
    | some s => .wait s
    | none => .go

/-- Whether a writer may have a slot: it is EMPTY or FAILED, or already its own (Table 8.5). -/
def Core.claimable (c : Core) (t slot owner : Nat) : Bool :=
  match c.taggedRegion t slot with
  | none => true
  | some _ => match c.tag t slot with
    | .full => false
    | .claimed o => decide (o = owner)
    | _ => true

/-- The tagged slots that `n` bytes at `p` touch. -/
def Core.taggedSlots (c : Core) (t p n : Nat) : List Nat := (touched 8 p n).filter (fun s => (c.taggedRegion t s).isSome)

/-- A claim's end: FULL where the writer succeeds; where it fails, FAILED for slots it wrote into, EMPTY for the rest
(R166). Slots of regions no longer tagged have no tag. -/
def Core.endClaims (c : Core) (t : Nat) (claims wrote : List Nat) (ok : Bool) : Core :=
  claims.foldl (fun c s =>
    if (c.taggedRegion t s).isSome then
      c.setTag t s (if ok then .full else if wrote.contains s then .failed else .empty)
    else c) c

/-- Consumption: slots found FULL become EMPTY (R166). -/
def Core.consume (c : Core) (t : Nat) (slots : List Nat) : Core :=
  slots.foldl (fun c s => if c.consuming t s && decide (c.tag t s = .full) then c.setTag t s .empty else c) c

/-! ## Lines and the error code (R173, R174) -/

/-- The error-pattern key of a tile's line. -/
def lineId (t line : Nat) : Nat := t * 2 ^ 14 + line
/-- The key of an operand-cache line. -/
def cacheLineId (t line : Nat) : Nat := 2 ^ 24 + t * 2 ^ 10 + line
/-- The key of a larder scratchpad line. -/
def sliceLineId (s line : Nat) : Nat := 2 ^ 25 + s * 2 ^ 16 + line

/-- The symbol errors standing in a line. -/
def Mach.lineErrs (m : Mach) (id : Nat) : List (Nat × Nat) := SMap.get [] m.errs id
/-- A line re-encoded: no error stands in it, and no write-back waits. -/
def Mach.clearErrs (m : Mach) (id : Nat) : Mach :=
  { m with errs := SMap.set [] m.errs id [], corr := m.corr.filter (fun x => decide (x ≠ id)) }

/-- The decoder of a class. -/
def decodeLine (weight : Bool) (es : List (Nat × Nat)) : Decoded := if weight then decodeTwo es else decodeOne 68 4 es

/-- An uncorrectable line found: UNCORR, MEM_UEADDR and a record of code 45h (R174, R384). -/
def Core.foundUncorrectable (c : Core) (t line : Nat) : Core :=
  let c := c.tbump t R.MEM_ERRCNT_UNCORR 1
  let c := if c.trd t R.MEM_UEADDR_VALID = 0 then (c.twr t R.MEM_UEADDR_LINE line).twr t R.MEM_UEADDR_VALID 1 else c
  c.corrected 0x45 4 (faultUnit t) line

/-- The counts of a corrected line of tile memory or operand cache (Table 8.7). -/
def Core.countCorrected (c : Core) (t k : Nat) : Core :=
  if k = 1 then c.tbump t R.MEM_ERRCNT_CORR1 1 else if k = 2 then c.tbump t R.MEM_ERRCNT_CORR2 1 else c

/-- A line's row called for remapping (R372): of a tile, or of slice `u - 960`. -/
def Core.callRow (c : Core) (u line : Nat) : Core :=
  let r := (u, line / 1024, line % 1024)
  if c.led.called.contains r then c else { c with led := { c.led with called := c.led.called ++ [r] } }

/-- The symbols a decoder changed. -/
def fixedSymbols (es left : List (Nat × Nat)) : List Nat :=
  ((es.map (·.1)) ++ (left.map (·.1))).dedup.filter (fun p => decide (SMap.get 0 es p ≠ SMap.get 0 left p))

/-- Corrections of a line noted (R372): a single symbol in this WINDOW, in ms; two symbols call the row. -/
def Core.noteFixed (c : Core) (u line : Nat) (ps : List Nat) : Core :=
  let fresh := decide (c.rd R.LDG_THRESH_WINDOW * 1000000 ≤ c.now - c.led.window)
  let led := if fresh then { c.led with noted := [], window := c.now } else c.led
  let c := { c with led := led }
  match ps with
  | [] => c
  | [p] => { c with led := { c.led with noted := c.led.noted ++ [⟨u, line / 1024, line % 1024, p, false, false⟩] } }
  | _ => c.callRow u line

/-- One line read and decoded: its 64 bytes, or none where it is uncorrectable. `t` is the tile that counts it. The operand
cache has no spare rows. -/
def Mach.readLine (m : Mach) (t id base line : Nat) (weight : Bool) : Mach × Option (List Byte) :=
  let es := m.lineErrs id
  if es = [] then (m, some (m.read base 64))
  else match decodeLine weight es with
    | .word l k =>
      let c := m.core.countCorrected t k
      ({ m with core := if id < 2 ^ 24 then c.noteFixed t line (fixedSymbols es l) else c, corr := if k = 0 || m.corr.contains id then m.corr else m.corr ++ [id] },
        some (withErrors (m.read base 64) l))
    | .uncorrectable =>
      let c := m.core.foundUncorrectable t line
      ({ m with core := if id < 2 ^ 24 then c.callRow t line else c }, none)

/-- Lines read in order, each by `f`, up to the first that is uncorrectable. -/
def readInOrder (f : Mach → Nat → Mach × Option (List Byte)) (m : Mach) : List Nat → Mach × Option (List Byte)
  | [] => (m, some [])
  | line :: rest =>
    match f m line with
    | (m, none) => (m, none)
    | (m, some bs) =>
      let r := readInOrder f m rest
      (r.1, r.2.map (fun more => bs ++ more))

/-- The `n` bytes at `p` of the lines that hold them, each read by `f`. -/
def readSpan (f : Mach → Nat → Mach × Option (List Byte)) (m : Mach) (p n : Nat) : Mach × Option (List Byte) :=
  let r := readInOrder f m (touched 6 p n)
  (r.1, r.2.map (fun bs => (bs.drop (p % 64)).take n))

/-- Bytes of tile memory read through the code (R173, R174); none where a line is uncorrectable. -/
def Mach.tileRead (m : Mach) (t p n : Nat) : Mach × Option (List Byte) :=
  readSpan (fun m line => m.readLine t (lineId t line) (tileBase t + 64 * line) line (m.core.weightLine t line)) m p n

/-- The bytes to be written at `p` cut at line boundaries: each line, the place in it and the bytes. -/
def lineChunks (p : Nat) (bs : List Byte) : List (Nat × Nat × List Byte) :=
  (touched 6 p bs.length).map (fun line =>
    let lo := max p (64 * line)
    (line, lo - 64 * line, (bs.drop (lo - p)).take (64 * (line + 1) - lo)))

/-- A line written: whole, or merged into what it decodes to (R173); false where that read is uncorrectable. -/
def Mach.writeLine (m : Mach) (t id base line : Nat) (weight : Bool) (at' : Nat) (bs : List Byte) : Mach × Bool :=
  if bs.length = 64 then ((m.write base bs).clearErrs id, true)
  else match m.readLine t id base line weight with
    | (m, none) => (m, false)
    | (m, some old) => ((m.write base (splice 0 old at' bs)).clearErrs id, true)

/-- Bytes written to tile memory, line by line; false at the first line whose merge fails, which is left unchanged. -/
def Mach.tileWrite (m : Mach) (t p : Nat) (bs : List Byte) : Mach × Bool :=
  (lineChunks p bs).foldl (fun (acc : Mach × Bool) ch =>
    if acc.2 then acc.1.writeLine t (lineId t ch.1) (tileBase t + 64 * ch.1) ch.1 (acc.1.core.weightLine t ch.1) ch.2.1 ch.2.2
    else acc) (m, true)

/-! ## A local command's accesses -/

/-- The answer to a local access. -/
inductive Ans (α : Type) where
  | ok (m : Mach) (v : α)
  | wait (m : Mach) (slot : Nat)
  | held
  | fail (m : Mach) (st : Nat)
  deriving DecidableEq, Repr

/-- The refusals of a local access, in their order: bound, bank, reduced service, region (R95, R152, R169). -/
def Core.localStatus (c : Core) (m : Cmd) (cls off n : Nat) : Option Nat :=
  if !m.inBound off n then some stBOUND
  else if !m.bankOk cls off n then some stBANK
  else c.modeStatus m.unit (m.phys off) n

/-- One access after another. -/
def Ans.bind {α β : Type} (a : Ans α) (f : Mach → α → Ans β) : Ans β :=
  match a with
  | .ok m v => f m v
  | .wait m s => .wait m s
  | .held => .held
  | .fail m st => .fail m st

/-- The bytes of a chunk that a waiting read of a command has reached already. -/
def Core.seenAt (c : Core) (x : Cmd) (p n : Nat) : Option (List Byte) :=
  (c.queues.seen.find? (fun e => decide (e.cmd = x.id) && decide (e.addr = p) && decide (e.bytes.length = n))).map Seen.bytes

/-- A chunk reached by a read that goes on to wait. -/
def Core.noteSeen (c : Core) (x : Cmd) (p : Nat) (bs : List Byte) : Core :=
  if (c.seenAt x p bs.length).isSome then c
  else { c with queues := { c.queues with seen := c.queues.seen ++ [⟨x.id, p, bs⟩] } }

/-- What a command's reads have reached, dropped: all of it, or that at some places. -/
def Core.dropSeen (c : Core) (x : Cmd) (at' : Nat → Bool) : Core :=
  { c with queues := { c.queues with seen := c.queues.seen.filter (fun e => !(decide (e.cmd = x.id) && at' e.addr)) } }

/-- Whether a read still has to enter a slot tagged FAILED. -/
def Core.meetsFailed (c : Core) (x : Cmd) (p n : Nat) : Bool :=
  (slotChunks p n).any (fun r => (c.seenAt x r.1 r.2).isNone && decide (c.readTags x.unit r.1 r.2 = .fail))

/-- One slot's share of a read: what it reached before, or the bytes as they stand. -/
def Mach.readSlot (m : Mach) (x : Cmd) (p n : Nat) : Ans (List Byte) :=
  match m.core.seenAt x p n with
  | some bs => .ok m bs
  | none => match m.core.readTags x.unit p n with
    | .fail => .fail m stFAILED
    | .wait s => .wait m s
    | .go => match m.tileRead x.unit p n with
      | (m, some bs) => .ok m bs
      | (m, none) => .fail m stUNCORR

/-- A read slot by slot: a wait keeps the bytes of the slots already reached (R165). -/
def Mach.readChunks (m : Mach) (x : Cmd) : List (Nat × Nat) → Ans (List Byte)
  | [] => .ok m []
  | r :: rs =>
    (m.readSlot x r.1 r.2).bind (fun m bs =>
      match m.readChunks x rs with
      | .wait m s => .wait (m.onCore (fun c => c.noteSeen x r.1 bs)) s
      | a => a.bind (fun m more => .ok m (bs ++ more)))

/-- A local read (R95, R152, R165, R174); its checks of bound and bank are not repeated where the head made them. A slot
tagged FAILED anywhere in it ends it, whatever the slots before it hold (log entry 68). -/
def Mach.localRead (m : Mach) (x : Cmd) (cls off n : Nat) : Ans (List Byte) :=
  match m.core.localStatus x cls off n with
  | some st => .fail m st
  | none =>
    let p := x.phys off
    if m.core.bankHeld x p n then .held
    else if m.core.meetsFailed x p n then .fail m stFAILED
    else (m.readChunks x (slotChunks p n)).bind (fun m bs =>
      .ok (if m.core.queues.seen = [] then m else m.onCore (fun c => c.dropSeen x (fun a => decide (p ≤ a) && decide (a < p + n)))) bs)

/-- The tagged slots a read consumes at its command's success. -/
def Core.readSlots (c : Core) (x : Cmd) (off n : Nat) : List Nat :=
  (touched 8 (x.phys off) n).filter (c.consuming x.unit)

/-- One write of a command within one slot: the slot claimed where it is tagged, then the bytes (R165, R173). -/
def Mach.localWrite (m : Mach) (x : Cmd) (p : Nat) (bs : List Byte) : Ans Cmd :=
  let s := p / 256
  match m.core.modeStatus x.unit p bs.length with
  | some st => .fail (m.onCore (fun c => c.putCmd x)) st
  | none =>
    if m.core.bankHeld x p bs.length then .held
    else if !m.core.claimable x.unit s x.owner then .wait m s
    else
      let tagged := (m.core.taggedRegion x.unit s).isSome
      let claim := fun (y : Cmd) => if tagged && !y.claims.contains s then { y with claims := y.claims ++ [s] } else y
      let m := if tagged then m.onCore (fun c => c.setTag x.unit s (.claimed x.owner)) else m
      let x := claim x
      match m.tileWrite x.unit p bs with
      | (m, true) => .ok m { x with committed := true, wrote := if tagged && !x.wrote.contains s then x.wrote ++ [s] else x.wrote }
      | (m, false) => .fail (m.onCore (fun c => c.putCmd x)) stUNCORR

/-- Pending bytes cut into runs that stay within one line: each run's address and bytes, in order. -/
def runsOf : List (Nat × Byte) → List (Nat × List Byte)
  | [] => []
  | (a, b) :: rest =>
    match runsOf rest with
    | (a', bs) :: more => if a + 1 = a' ∧ a / 64 = a' / 64 then (a, b :: bs) :: more else (a, [b]) :: (a', bs) :: more
    | [] => [(a, [b])]

/-- A command's pending runs written in order, until one waits or fails; what is left stays pending. -/
def Mach.landRuns (m : Mach) (x : Cmd) : List (Nat × List Byte) → Ans Cmd
  | [] => .ok m { x with out := [], wait := none }
  | (p, bs) :: rest =>
    match m.localWrite x p bs with
    | .ok m x => m.landRuns { x with out := x.out.drop bs.length } rest
    | .wait m s => .wait (m.onCore (fun c => c.putCmd { x with wait := some ⟨s, true⟩ })) s
    | .held => .held
    | .fail m st => .fail m st

end Sys2Proof.Machine
end

