-- ==== Sys2Proof/Machine/Checks.lean ====
section
/-! DEFINITION. The head-of-queue checks of every command (R184, R191, R199) and the number of its parts (R192). -/

namespace Sys2Proof.Machine

/-- Whether bytes 8 to 31 hold nothing outside the named fields (R10). -/
def onlyFields (w : Nat) (fs : List (Nat × Nat)) : Bool :=
  decide ((fs.foldl (fun x f => setBits x f.1 f.2 0) w) / 2 ^ 64 = 0)

/-- The opcodes a queue runs (Table 9.1). -/
def opcodeAllowed (u q op : Nat) : Bool :=
  if u < 960 then
    if q < 4 then decide (op ∈ [0x10, 0x00])
    else if q = 4 then decide (op ∈ [0x20, 0x21, 0x00])
    else if q = 5 then decide (op ∈ [0x30, 0x33, 0x34, 0x38, 0x39, 0x3C, 0x3D, 0x3E, 0x00])
    else if q = 6 then decide (op ∈ [0x31, 0x32, 0x00])
    else decide (op ∈ [0x01, 0x02, 0x03, 0x04, 0x05, 0x07, 0x08, 0x09, 0x0B, 0x00])
  else if u < 1056 then decide (op ∈ [0x33, 0x3C, 0x3D, 0x3E, 0x01, 0x02, 0x00])
  else decide (op ∈ [0x30, 0x31, 0x33, 0x34, 0x01, 0x02, 0x00])

/-- The in-flight limit of a queue (Table 9.1). -/
def inflightLimit (u q : Nat) : Nat :=
  if u < 960 then if q < 4 then 3 else if q = 4 then 1 else if q < 7 then 16 else 1
  else if u < 1056 then 8 else 16

/-- Whether a queue's commands complete in list order (Table 9.1). -/
def listOrder (u q : Nat) : Bool := decide (u < 960) && (decide (q ≤ 4) || decide (q = 7))

/-- The header's own checks (R10, R184, R191). -/
def Cmd.headerOk (m : Cmd) : Bool :=
  opcodeAllowed m.unit m.q m.opcode && decide (bits m.word 12 4 = 0) && decide (bits m.word 52 12 = 0)
    && (decide (m.waitN ≠ 0) || decide (m.waitT = 0)) && (m.sigen || decide (m.sigT = 0))

/-! ## Matrix command (Tables 5.1 and 5.2) -/

/-- The fields of Table 5.1. -/
def mmaAFmt (w : Nat) : Fmt := (Fmt.ofCode (bits w 100 4)).getD .e8
def mmaBFmt (w : Nat) : Fmt := (Fmt.ofCode (bits w 124 4)).getD .e8
def mmaK (w : Nat) : Nat := 16 * (bits w 184 8 + 1)
def mmaBlock (w : Nat) : Nat := if bit w 216 then 32 else 16
def mmaPass (w : Nat) : Nat := bits w 217 2
def mmaFA (w : Nat) : Bool := bit w 219
def mmaFaOff (w : Nat) : Nat := bits w 220 14 * 64
def mmaExport (w : Nat) : Bool := bit w 234
def mmaDOff (w : Nat) : Nat := bits w 236 14 * 64
/-- The 8-bit path. -/
def mma8 (w : Nat) : Bool := (mmaAFmt w).scaled
/-- The path's code in a record (Table 6.9). -/
def mmaPath (w : Nat) : Nat := if !mma8 w then 2 else if mmaAFmt w = .p8b then 1 else 0

/-- R93. -/
def mmaFormatOk (w : Nat) : Bool :=
  pairable (mmaAFmt w) (mmaBFmt w) && decide (bits w 250 6 = 0)
    && (if mma8 w then decide (mmaPass w = 0) && !(bit w 216 && decide (bits w 184 8 % 2 = 0))
        else !bit w 216 && decide (bits w 104 20 = 0) && decide (bits w 164 20 = 0) && decide (bits w 192 12 = 0)
          && decide (bits w 204 12 = 0))
    && decide (mmaPass w ≠ 3) && decide (bits w 234 2 < 2) && (mmaFA w || decide (bits w 220 14 = 0))
    && decide (bits w 64 20 % (mmaAFmt w).align = 0) && decide (bits w 84 16 % (mmaAFmt w).align = 0)
    && decide (bits w 128 20 % (mmaBFmt w).align = 0) && decide (bits w 148 16 % (mmaBFmt w).align = 0)

/-- The byte runs a matrix command reads: each its offset and length (R91, R92, R98). -/
def mmaRuns (w : Nat) : List (Nat × Nat) :=
  let k := mmaK w
  let rows := List.range 32
  rows.map (fun i => (bits w 64 20 + i * bits w 84 16, (mmaAFmt w).arrayBytes k))
    ++ rows.map (fun j => (bits w 128 20 + j * bits w 148 16, (mmaBFmt w).arrayBytes k))
    ++ (if mma8 w then
          rows.map (fun i => (bits w 104 20 + i * bits w 192 12, k / mmaBlock w))
            ++ rows.map (fun j => (bits w 164 20 + j * bits w 204 12, k / mmaBlock w))
        else [])
    ++ (if mmaFA w then [(mmaFaOff w, 128)] else [])
    ++ (if mmaExport w then [] else [(mmaDOff w, 64)])

/-- The record a matrix command exports. -/
def mmaExports (w : Nat) : List (Nat × Nat) := if mmaExport w then [(mmaDOff w, 8896)] else []

/-- Whether every run lies in the queue's bound. -/
def Cmd.boundAll (m : Cmd) (rs : List (Nat × Nat)) : Bool := rs.all (fun r => m.inBound r.1 r.2)
/-- Whether every run lies in banks of the class. -/
def Cmd.bankAll (m : Cmd) (cls : Nat) (rs : List (Nat × Nat)) : Bool := rs.all (fun r => m.bankOk cls r.1 r.2)

/-- Table 5.2, rows 1 to 4. -/
def Core.mmaHead (c : Core) (m : Cmd) : Option Nat :=
  if !mmaFormatOk m.word then some stFORMAT
  else if (mmaPass m.word ≠ 0 ∧ (c.trd m.unit R.LOOM_CAP_PASS23 = 0 ∨ c.reduced)) ∨ c.rd R.CH_BELLCFG_ROLE = 3 then some stDENIED
  else if !(m.boundAll (mmaRuns m.word) && m.boundAll (mmaExports m.word)) then some stBOUND
  else if !(m.bankAll clsBobbin (mmaRuns m.word) && m.bankAll clsChain (mmaExports m.word)) then some stBANK
  else none

/-! ## Drain descriptors (R123, R124) -/

/-- The bytes of one run of output. -/
def DrainDesc.runBytes (d : DrainDesc) : Nat := d.fmt.arrayBytes 32
/-- The output runs. -/
def DrainDesc.outRuns (d : DrainDesc) : List (Nat × Nat) :=
  (List.range 32).map (fun r => (d.outBase + r * d.outStr, d.runBytes))
/-- The output scales. -/
def DrainDesc.scaleRuns (d : DrainDesc) : List (Nat × Nat) :=
  if d.fmt.scaled then (List.range 32).map (fun r => (d.oscBase + r * d.oscStr, 32 / d.bso)) else []
/-- The scale and bias vectors. -/
def DrainDesc.vectors (d : DrainDesc) : List (Nat × Nat) :=
  (if d.scEn then [(d.scBase, 128)] else []) ++ (if d.biEn then [(d.biBase, 128)] else [])

/-- R124, row 1. -/
def DrainDesc.formatOk (d : DrainDesc) (pwq : Nat → List Byte) : Bool :=
  let clamp := d.act = 3
  let lo := decodeFmt .fp32 d.clampLo
  let hi := decodeFmt .fp32 d.clampHi
  decide (d.reserved = 0) && !(decide (4 ≤ d.act) && decide (d.act ≤ 7))
    && (if d.act = 2 then decide (d.leakN ≠ 0) else decide (d.leakN = 0))
    && (if clamp then decide (NV.cmp lo hi = some .lt) || decide (NV.cmp lo hi = some .eq)
        else decide (d.clampLo = 0) && decide (d.clampHi = 0))
    && d.cvt.valid Fmt.floating
    && (d.fmt.scaled || (!d.obs && decide (d.oscBase = 0) && decide (d.oscStr = 0)))
    && (d.cvt.seeded || (decide (d.tensor = 0) && decide (d.baseIdx = 0)))
    && (d.scEn || (!d.scAx && decide (d.scBase = 0))) && (d.biEn || (!d.biAx && decide (d.biBase = 0)))
    && decide (d.runBytes ≤ d.outStr) && (!d.fmt.scaled || decide (32 / d.bso ≤ d.oscStr))
    && decide (d.outBase % d.fmt.align = 0) && decide (d.outStr % d.fmt.align = 0)
    && decide (d.scBase % 4 = 0) && decide (d.biBase % 4 = 0)
    && (decide (d.act < 8) || pwqUsable (pwq (d.act - 8)))

/-- R124: the first failing check; `vcls` is the class that reads the vectors. -/
def Cmd.drainStatus (m : Cmd) (d : DrainDesc) (pwq : Nat → List Byte) (vcls : Nat) : Option Nat :=
  if !d.formatOk pwq then some stFORMAT
  else if !(m.boundAll d.outRuns && m.boundAll d.scaleRuns && m.boundAll d.vectors) then some stBOUND
  else if !(m.bankAll clsChain d.outRuns && m.bankAll clsChain d.scaleRuns && m.bankAll vcls d.vectors) then some stBANK
  else none

/-- The PWQ tables of a tile: 528 bytes each at 30000h + 210h·k of the image its loader holds; bytes the image does not
reach are zero (R127, R339). -/
def Mach.pwq (m : Mach) (t k : Nat) : List Byte := m.read (loaderBase t + 0x30000 + 0x210 * k) 528

/-! ## Chain engine (Table 7.4, rows 1 to 3) -/

/-- The answer of a head-of-queue check: pass, wait for a slot, or a status. -/
inductive HeadAns where
  | pass | hold | status (st : Nat)
  deriving DecidableEq, Repr

/-- A check's status, or pass. -/
def HeadAns.ofOption : Option Nat → HeadAns
  | none => .pass
  | some st => .status st

/-- The fields of Table 7.1. -/
def chSptr (w : Nat) : Nat := bits w 64 14 * 64
def chNS (w : Nat) : Nat := bits w 78 3 + 1
def chNR (w : Nat) : Nat := bits w 81 12 + 1
def chMreg (w : Nat) : Nat := bits w 93 2
def chMstg (w : Nat) : Nat := bits w 95 4
def chSumstg (w : Nat) : Nat := bits w 99 4
def chSums (w : Nat) : Nat := bits w 103 2
def chTensor (w : Nat) : Nat := bits w 112 16
def chBaseIdx (w : Nat) : Nat := bits w 128 40

/-- Stage entries from their bytes. -/
def stagesFrom (bs : List Byte) (n : Nat) : List Stage := (List.range n).map (fun s => ⟨leAt bs (16 * s) 16⟩)

/-- CHAIN's stage entries, and the fields that rest on them (R136). -/
def chainFormatOk (w : Nat) (sts : List Stage) (pwq : Nat → List Byte) : Bool :=
  stagesOk sts pwq (chNR w) && (sts.any Stage.seeded || (decide (chTensor w = 0) && decide (chBaseIdx w = 0)))

/-- What R136 asks of CHAIN's own fields: its reserved bits, MSTG and SUMSTG. -/
def chainReservedOk (w : Nat) : Bool :=
  decide (bits w 105 7 = 0) && decide (bits w 168 88 = 0) && decide (chMstg w ≤ chNS w) && decide (chSumstg w ≤ chNS w)

/-- The head check of CHAIN. The entries are read, so their bound and bank rank before their FORMAT checks (log entry 15). -/
def Mach.chainHead (m : Mach) (x : Cmd) : Mach × HeadAns :=
  if !chainReservedOk x.word then (m, .status stFORMAT)
  else match m.localRead x clsChain (chSptr x.word) (16 * chNS x.word) with
    | .fail m st => (m, .status st)
    | .wait m _ => (m, .hold)
    | .held => (m, .hold)
    | .ok m bs =>
      if chainFormatOk x.word (stagesFrom bs (chNS x.word)) (m.pwq x.unit) then (m, .pass) else (m, .status stFORMAT)

/-- The fields of Table 7.5. -/
def psLptr (w : Nat) : Nat := bits w 64 14 * 64
def psNrec (w : Nat) : Nat := bits w 78 8 + 1
def psDrain (w : Nat) : Bool := bit w 86
def psOptr (w : Nat) : Nat := bits w 88 14 * 64
/-- The offsets of the records of a list. -/
def psOffsets (w : Nat) (bs : List Byte) : List Nat := (List.range (psNrec w)).map (fun i => leAt bs (2 * i) 2 % 2 ^ 14 * 64)

/-- The records' runs, each as long as its KIND says. -/
def Mach.psRecords (m : Mach) (x : Cmd) (bs : List Byte) : List (Nat × Nat) :=
  (psOffsets x.word bs).map (fun o => (o, recordBytes (leAt (((m.tileRead x.unit (x.phys o) 1).2).getD []) 0 1)))

/-- A head check's read: its bytes where it can be made. -/
def Ans.val? {α : Type} : Ans α → Option α
  | .ok _ v => some v
  | _ => none

/-- The answer of a head check for a read it still needs. -/
def Ans.head {α : Type} : Ans α → HeadAns
  | .ok _ _ => .pass
  | .fail _ st => .status st
  | _ => .hold

/-- The head check of PSUM (R155, Table 7.4): its own fields, then FORMAT of what its list and descriptor hold, then every
bound, then every bank, each as far as what it rests on can be read (log entry 15). -/
def Mach.psumHead (m : Mach) (x : Cmd) : Mach × HeadAns :=
  let w := x.word
  let list := (psLptr w, 2 * psNrec w)
  let out := (psOptr w, if psDrain w then 64 else 12992)
  let rl := m.localRead x clsChain list.1 list.2
  let rd := m.localRead x clsChain out.1 64
  let recs := (rl.val?.map (m.psRecords x)).getD []
  let desc := if psDrain w then rd.val?.bind (fun ds => x.drainStatus ⟨ofBytes ds⟩ (m.pwq x.unit) clsChain) else none
  if psNrec w = 1 ∨ bits w 87 1 ≠ 0 ∨ bits w 102 154 ≠ 0 ∨ desc = some stFORMAT
      ∨ (rl.val?.map (fun bs => (List.range (psNrec w)).all (fun i => decide (leAt bs (2 * i) 2 / 2 ^ 14 = 0)))) = some false then
    (m, .status stFORMAT)
  else if rl.head = .hold ∨ (psDrain w ∧ rd.head = .hold) then (m, .hold)
  else if !x.boundAll (list :: out :: recs) ∨ desc = some stBOUND then (m, .status stBOUND)
  else if !x.bankAll clsChain (list :: out :: recs) ∨ desc = some stBANK then (m, .status stBANK)
  else (m, match rl.head with
    | .pass => if psDrain w then rd.head else .pass
    | h => h)

/-! ## Sequencer commands (Table 9.4) -/

/-- The fields REGWR may write: the register's writable bits and its reserved bits (R206); none for an offset that
names no such register. -/
def regwrMasks (blk ofs : Nat) : Option (Nat × Nat) :=
  let f := fun (lo w : Nat) => (2 ^ w - 1) * 2 ^ lo
  if blk = 0 then
    if ofs < 0x40 then some (f 0 14 + f 15 15 + f 32 16, f 14 1 + f 30 2 + f 48 16)
    else if ofs = 0x40 then some (f 0 48, 0)
    else if 0x100 ≤ ofs ∧ ofs < 0x180 then some (f 0 6 + f 7 13, f 6 1 + f 22 2 + f 40 24)
    else if ofs = 0x200 then some (f 0 1, f 3 13 + f 32 32)
    else if ofs = 0x208 then some (f 0 58, f 58 6)
    else if ofs = 0x308 then some (f 14 1, f 15 49)
    else none
  else if ofs < 0x40 then some (f 0 15 + f 16 32, f 15 1 + f 48 16)
  else if 0x80 ≤ ofs ∧ ofs < 0xC0 then some (f 0 15 + f 16 13, f 15 1 + f 29 3 + f 48 16)
  else if ofs = 0xC8 then some (f 0 4, f 32 32)
  else none

/-- The fields of REGWR. -/
def rwBlk (w : Nat) : Nat := bits w 64 1
def rwOfs (w : Nat) : Nat := bits w 68 12
def rwValue (w : Nat) : Nat := bits w 128 64
def rwMask (w : Nat) : Nat := bits w 192 64

/-- REGWR's FORMAT checks (R206). -/
def regwrOk (w : Nat) : Bool :=
  onlyFields w [(64, 1), (68, 12), (128, 64), (192, 64)] && decide (rwOfs w % 8 = 0)
    && match regwrMasks (rwBlk w) (rwOfs w) with
      | none => false
      | some (rw, res) => decide (rwMask w &&& rw ≠ 0) && decide (rwMask w &&& res = 0)

/-- PI − CI as R187 reads it: a signed count whose 16-bit value 8000h stands for 32,768. -/
def signedCount (pi ci : Nat) : Int :=
  let d := (pi + 65536 - ci) % 65536
  if d ≤ 0x8000 then d else (d : Int) - 65536

/-- A backward BR whose target lies more than RLEN before PI (R207). -/
def Core.branchTooFar (c : Core) (m : Cmd) : Bool :=
  let d := bits m.word 96 16
  let back : Int := signedCount (c.trd m.unit (R.SEQ_QRING_PI 7)) (m.idx + 1) + 1 + (65536 - d)
  decide (0x8000 ≤ d) && decide ((c.trd m.unit (R.SEQ_QRING_RLEN 7) : Int) < back)

/-- The head check of a sequencer command. -/
def Core.seqHead (c : Core) (m : Cmd) : Option Nat :=
  let w := m.word
  let ok := fun (b : Bool) => if b then none else some stFORMAT
  match m.opcode with
  | 0x00 => ok (onlyFields w [])
  | 0x01 => ok (onlyFields w [(64, 27)])
  | 0x02 => ok (onlyFields w [(64, 27)] && decide (bits w 70 20 ≠ 0))
  | 0x03 => ok (onlyFields w [(64, 20)])
  | 0x04 => ok (regwrOk w)
  | 0x05 =>
    if !(onlyFields w [(64, 6), (72, 18), (96, 16)] && decide (bits w 66 4 < 8) && decide (bits w 96 16 ≠ 0)
        && !c.branchTooFar m) then some stFORMAT
    else if c.trd m.unit R.CHN_MODE_MONLY = 1 then some stDENIED else none
  | 0x07 =>
    if !(onlyFields w [(64, 21)] && decide (bits w 64 20 % 8 = 0)) then some stFORMAT
    else if !m.inBound (bits w 64 20) 8 then some stBOUND
    else if !m.bankOk clsSeq (bits w 64 20) 8 then some stBANK else none
  | 0x08 => ok (onlyFields w [(64, 16)] && decide (bits w 64 16 ≠ 0))
  | 0x09 => ok (onlyFields w [(64, 40)] && decide (bits w 64 7 ≠ 0)
      && (if bit w 71 then decide ((bits w 88 16 + 65536 - bits w 72 16) % 65536 < 0x8000)
          else decide (bits w 72 32 = 0)))
  | _ =>
    if !(onlyFields w [(64, 38)] && m.fok && (bit w 70 || decide (bits w 64 6 = 0)) && (bit w 77 || decide (bits w 71 6 = 0))
        && !(m.sigen && ((bit w 70 && decide (bits w 64 6 = m.sigT)) || (bit w 77 && decide (bits w 71 6 = m.sigT))))) then
      some stFORMAT
    else if c.trd m.unit R.SEQ_BELL_PART = 0 ∨ c.rd R.CH_BELLSTEP_STATE = 0 then some stDENIED else none

/-! ## Remote operations (Table 12.5, R284) -/

/-- The parts of a transfer of `n` bytes (R283). -/
def partsOf (n : Nat) : Nat := ceilDiv n 512

/-- The fields of Table 12.5. -/
def rmRemote (w : Nat) : Nat := bits w 64 64
def rmLocal (w : Nat) : Nat := bits w 128 32
def rmLen (w : Nat) : Nat := bits w 160 20 + 1
def rmMC (w : Nat) : Nat := bits w 187 2
def rmMlast (w : Nat) : Nat := bits w 189 6
def cpSrc (w : Nat) : Nat := bits w 64 64
def cpDst (w : Nat) : Nat := bits w 128 64
def cpLen (w : Nat) : Nat := bits w 192 20 + 1
def gaList (w : Nat) : Nat := bits w 128 20
def gaCount (w : Nat) : Nat := bits w 148 8 + 1
def lnLines (w : Nat) : Nat := bits w 128 24 + 1

/-- The tiles of a multicast span (R229): weft along a row, warp along a column. -/
def spanTiles (a : Nat) (warp : Bool) (last : Nat) : List Nat :=
  if warp then (List.range (last + 1 - adRow a)).map (fun i => 20 * (adRow a + i) + adCol a)
  else (List.range (last + 1 - adCol a)).map (fun i => 20 * adRow a + adCol a + i)

/-- The present tiles of a span. -/
def Core.spanPresent (c : Core) (a : Nat) (warp : Bool) (last : Nat) : List Nat := (spanTiles a warp last).filter c.present

/-- A multicast's form (R229, R284). -/
def Core.spanOk (c : Core) (a : Nat) (warp : Bool) (last : Nat) : Bool :=
  decide (adClass a = 0) && adFormat a && !c.elsewhere a
    && (if warp then decide (adRow a ≤ last) && decide (last < 48) else decide (adCol a ≤ last) && decide (last < 20))

/-- The local range of PUT or GET: bound and bank at a tile, slice and offset at a group (R283, R284). -/
def Core.localRange (c : Core) (m : Cmd) (n : Nat) : Option Nat :=
  let a := rmLocal m.word
  if m.unit < 960 then
    if !m.inBound (bits a 0 20) n then some stBOUND
    else if !m.bankOk clsMover (bits a 0 20) n then some stBANK else none
  else
    let s := bits a 22 7
    if !c.unitThere (960 + s) then some stLOST
    else if c.rd (R.LAR_CTL_MODE s) = 0 ∨ c.reduced = true then some stDENIED
    else if 2 ^ 22 < bits a 0 22 + n then some stBOUND
    else if c.crierZone s (bits a 0 22) n then some stDENIED else none

/-- The head check of a mover command (R284; R307 and R308 for the seals). -/
def Core.moverHead (c : Core) (m : Cmd) : Option Nat :=
  let w := m.word
  let hi0 := if m.unit < 960 then decide (bits (rmLocal w) 20 12 = 0) else decide (bits (rmLocal w) 29 3 = 0)
  match m.opcode with
  | 0x30 =>
    let mc := rmMC w
    if !(onlyFields w [(64, 132)] && hi0 && (bit w 186 || decide (bits w 180 6 = 0)) && decide (mc ≠ 3)
        && (if mc = 0 then decide (rmMlast w = 0) && !bit w 195 else c.spanOk (rmRemote w) (decide (mc = 2)) (rmMlast w))
        && decide (partsOf (rmLen w) * (if mc = 0 then 1 else (c.spanPresent (rmRemote w) (decide (mc = 2)) (rmMlast w)).length) ≤ 65535))
    then some stFORMAT else c.localRange m (rmLen w)
  | 0x31 => if !(onlyFields w [(64, 116)] && hi0) then some stFORMAT else c.localRange m (rmLen w)
  | 0x32 =>
    if !(onlyFields w [(128, 28)] && decide (gaList w % 16 = 0)) then some stFORMAT
    else if !m.inBound (gaList w) (16 * gaCount w) then some stBOUND
    else if !m.bankOk clsMover (gaList w) (16 * gaCount w) then some stBANK else none
  | 0x33 =>
    let endOk := fun a => (decide (adClass a = 0) || decide (adClass a = 1) || decide (adClass a = 4) || decide (adClass a = 5))
      && (decide (4 ≤ adClass a) || !c.elsewhere a)
    if !(onlyFields w [(64, 155)] && endOk (cpSrc w) && endOk (cpDst w) && (bit w 218 || decide (bits w 212 6 = 0))) then some stFORMAT
    else none
  | 0x34 =>
    let a := rmRemote w
    let zeroOff := match adClass a with
      | 0 => decide (adTileOff a = 0) | 1 => decide (adSliceOff a = 0) | 3 => decide (adWinOff a = 0) | _ => false
    if onlyFields w [(64, 91)] && decide (bits w 134 20 ≠ 0) && zeroOff then none else some stFORMAT
  | 0x38 =>
    if !onlyFields w [(64, 72)] then some stFORMAT
    else if !m.inBound (bits w 64 20) (bits w 84 20 + 1) then some stBOUND
    else if !m.bankOk clsMover (bits w 64 20) (bits w 84 20 + 1) then some stBANK else none
  | 0x39 =>
    if !onlyFields w [(64, 32)] ∨ (bits w 64 32 + 1) % 2 ^ 32 ≠ c.rd R.CH_BELLSTEP_STEP then some stFORMAT
    else if c.rd R.CH_HMSTAT_TWIN = 0 ∨ c.rd R.CH_BELLCFG_SEALEN = 0 then some stDENIED else none
  | _ =>
    let a := rmRemote w
    if onlyFields w [(64, 88)] && (decide (adClass a = 4) || decide (adClass a = 5))
      && decide (adPlane a = c.rd R.PRT_SELF_PLANE) && decide (a % 64 = 0) then none else some stFORMAT

/-- The parts a command's fields give (R192, R197); 65,535 where they give more, where they name no span, or where only a
list not yet read could tell. -/
def Core.partsOfCmd (c : Core) (m : Cmd) : Nat :=
  let w := m.word
  match m.opcode with
  | 0x30 =>
    if rmMC w = 0 then partsOf (rmLen w)
    else if rmMC w = 3 ∨ !c.spanOk (rmRemote w) (decide (rmMC w = 2)) (rmMlast w) then 65535
    else min 65535 (partsOf (rmLen w) * (c.spanPresent (rmRemote w) (decide (rmMC w = 2)) (rmMlast w)).length)
  | 0x31 => partsOf (rmLen w)
  | 0x32 => 65535
  | 0x33 => partsOf (cpLen w)
  | _ => 1

/-- A gather list's entries, each its source address, its bytes and its local offset; none where a bit that no field
names is set (R285). -/
def gatherEntries (bs : List Byte) (n : Nat) : Option (List (Nat × Nat × Nat)) :=
  let es := (List.range n).map (fun i => (leAt bs (16 * i) 8, leAt bs (16 * i + 8) 4, leAt bs (16 * i + 12) 4))
  if es.all (fun e => decide (e.2.1 < 2 ^ 20) && decide (e.2.2 < 2 ^ 20)) then some (es.map (fun e => (e.1, e.2.1 + 1, e.2.2)))
  else none

/-- The parts a gather list gives. -/
def gatherParts (es : List (Nat × Nat × Nat)) : Nat := (es.map (fun e => partsOf e.2.1)).sum

/-- The first failing check of a gather list: its entries, its parts, then its local ranges (R284, R285). -/
def Cmd.gatherStatus (x : Cmd) (bs : List Byte) : Option Nat :=
  match gatherEntries bs (gaCount x.word) with
  | none => some stFORMAT
  | some es =>
    if 65535 < gatherParts es then some stFORMAT
    else if !es.all (fun e => x.inBound e.2.2 e.2.1) then some stBOUND
    else if !es.all (fun e => x.bankOk clsMover e.2.2 e.2.1) then some stBANK else none

/-- The head check of GATHER, which reads its list. -/
def Mach.gatherHead (m : Mach) (x : Cmd) : Mach × HeadAns :=
  match m.core.moverHead x with
  | some st => (m, .status st)
  | none => match m.localRead x clsMover (gaList x.word) (16 * gaCount x.word) with
    | .fail m st => (m, .status st)
    | .wait m _ => (m, .hold)
    | .held => (m, .hold)
    | .ok m bs => (m, .ofOption (x.gatherStatus bs))

/-- The parts a command at its head-of-queue checks has by its fields, and by its gather list where they read it (R197). -/
def Mach.partsNow (m : Mach) (x : Cmd) : Nat :=
  if x.opcode = 0x32 ∧ x.headerOk = true ∧ m.core.moverHead x = none then
    match m.localRead x clsMover (gaList x.word) (16 * gaCount x.word) with
    | .ok _ bs => ((gatherEntries bs (gaCount x.word)).map (fun es => min 65535 (gatherParts es))).getD 65535
    | _ => 65535
  else m.core.partsOfCmd x

/-- Every head-of-queue check of a command (R199, stage 1); R359 ranks after them. -/
def Mach.headCheck (m : Mach) (x : Cmd) : Mach × HeadAns :=
  if !x.headerOk then (m, .status stFORMAT)
  else
    let r :=
      if x.opcode < 0x10 then (m, HeadAns.ofOption (m.core.seqHead x))
      else if x.opcode = 0x10 then (m, .ofOption (m.core.mmaHead x))
      else if x.opcode = 0x20 then m.chainHead x
      else if x.opcode = 0x21 then m.psumHead x
      else if x.opcode = 0x32 then m.gatherHead x
      else (m, .ofOption (m.core.moverHead x))
    match r.2 with
    | .pass => if r.1.core.serving then r else (r.1, .status stDENIED)
    | _ => r

end Sys2Proof.Machine
end

