-- ==== Sys2Proof/Machine/Net.lean ====
section
/-! DEFINITION. The on-die fabric as its sources and routers use it (chapter 10): routers and links, routes and escape
tables, injection, streams, and the answers of holding units. -/

namespace Sys2Proof.Machine

/-! ## Routers and links (R215) -/

/-- The row and mesh column of a router. -/
def rRow (n : Nat) : Nat := n / 23
def rCol (n : Nat) : Nat := n % 23

/-- The neighbour over ports N, E, S, W (Table 10.1). -/
def neighbour (n p : Nat) : Option Nat :=
  match p with
  | 0 => if rRow n = 0 then none else some (n - 23)
  | 1 => if rCol n = 22 then none else some (n + 1)
  | 2 => if rRow n = 47 then none else some (n + 23)
  | 3 => if rCol n = 0 then none else some (n - 1)
  | _ => none

/-- The port of the neighbour that a link joins to. -/
def opposite (p : Nat) : Nat := (p + 2) % 4

/-- Whether a router lies in a parked half. -/
def Core.routerParked (c : Core) (n : Nat) : Bool := c.halfParked (decide (24 ≤ rRow n))

/-- Whether AUX of a router connects to anything (Table 10.1). -/
def auxUsed (n : Nat) : Bool :=
  let r := rRow n
  let m := rCol n
  decide (r = 23) || decide (r = 24)
    || ((decide (m = 0) || decide (m = 22)) && (decide (6 ≤ r ∧ r ≤ 17) || decide (30 ≤ r ∧ r ≤ 41)))
    || ((decide (r = 0) || decide (r = 47)) && decide (9 ≤ m ∧ m ≤ 13))

/-- The state of a link (NET_LINK.STATE): 0 UP, 1 RETIRED, 2 UNUSED, 3 PARKED. -/
def Core.linkState (c : Core) (n k p : Nat) : Nat :=
  if p < 4 then
    match neighbour n p with
    | none => 2
    | some m =>
      if c.rd (R.NET_LINK_STATE n k p) = 1 then 1 else if c.routerParked n || c.routerParked m then 3 else 0
  else if p = 5 && !auxUsed n then 2 else 0

/-- Dimension order: along the row first, then along the column (R224). -/
def dimStep (here tgt : Nat) : Nat :=
  if rCol here < rCol tgt then 1 else if rCol tgt < rCol here then 3 else if rRow here < rRow tgt then 2 else 0

/-! ## Escape tables (R226, R228) -/

/-- The links crossed by a route in dimension order. -/
def dimLinks (a b : Nat) : Nat :=
  (rRow a - rRow b) + (rRow b - rRow a) + (rCol a - rCol b) + (rCol b - rCol a)

/-- Whether tables that exclude `cuts` may use a router's output in a plane. -/
def openLink (cuts : List Nat) (k n p : Nat) : Bool :=
  match neighbour n p with
  | none => false
  | some m => !cuts.contains (12 * n + 4 * k + p) && !cuts.contains (2 ^ 20 + b2n (decide (24 ≤ rRow n)))
      && !cuts.contains (2 ^ 20 + b2n (decide (24 ≤ rRow m)))

/-- The links of the route that primary outputs make from a router to a destination, over open links and rising in rank
above `r`; none where it does not arrive within `fuel` links. -/
def primLinks (prim : Nat → Nat) (ok : Nat → Nat → Bool) (rank : Nat → Nat → Nat) (dest : Nat) : Nat → Nat → Nat → Option Nat
  | 0, here, _ => if here = dest then some 0 else none
  | n + 1, here, r =>
    if here = dest then some 0
    else
      let p := prim here
      if ok here p && decide (r < rank here p + 1) then
        match neighbour here p with
        | none => none
        | some m => (primLinks prim ok rank dest n m (rank here p + 1)).map (· + 1)
      else none

/-- Whether an output leads to the destination: over an open link, then by the primary outputs. `far` bounds the links. -/
def leads (prim : Nat → Nat) (ok : Nat → Nat → Bool) (rank : Nat → Nat → Nat) (here dest p far : Nat) : Bool :=
  ok here p && match neighbour here p with
    | none => false
    | some m => (primLinks prim ok rank dest 1104 m (rank here p + 1)).any (fun n => decide (n + 1 ≤ far))

/-- The routers reached over open links from a set of routers, `n` links at most: by distance, nearest first. -/
def reachLayers (ok : Nat → Nat → Bool) : Nat → List Nat → List Nat → List (List Nat)
  | 0, _, _ => []
  | n + 1, now, seen =>
    let next := ((now.flatMap (fun x => (List.range 4).filterMap (fun p => if ok x p then neighbour x p else none))).dedup).filter
      (fun x => !seen.contains x)
    now :: (if next = [] then [] else reachLayers ok n next (seen ++ next))

/-- The open outputs of a router, those nearest the destination first. -/
def nearOutputs (ok : Nat → Nat → Bool) (here dest : Nat) : List Nat :=
  let ls := reachLayers ok 1104 [dest] [dest]
  let dist := fun p => ((neighbour here p).bind (fun m => ls.findIdx? (fun l => l.contains m))).getD 1104
  ((List.range 4).filter (ok here)).mergeSort (fun p q => decide (dist p ≤ dist q))

/-- The escape outputs of tables at a router (R226): by dimension order where the tables exclude nothing, and otherwise as
the counting-house built them where its routes arrive, rise in rank and keep off what is excluded; else nearest the
destination. The alternate is over another link, at most 4 links longer where that can be (R228; log entry 16). -/
def escapePair (build : Nat) (cuts : List Nat) (k here dest : Nat) : Nat × Nat :=
  let ok := openLink cuts k
  let rank := Config.escapeRank build k
  let tab := fun n => (Config.escapeOut build k n dest).1
  let prim := if cuts = [] then dimStep here dest
    else if leads tab ok rank here dest (tab here) 1104 then tab here
    else (nearOutputs ok here dest).headD (dimStep here dest)
  let x := (Config.escapeOut build k here dest).2
  let alts := x :: nearOutputs ok here dest
  let apart := fun q => ok here q && decide (q ≠ prim)
  let good := fun q => apart q && (if cuts = [] then leads (fun n => dimStep n dest) ok (fun _ _ => 0) here dest q (dimLinks here dest + 4)
    else leads tab ok rank here dest q 1104)
  (prim, ((alts.find? good).or (alts.find? apart)).getD prim)

/-- The escape outputs of an epoch. -/
def Core.escapeOuts (c : Core) (k e here dest : Nat) : Nat × Nat :=
  escapePair (SMap.get 0 c.net.tables e) (SMap.get [] c.net.cuts e) k here dest

/-- The escape output taken: the primary, or the alternate where the primary is not UP. -/
def Core.escPort (c : Core) (k e here dest : Nat) : Nat :=
  let o := c.escapeOuts k e here dest
  if c.linkState here k o.1 = 0 then o.1 else o.2

/-! ## Ports (Table 1.9, R223, R254) -/

/-- The entry router of a port at an offset of its rows or columns. -/
def entryRouter (p off : Nat) : Nat :=
  match p with
  | 0 => 23 * (6 + off % 12)
  | 1 => 23 * (30 + off % 12)
  | 2 => 23 * (6 + off % 12) + 22
  | 3 => 23 * (30 + off % 12) + 22
  | 4 => 9 + off % 5
  | _ => 23 * 47 + 9 + off % 5

/-- The router by which a packet from a router leaves by a port. -/
def exitRouter (p src : Nat) : Nat := entryRouter p (rRow src)

/-- The router by which a strand's packets enter. -/
def strandRouter (p s : Nat) : Nat := if p < 4 then entryRouter p (s % 12) else entryRouter p (s % 4)

/-! ## Route epochs (R239, R240) -/

/-- The state of an epoch's tables: 0 INVALID, 1 LOADING, 2 VALID, 3 DRAINING. -/
def Core.epochState (c : Core) (e : Nat) : Nat := if e = 0 then c.rd R.NET_RTCTL_STATE0 else c.rd R.NET_RTCTL_STATE1
def Core.setEpoch (c : Core) (e v : Nat) : Core := if e = 0 then c.wr R.NET_RTCTL_STATE0 v else c.wr R.NET_RTCTL_STATE1 v

/-- A DRAINING epoch freed (Table 10.5, step 5). -/
def Core.freeEpoch (c : Core) (e : Nat) : Core :=
  let c := c.setEpoch e 0
  { c with net := { c.net with draining := none, own := false } }

/-- The links RETIRED as they stand, numbered as `cuts` has them. -/
def Core.retiredLinks (c : Core) : List Nat :=
  (c.creg.filter (fun e => decide (0x500000 ≤ e.1) && decide (e.1 < 0x500000 + 0x800 * 1104) && decide (e.1 % 0x40 = 32)
      && decide (e.1 % 0x200 < 0x100) && decide (bits e.2.toNat 0 2 = 1))).map (fun e =>
    12 * ((e.1 - 0x500000) / 0x800) + 4 * (e.1 % 0x800 / 0x200) + e.1 % 0x200 / 0x40)

/-- The usable strands of each port, outbound and inbound, at FULL or HALF (Table 11.11). -/
def Core.strandCounts (c : Core) : List (Nat × Nat) :=
  (List.range 6).map (fun p =>
    (c.rd (R.PRT_STATE_OUT_FULL p) + c.rd (R.PRT_STATE_OUT_HALF p), c.rd (R.PRT_STATE_IN_FULL p) + c.rd (R.PRT_STATE_IN_HALF p)))

/-- Tables written for an epoch, which is LOADING meanwhile (step 1 of Table 10.5). They exclude the links retired and the
halves parked, and the halves `halves` about to park, and carry the strand counts (R259). -/
def Core.buildEpoch (c : Core) (e : Nat) (halves : List Nat := []) : Core :=
  let n := c.net.builds + 1
  let parked := ([0, 1].filter (fun h => c.halfParked (decide (h = 1)) || halves.contains h)).map (fun h => 2 ^ 20 + h)
  ({ c with net := { c.net with
      builds := n
      tables := SMap.set 0 c.net.tables e n
      cuts := SMap.set [] c.net.cuts e (c.retiredLinks ++ parked)
      strands := SMap.set [] c.net.strands e c.strandCounts } }).setEpoch e 1

/-- The other epoch made ACTIVE, the old one DRAINING (step 3). -/
def Core.flipEpoch (c : Core) : Core :=
  let e := c.rd R.NET_RTCTL_ACTIVE
  let c := (c.wr R.NET_RTCTL_ACTIVE (1 - e)).setEpoch e 3
  { c with net := { c.net with draining := some c.now } }

/-- A DRAINING epoch the counting-house frees by itself, once no packet is counted in it. -/
def Core.freeOwn (c : Core) : Core :=
  let e := 1 - c.rd R.NET_RTCTL_ACTIVE
  if c.net.own = true ∧ c.epochState e = 3 ∧ c.rd (R.NET_EPCNT_COUNT e) = 0 then c.freeEpoch e else c

/-- The counting-house's own epoch change carried one step on: tables wanted are written once the inactive epoch is
INVALID, tables written become VALID and are flipped to, and the old ones are freed once empty (Table 10.5). -/
def Core.ownTables (c : Core) : Core :=
  let e := 1 - c.rd R.NET_RTCTL_ACTIVE
  if c.net.own = true ∧ c.epochState e = 1 then ((c.setEpoch e 2).flipEpoch).freeOwn
  else match c.net.want with
    | some hs =>
      if c.epochState e = 0 then Core.buildEpoch { c with net := { c.net with want := none, own := true } } e hs else c.freeOwn
    | none => c.freeOwn

/-- New tables wanted that exclude what is retired or parked, and the halves `hs` (R232, R323). -/
def Core.newTables (c : Core) (hs : List Nat := []) : Core :=
  Core.ownTables { c with net := { c.net with want := some (((c.net.want.getD []) ++ hs).dedup) } }

/-- No own epoch change is wanted or under way. -/
def Core.tablesDone (c : Core) : Bool :=
  c.net.want.isNone && !c.net.own && decide (c.epochState (1 - c.rd R.NET_RTCTL_ACTIVE) = 0)

/-! ## Injection (R217, R220, R224, R239) -/

/-- The channel class of a type (Table 10.3). -/
inductive ChClass where
  | request | response | priv
  deriving DecidableEq, Repr

/-- The channel class of a packet. -/
def chClass (typ : Nat) : ChClass :=
  if typ = 3 ∨ typ = 4 then .response else if typ = 7 ∨ typ = 8 ∨ typ = 9 then .priv else .request

/-- Whether a type is a data packet's. -/
def isData (typ : Nat) : Bool := decide (typ ∈ [1, 3, 6, 8, 10])

/-- The reserved types. -/
def typeReserved (typ : Nat) : Bool := decide (typ = 0) || decide (11 ≤ typ)

/-- The flits of a packet (R217). -/
def Packet.flits (p : Packet) : Nat := if isData p.typ then ceilDiv (32 + p.payload.length) 128 else 1
/-- Its header and payload bytes. -/
def Packet.bytes (p : Packet) : Nat := 32 + p.payload.length

/-- The link channel of a packet (Table 11.3). -/
def lvcOf (p : Packet) : Nat :=
  match chClass p.typ with
  | .priv => 1 | .request => 2 | .response => 3

/-- An intermediate router of an unparked half, as a free value picks it (R224, log entry 7). -/
def Core.pickInter (c : Core) : Nat × Core :=
  let d := c.draw
  let r := d.1.toNat
  (if c.halfParked false then 552 + r % 552 else if c.halfParked true then r % 552 else r % 1104, d.2)

/-- The channel a packet enters the mesh on (Table 10.4). -/
def Packet.firstVc (p : Packet) : Nat :=
  if p.mcast ∨ chClass p.typ = .priv then 1 else if chClass p.typ = .response then 4 else 2

/-- A packet's fields as its source or entry router sets them for the die: VC, PHASE, ESC, INTER, HOPS. -/
def Core.onMesh (c : Core) (p : Packet) : Packet × Core :=
  if p.firstVc = 1 then ({ p with vc := 1, phase := 1, esc := false, inter := 0, hops := 0 }, c)
  else
    let x := c.pickInter
    ({ p with vc := p.firstVc, phase := 0, esc := false, inter := x.1, hops := 0 }, x.2)

/-! ## Inputs and flow control (R220, R221) -/

/-- An input, and an output: its router, plane and port in one number. -/
def inputKey (n k p : Nat) : Nat := 18 * n + 6 * k + p

/-- The flits a channel of an input holds. -/
def Core.chanFlits (c : Core) (n k p v : Nat) : Nat :=
  ((c.net.fly.filter (fun f => !f.queued && decide (f.here = n) && decide (f.plane = k) && decide (f.inp = p)
    && decide (f.pkt.vc = v))).map (fun f => f.pkt.flits)).sum

/-- The largest packet of a plane in flits (R217). -/
def planeFlits (k : Nat) : Nat := if k = 2 then 1 else 5

/-- Whether an input takes a packet of `x` flits on a channel: credit for the whole of it on VC0 and VC1; on VC2 to VC5 the
channel is ON and the shared pool holds it (Table 10.4; log entry 66). -/
def Core.hasRoom (c : Core) (n k p v x : Nat) : Bool :=
  if v = 0 then decide (c.chanFlits n k p 0 + x ≤ planeFlits k)
  else if v = 1 then decide (c.chanFlits n k p 1 + x ≤ 2 * planeFlits k)
  else !c.net.off.contains (8 * inputKey n k p + v) && decide (([2, 3, 4, 5].map (c.chanFlits n k p)).sum + x ≤ 32)

/-- A channel's ON and OFF after what it holds has changed (R221). -/
def Core.signal (c : Core) (n k p v : Nat) : Core :=
  let key := 8 * inputKey n k p + v
  let x := c.chanFlits n k p v
  let off := if v < 2 then c.net.off
    else if 12 ≤ x then (if c.net.off.contains key then c.net.off else c.net.off ++ [key])
    else if x ≤ 4 then c.net.off.filter (fun y => decide (y ≠ key)) else c.net.off
  { c with net := { c.net with off := off } }

/-- Flits entering and leaving an input (NET_QDEPTH). -/
def Core.enterInput (c : Core) (n k p flits : Nat) : Core :=
  let c := c.bump (R.NET_QDEPTH_DEPTH n k p) flits
  c.wr (R.NET_QDEPTH_MAXD n k p) (max (c.rd (R.NET_QDEPTH_MAXD n k p)) (c.rd (R.NET_QDEPTH_DEPTH n k p)))
def Core.leaveInput (c : Core) (n k p flits : Nat) : Core :=
  c.wr (R.NET_QDEPTH_DEPTH n k p) (c.rd (R.NET_QDEPTH_DEPTH n k p) - flits)

/-- A packet has entered an input: it is counted in its epoch, and its flits in the input. -/
def Core.entered (c : Core) (f : Flying) : Core :=
  ((c.bump (R.NET_EPCNT_COUNT f.pkt.epoch) 1).enterInput f.here f.plane f.inp f.pkt.flits).signal f.here f.plane f.inp f.pkt.vc

/-- The plane a source's next packet takes (R217). -/
def Core.nextPlane (c : Core) (p : Packet) (u : Nat) : Nat := if isData p.typ then SMap.get 0 c.net.planes u else 2

/-- A packet put into the mesh at a router: `u` its source unit, which alternates its data packets' planes (R217). Where
the input has no room it waits at its source. The first router is the first that it passes (R224). -/
def Core.enterMesh (c : Core) (p : Packet) (u here inp dest unit : Nat) (port : Option Nat)
    (via : Option Nat := none) : Core :=
  let x := c.onMesh p
  let c := x.2
  let k := c.nextPlane p u
  let room := c.hasRoom here k inp x.1.vc x.1.flits
  let f : Flying := {
    pkt := { x.1 with hops := 1 }, plane := k, here := here, inp := inp, dest := dest, unit := unit, port := port, via := via,
    queued := !room }
  let c : Core := { c with net := { c.net with
      planes := if isData p.typ then SMap.set 0 c.net.planes u (1 - k) else c.net.planes,
      fly := c.net.fly ++ [f] } }
  if room then c.entered f else c

/-- Where an address leads on or off this die, from a router: the router of ejection, the unit, and the port it leaves
by (R223, R277); none where no port reaches it. -/
def Core.route (c : Core) (a src : Nat) : Option (Nat × Nat × Option Nat) :=
  let out := (c.exitPort a src).map (fun p => (exitRouter p src, unitPort p, some p))
  if adClass a = 4 ∨ adClass a = 5 then
    if c.cached a then some (physSliceRouter (c.physSlice (c.sliceFor a)), 960 + c.sliceFor a, none) else out
  else if c.elsewhere a then out
  else
    let u := c.unitOf a
    some (if u < 1056 then c.unitRouter u else c.seamNear src, u, none)

/-- A packet injected by a unit (R223, R239); one no port can take is lost. -/
def Core.inject (c : Core) (p : Packet) (u : Nat) : Core :=
  let here := c.unitRouter u
  let p := { p with epoch := c.rd R.NET_RTCTL_ACTIVE }
  match c.route p.dst here with
  | some (dest, unit, port) => c.enterMesh p u here (c.unitSide u) dest unit port
  | none => c

/-- A packet injected towards a named port (R388, R298). -/
def Core.injectTo (c : Core) (p : Packet) (u port : Nat) : Core :=
  let here := c.unitRouter u
  c.enterMesh { p with epoch := c.rd R.NET_RTCTL_ACTIVE } u here (c.unitSide u) (exitRouter port here)
    (unitPort port) (some port)

/-- A multicast injected along its span (R229): its first stop is the first present position. -/
def Core.injectSpan (c : Core) (p : Packet) (u : Nat) : Core :=
  match c.spanPresent p.dst p.maxis p.mlast with
  | [] => c
  | t :: _ =>
    c.enterMesh { p with mcast := true, epoch := c.rd R.NET_RTCTL_ACTIVE } u (c.unitRouter u) (c.unitSide u)
      (c.tileRouter t) t none

/-- The address of this chiplet's bell unit and seal unit (R299, R308). -/
def Core.bellAddr (c : Core) : Nat := c.pageAddr 0x68000

/-- A tile post sent to the bell unit (Table 13.3). -/
def Core.sendTilePost (c : Core) (t st : Nat) : Core :=
  c.inject { typ := 7, arg := 4 * st, dst := c.bellAddr, src := c.tileAddr t 0 } t

/-- The post sent in place of that of a POST an abort ended before its commit point (R296). -/
def Core.abortedPost (c : Core) (x : Cmd) : Core :=
  if x.unit < 960 ∧ x.opcode = 0x0B ∧ c.trd x.unit R.SEQ_BELL_PART = 1 then c.sendTilePost x.unit stFAILED else c

/-- Whether the bell unit is in HOLD (R300). -/
def Core.holding (c : Core) : Bool := decide (c.rd R.CH_BELLSTEP_STATE = 2)

/-! ## Streams at the source (R288) -/

/-- The source's stream to a destination. -/
def Core.stream? (c : Core) (u dst : Nat) : Option SStream :=
  c.net.src.find? (fun s => decide (s.unit = u) && decide (s.dst = streamDst dst))

/-- Whether the source has room for `n` parts of a stream: an entry of its 256, and at most 64 parts outstanding. -/
def Core.streamRoom (c : Core) (u dst n : Nat) : Bool :=
  (match c.stream? u dst with
    | some _ => true
    | none => decide ((c.net.src.filter (fun s => decide (s.unit = u))).length < 256))
  && decide (((c.queues.cmds.filter (fun m => decide (m.unit = u) && m.running)).map (fun m =>
      (m.parts.filter (fun k => k.status.isNone && decide (streamDst k.pkt.dst = streamDst dst))).length)).sum + n ≤ 64)

/-- The next SEQ of a stream, drawn; the entry is made where it is new. -/
def Core.nextSeq (c : Core) (u dst : Nat) : Nat × Core :=
  match c.stream? u dst with
  | some s =>
    (s.seq, { c with net := { c.net with src := c.net.src.map (fun x =>
      if x = s then { s with seq := (s.seq + 1) % 65536, last := c.now } else x) } })
  | none => (0, { c with net := { c.net with src := c.net.src ++ [⟨u, streamDst dst, 1, c.now⟩] } })

/-- A packet of a unit put on the fabric: along its span where it is a multicast. -/
def Core.launch (c : Core) (p : Packet) (u : Nat) : Core := if p.mcast then c.injectSpan p u else c.inject p u

/-- A request of unit `u` stamped with its stream's next SEQ and put on the fabric at unit `at'`. -/
def Core.sendFrom (c : Core) (p : Packet) (u at' : Nat) : Packet × Core :=
  let x := c.nextSeq u p.dst
  ({ p with seq := x.1 }, x.2.launch { p with seq := x.1 } at')
/-- A request of a unit sent from its own router. -/
def Core.sendNew (c : Core) (p : Packet) (u : Nat) : Packet × Core := c.sendFrom p u u

/-! ## Arrivals and answers -/

/-- The address of a holding unit, the SRC of its answers. -/
def Core.unitAddr (c : Core) (u : Nat) : Nat :=
  if u < 960 then c.tileAddr u 0 else if u < 1056 then c.selfAddr 1 ((u - 960) * 2 ^ 35)
  else if 1061 ≤ u ∧ u < 1070 then c.selfAddr 6 ((u - 1061) * 2 ^ 39) else c.pageAddr 0

/-- A packet ejected at a unit (R222). -/
def Core.arrive (c : Core) (u : Nat) (p : Packet) (port : Option Nat) : Core :=
  { c with net := { c.net with
      nextId := c.net.nextId + 1
      arr := c.net.arr ++ [{ id := c.net.nextId, unit := u, pkt := p, port := port }] } }

/-- An arrival replaced by its changed self, in the inbound store or a multicast store. -/
def Core.putArr (c : Core) (a : Arrival) : Core :=
  let f := fun (x : Arrival) => if x.id = a.id then a else x
  { c with net := { c.net with arr := c.net.arr.map f, mstore := c.net.mstore.map f } }
/-- An arrival finished with. -/
def Core.dropArr (c : Core) (a : Arrival) : Core :=
  let f := fun (x : Arrival) => decide (x.id ≠ a.id)
  { c with net := { c.net with arr := c.net.arr.filter f, mstore := c.net.mstore.filter f } }

/-- The ACK of a part (R276). -/
def Core.ackPacket (c : Core) (u : Nat) (p : Packet) (st : Nat) : Packet :=
  { typ := 4, status := st, seq := p.seq, part := p.part, dst := p.src, src := c.unitAddr u }

/-- An ACK returned by a unit where one is asked for (Table 10.2). -/
def Core.answer (c : Core) (u : Nat) (p : Packet) (st : Nat) : Core :=
  if p.ackreq then c.inject (c.ackPacket u p st) u else c

/-- READDATA returned by a unit (Table 12.4). -/
def Core.reply (c : Core) (u : Nat) (p : Packet) (bs : List Byte) : Core :=
  c.inject { typ := 3, len := bs.length, seq := p.seq, part := p.part, dst := p.src, src := c.unitAddr u, payload := bs } u

end Sys2Proof.Machine
end

