-- ==== Sys2Proof/Machine/Queue.lean ====
section
/-! DEFINITION. The sequencer between a queue ring and an engine (chapter 9): fetch, head checks, tally waits, admission,
tag waits and completion. -/

namespace Sys2Proof.Machine

/-! ## Fetch (R187, R188) -/

/-- Ring fields of a queue. -/
def Core.ringLen (c : Core) (u q : Nat) : Nat := c.qget u q 0 (R.SEQ_QRING_RLEN 0)
def Core.ringPI (c : Core) (u q : Nat) : Nat := c.qget u q 0 (R.SEQ_QRING_PI 0)
def Core.ringCI (c : Core) (u q : Nat) : Nat := c.qget u q 1 (R.SEQ_QSTAT_CI 0)

/-- Counts from `b` up to `a`, modulo 2^16, read as a signed count whose negative values give 0 (R187). -/
def countFrom (a b : Nat) : Nat := let d := (a + 65536 - b) % 65536; if d ≤ 0x8000 then d else 0

/-- The commands waiting to be fetched; a ring of no entries has none. -/
def Core.toFetch (c : Core) (u q : Nat) : Nat := if c.ringLen u q = 0 then 0 else countFrom (c.ringPI u q) (c.ringCI u q)

/-- A queue halted by a failed fetch. -/
def Core.halted (c : Core) (u q : Nat) : Bool := decide (c.qget u q 1 (R.SEQ_QSTAT_STATE 0) = 4)

/-- A unit whose queues fetch: a present, lit tile that its loader has released (R346), a present slice, a hub port. -/
def Core.unitFetches (c : Core) (u : Nat) : Bool :=
  if u < 960 then c.present u && !c.tileDark u && decide (c.trd u R.SEQ_LOADER_LSTATE = 0) else c.unitThere u

/-- What the fetch of count `ci` of a tile's queue is checked by: the queue's base, bound and bank set as they stand. -/
def Core.fetchView (c : Core) (u q ci : Nat) : Cmd :=
  { unit := u, q := q, idx := ci, word := 0, memq := (c.tword u (0x1000 + 8 * q)).toNat,
    bmap := (c.tword u 0x1040).toNat }

/-- A command with MEM_Q and MEM_BANKMAP as they stand. -/
def Cmd.asSeen (x : Cmd) (c : Core) : Cmd :=
  let v := c.fetchView x.unit x.q 0
  { x with memq := v.memq, bmap := v.bmap }

/-- The queue-base offset of a ring position. -/
def Core.ringOff (c : Core) (u q pos : Nat) : Nat := (c.qget u q 0 (R.SEQ_QRING_RBASE 0) + pos) * 32

/-- The bytes of a ring entry: 32 of a tile's queue, 64 of the queue store (R186). -/
def Mach.fetchBytes (m : Mach) (u q ci : Nat) : Ans (List Byte) :=
  if u < 960 then
    m.localRead (m.core.fetchView u q ci) clsSeq (m.core.ringOff u q (ci % m.core.ringLen u q)) 32
  else .ok m (m.read (storeBase (u - 960) q (ci % 64)) 64)

/-- The slot a fetch consumes: the one whose highest-addressed ring entry it was (R187). -/
def Core.fetchConsumes (c : Core) (u q ci : Nat) : Core :=
  if u < 960 then
    let x := c.fetchView u q ci
    let pos := ci % c.ringLen u q
    let p := x.phys (c.ringOff u q pos)
    if (p + 32) % 256 = 0 ∨ pos + 1 = c.ringLen u q then c.consume u [p / 256] else c
  else c

/-- The abort mark that covers a count. -/
def Core.markOn (c : Core) (u q ci : Nat) : Option AbortMark :=
  c.queues.aborts.find? (fun a => decide (a.unit = u) && decide (a.q = q) && decide ((ci + 65536 - a.lo) % 65536 < a.n))

/-- A mark once its count `ci` has been fetched: what lies beyond it is left. -/
def Core.passMark (c : Core) (a : AbortMark) (ci : Nat) : Core :=
  let k := (ci + 65536 - a.lo) % 65536
  let rest : List AbortMark := if k + 1 < a.n then [{ a with lo := (ci + 1) % 65536, n := a.n - k - 1 }] else []
  { c with queues := { c.queues with aborts := c.queues.aborts.filter (fun x => decide (x ≠ a)) ++ rest } }

/-- A queue halted by a failed fetch (R188). -/
def Core.haltQueue (c : Core) (u q st : Nat) : Core :=
  ((c.qset u q 1 (R.SEQ_QSTAT_STATE 0) 4).qset u q 1 (R.SEQ_QSTAT_FERR 0) st).jobFatal 0x01 (faultUnit u)

/-- The commands of a queue other than one. -/
def Core.others (c : Core) (x : Cmd) : List Cmd := (c.queueCmds x.unit x.q).filter (fun y => decide (y.id ≠ x.id))

/-- A fetched command tries to reach the head (R185) and, there, its engine's checks (R199, stage 1). In HOLD a POST that
reaches its wait completes at once (R300). -/
def Mach.toHead (m : Mach) (x : Cmd) : Mach :=
  let os := m.core.others x
  if inflightLimit x.unit x.q ≤ (os.filter Cmd.started).length ∨ (x.fence ∧ os ≠ []) then m
  else
    let x := x.asSeen m.core
    let x := { x with p := m.partsNow x }
    let r := m.headCheck x
    match r.2 with
    | .hold => r.1.onCore (fun c => c.putCmd x)
    | .status st => r.1.onCore (fun c => c.putCmd (x.finish st))
    | .pass => r.1.onCore (fun c =>
        c.putCmd (if x.opcode = 0x0B ∧ c.holding = true then x.finish (c.rd R.CH_BELLSTAT_HSTAT)
          else if x.waitN = 0 then { x with phase := .ready } else c.checkWait { x with phase := .waitTally }))

/-- A command taken from its ring: aborted where an abort has taken its count, else on its way to the head. -/
def Mach.takeEntry (m : Mach) (u q ci : Nat) (bs : List Byte) : Mach :=
  let x := ({ unit := u, q := q, idx := ci, word := leAt bs 0 32, recAddr := leAt bs 32 8 } : Cmd).asSeen m.core
  let x := { x with p := m.core.partsOfCmd x }
  let m := m.onCore (fun c => (c.fetchConsumes u q ci).qset u q 1 (R.SEQ_QSTAT_CI 0) (ci + 1))
  let add := fun (c : Core) (y : Cmd) => { c with queues := { c.queues with cmds := c.queues.cmds ++ [y] } }
  match m.core.markOn u q ci with
  | some a => m.onCore (fun c => (add (c.passMark a ci) (x.finish stABORTED)).abortedPost x)
  | none => (m.onCore (fun c => add c x)).toHead x

/-- COMMAND_FETCH: the next command of a queue that has one, while every command before it has started (R185); one ended at
its head holds those behind it until it completes. -/
def Mach.commandFetch (m : Mach) (u q : Nat) : Mach :=
  let c := m.core
  let ci := c.ringCI u q
  if c.halted u q ∨ !c.unitFetches u ∨ c.toFetch u q = 0 ∨ (c.queueCmds u q).any (fun x => !x.started)
      ∨ ((c.markOn u q ci).isNone ∧ inflightLimit u q ≤ ((c.queueCmds u q).filter Cmd.started).length) then m
  else match m.fetchBytes u q ci with
    | .ok m bs => m.takeEntry u q ci bs
    | .wait m _ => m
    | .held => m
    | .fail m st => m.onCore (fun c => c.haltQueue u q st)

/-- COMMAND_FETCH. -/
def execCommandFetch (u q : Nat) (s : State) : Host.Outcome State Fault Refusal :=
  onlyIf (isQueue u q) (s.onMach (fun m => m.commandFetch u q))

/-! ## Tally wait (R196) -/

/-- The command of a queue that waits before starting. -/
def Core.head? (c : Core) (u q : Nat) : Option Cmd := (c.queueCmds u q).find? Cmd.waiting

/-- TALLY_WAIT: the waiting command looks again, at the head's conditions where it has not reached the head. -/
def Mach.tallyWait (m : Mach) (u q : Nat) : Mach :=
  match m.core.head? u q with
  | none => m
  | some x => if x.phase = .fetched then m.toHead x else m.onCore (fun c => c.putCmd (c.checkWait x))

/-- TALLY_WAIT. -/
def execTallyWait (u q : Nat) (s : State) : Host.Outcome State Fault Refusal :=
  onlyIf (isQueue u q) (s.onMach (fun m => m.tallyWait u q))

/-! ## Admission (R200, R201) -/

/-- The cost of a command's energy class in nJ. -/
def Core.cost (c : Core) (x : Cmd) : Nat :=
  if x.eclass = 0 then 0 else c.rd (R.WGH_ECT_COST (c.rd R.CH_BELLCFG_ROLE) (x.eclass / 4) (x.eclass % 4))

/-- Credit of a tile or group, and the ceiling of every one (R315). -/
def Core.credit (c : Core) (u : Nat) : Nat := if u < 960 then c.trd u R.SEQ_ALLOW_CREDIT else SMap.get 0 c.queues.groupCredit u
def Core.creditCap (c : Core) : Nat := c.rd R.WGH_CTL_TCAP
def Core.setCredit (c : Core) (u v : Nat) : Core :=
  if u < 960 then c.twr u R.SEQ_ALLOW_CREDIT v
  else { c with queues := { c.queues with groupCredit := SMap.set 0 c.queues.groupCredit u v } }

/-- The queue a reservation is held for. -/
def Core.resv (c : Core) (u : Nat) : Option Nat :=
  if u < 960 then (if c.trd u R.SEQ_ADMIT_RESV = 1 then some (c.trd u R.SEQ_ADMIT_RESQ) else none)
  else (let r := SMap.get 0 c.queues.groupResv u; if r = 0 then none else some (r - 1))
def Core.setResv (c : Core) (u : Nat) (r : Option Nat) : Core :=
  if u < 960 then
    match r with
    | some q => (c.twr u R.SEQ_ADMIT_RESV 1).twr u R.SEQ_ADMIT_RESQ q
    | none => (c.twr u R.SEQ_ADMIT_RESV 0).twr u R.SEQ_ADMIT_RESQ 0
  else { c with queues := { c.queues with groupResv := SMap.set 0 c.queues.groupResv u (match r with | some q => q + 1 | none => 0) } }

/-- A ready head of a queue. -/
def Core.readyHead (c : Core) (u q : Nat) : Option Cmd :=
  (c.queueCmds u q).find? (fun x => decide (x.phase = .ready))

/-- A command started (R199): it takes the lowest free in-flight slot, and sees the scale histories as they stand (R82). -/
def Core.start (c : Core) (x : Cmd) : Core :=
  let used := ((c.others x).filter Cmd.started).map Cmd.slot
  let f := ((List.range 16).find? (fun k => !used.contains k)).getD 0
  c.putCmd { x with
    phase := .run
    started := true
    slot := f
    skips := 0
    skipped := false
    shist := if x.unit < 960 then (List.range 16).map (fun n => c.tword x.unit (0x300 + 8 * n)) else []
    nflags := if x.unit < 960 then bits (c.tword x.unit 0x200).toNat 0 25 else 0 }

/-- Queues of a unit in rotation from the one after the last admitted. -/
def Core.rotation (c : Core) (u : Nat) : List Nat :=
  let n := queuesOf u
  let l := SMap.get 0 c.queues.last u
  (List.range n).map (fun i => (l + 1 + i) % n)

/-- The queue last admitted noted. -/
def Core.setLast (c : Core) (u q : Nat) : Core :=
  { c with queues := { c.queues with last := SMap.set 0 c.queues.last u q } }

/-- The rotation of R200: heads that do not fit are marked skipped until one fits. -/
def Core.rotate (c : Core) (u : Nat) : List Nat → Core
  | [] => c
  | q :: qs =>
    match c.readyHead u q with
    | none => c.rotate u qs
    | some h =>
      if c.cost h ≤ c.credit u then ((c.setCredit u (c.credit u - c.cost h)).start h).setLast u q
      else (c.putCmd { h with skipped := true }).rotate u qs

/-- One ready head of cost 0 started, in rotation order, if there is one (R200). -/
def Core.startFree (c : Core) (u : Nat) : Core :=
  match (c.rotation u).findSome? (fun q => (c.readyHead u q).filter (fun h => decide (c.cost h = 0))) with
  | some h => c.start h
  | none => c

/-- Ready heads whose class costs more than CAP complete with DENIED (R201). -/
def Core.denyDear (c : Core) (u : Nat) : Core :=
  c.mapCmds (fun x => if x.unit = u ∧ x.phase = .ready ∧ c.creditCap < c.cost x then x.finish stDENIED else x)

/-- ADMISSION: one pass of arbitrate (R200). -/
def Core.admitHead (c : Core) (u : Nat) : Core :=
  let c := c.denyDear u
  match c.resv u with
  | some q =>
    match c.readyHead u q with
    | some h =>
      if c.cost h ≤ c.credit u then
        (((c.setCredit u (c.credit u - c.cost h)).start h).setResv u none).setLast u q
      else c.startFree u
    | none => c.startFree u
  | none => c.rotate u (c.rotation u)

/-- ADMISSION. -/
def execAdmission (u : Nat) (s : State) : Host.Outcome State Fault Refusal :=
  onlyIf (decide (u < 1060)) (s.onCore (fun c => c.admitHead u))

/-! ## Tag wait (R165) -/

/-- TAG_WAIT: the wait of a running command ends when its slot's tag lets it go on, a writer claiming the slot. -/
def Core.tagResume (c : Core) (u q f : Nat) : Core :=
  match c.running? u q f with
  | none => c
  | some x => match x.wait with
    | none => c
    | some w =>
      if w.write then
        if c.claimable u w.slot x.owner then
          let c := if (c.taggedRegion u w.slot).isSome then c.setTag u w.slot (.claimed x.owner) else c
          let new := (c.taggedRegion u w.slot).isSome && !x.claims.contains w.slot
          c.putCmd { x with wait := none, claims := if new then x.claims ++ [w.slot] else x.claims }
        else c
      else if (c.taggedRegion u w.slot).isNone ∨ c.tag u w.slot = .full ∨ c.tag u w.slot = .failed then
        c.putCmd { x with wait := none }
      else c

/-- TAG_WAIT. -/
def execTagWait (u q f : Nat) (s : State) : Host.Outcome State Fault Refusal :=
  onlyIf (isQueue u q) (s.onCore (fun c => c.tagResume u q f))

/-! ## Completion (R185, R197, R210, R211) -/

/-- Parts that completed with OK, and the lowest-numbered failed part with its status (Table 9.5): parts never issued
count as ABORTED where an abort cut the command, and a command without parts answers as its one part. -/
def Cmd.outcome (x : Cmd) : Nat × Nat × Nat :=
  if x.parts = [] then (if x.status = stOK then (x.p, 0xFFFF, 0) else (0, 0, x.status))
  else
    let oks := (x.parts.filter (fun k => decide (k.status = some stOK))).length
    match x.parts.find? (fun k => decide (k.status ≠ some stOK)) with
    | some k => (oks, k.k, k.status.getD stABORTED)
    | none => if x.parts.length < x.p then (oks, x.parts.length, stABORTED) else (oks, 0xFFFF, 0)

/-- The completion record (Table 9.5). -/
def Core.recordOf (c : Core) (x : Cmd) : List Byte :=
  let o := x.outcome
  toBytes 4 (x.status + 2 ^ 8 * x.opcode + 2 ^ 16 * x.q) ++ toBytes 4 x.idx
    ++ toBytes 2 x.p ++ toBytes 2 o.1 ++ toBytes 2 o.2.1 ++ toBytes 2 (o.2.2 + 2 ^ 8 * (x.sigT + 64 * b2n x.sigen))
    ++ toBytes 8 c.now ++ toBytes 8 x.aux

/-- The record written into a tile queue's record ring, or dropped with RFAIL (R210), under MEM_Q and MEM_BANKMAP as the
command's checks saw them, or its fetch where it never came to them (R160, log entry 56). -/
def Mach.writeRecord (m : Mach) (x : Cmd) : Mach :=
  let c := m.core
  let len := c.qget x.unit x.q 2 (R.SEQ_QREC_RLEN 0)
  let wi := c.qget x.unit x.q 2 (R.SEQ_QREC_WI 0)
  if len = 0 then m
  else
    let off := (c.qget x.unit x.q 2 (R.SEQ_QREC_RBASE 0) + wi % len) * 32
    let drop := fun (m : Mach) => m.onCore (fun c => c.qset x.unit x.q 2 (R.SEQ_QREC_RFAIL 0) 1)
    if (c.localStatus x clsSeq off 32).isSome ∨ c.taggedSlots x.unit (x.phys off) 32 ≠ [] then drop m
    else match m.tileWrite x.unit (x.phys off) (c.recordOf x) with
      | (m, true) => m.onCore (fun c => c.qset x.unit x.q 2 (R.SEQ_QREC_WI 0) (wi + 1))
      | (m, false) => drop m

/-- The record of a chiplet-level queue sent to the address given at submission (R210, R276). -/
def Core.sendRecord (c : Core) (x : Cmd) : Core :=
  if x.recAddr = 0 ∨ (c.sourceStatus x.recAddr 32 (c.unitRouter x.unit)).isSome then c
  else (c.sendNew { typ := 1, ackreq := true, len := 32, dst := x.recAddr, src := c.srcOf x, payload := c.recordOf x } x.unit).2

/-! ## Flags and scale history (R81, R84) -/

/-- Flags added to set `k` of a tile: arrays 0 to 3, the chain engine 4. -/
def Core.raiseFlags (c : Core) (t k f : Nat) : Core :=
  c.setTword t 0x200 (c.tword t 0x200 ||| BitVec.ofNat 64 (f * 2 ^ (5 * k)))

/-- Two scale histories joined: the larger magnitude (R81). -/
def SHist.join (a b : SHist) : SHist :=
  let bigger := b.valid && (!a.valid || a.maxE < b.maxE || (a.maxE = b.maxE && a.maxM < b.maxM))
  { maxE := if bigger then b.maxE else a.maxE, maxM := if bigger then b.maxM else a.maxM,
    nonfin := a.nonfin || b.nonfin, valid := a.valid || b.valid }

/-- Values recorded into one register's contribution. -/
def recordAll (vs : List NV) : SHist := vs.foldl SHist.record (SHist.ofNat 0)

/-- A contribution joined into a tile's register. -/
def Core.joinHist (c : Core) (t : Nat) (h : Nat × Nat) : Core :=
  let off := 0x300 + 8 * h.1
  c.setTword t off (BitVec.ofNat 64 ((SHist.ofNat (c.tword t off).toNat).join (SHist.ofNat h.2)).toNat)

/-- The flag set of a command's engine (R84). -/
def Cmd.flagSet (x : Cmd) : Nat := if x.q < 4 then x.q else 4

/-- What a command has raised shown in its tile (R81, R85). -/
def Core.showNumeric (c : Core) (x : Cmd) : Core :=
  if x.flags = 0 ∧ x.hist = [] then c else x.hist.foldl (fun c h => c.joinHist x.unit h) (c.raiseFlags x.unit x.flagSet x.flags)

/-- A command's slots settled: claims end, and the slots it read in consuming regions empty where it succeeded (R166).
Of a GET or GATHER, the slots a failed part covers fail and the others stand (R211). -/
def Core.settleSlots (c : Core) (x : Cmd) : Core :=
  if x.unit < 960 then
    let c := if x.parts = [] then c.endClaims x.unit x.claims x.wrote (decide (x.status = stOK))
      else
        let bad := (x.parts.filter (fun k => decide (k.status ≠ some stOK))).flatMap (fun k => touched 8 k.loc k.pkt.len)
        (c.endClaims x.unit (x.claims.filter (fun s => bad.contains s)) x.wrote false).endClaims x.unit
          (x.claims.filter (fun s => !bad.contains s)) x.wrote true
    if x.status = stOK then c.consume x.unit x.reads else c
  else c

/-- The summary slot of a chain command that did not succeed loses VALID (R150). -/
def Core.spoilSummary (c : Core) (x : Cmd) : Core :=
  if x.unit < 960 ∧ x.q = 4 ∧ x.opcode = 0x20 ∧ x.status ≠ stOK ∧ chSumstg x.word ≠ 0 then
    c.twr x.unit (R.CHN_SUMA_VALID (chSums x.word)) 0
  else c

/-- A command's completion (R197): its slots settle and what it raised and has not shown is shown (R85), then its record, its fault record, its signal, in that order. -/
def Mach.complete (m : Mach) (x : Cmd) : Mach :=
  let bad := decide (x.status ≠ stOK)
  let m := m.onCore (fun c => ((c.settleSlots x).spoilSummary x).showNumeric x)
  let rec' := m.core.recordOf x
  let m := if bad || x.recFlag then (if x.unit < 960 then m.writeRecord x else m.onCore (fun c => c.sendRecord x)) else m
  m.onCore (fun c =>
    let c := if bad then c.record 1 1 (faultUnit x.unit) x.status 0 (leAt rec' 0 8) else c
    let c := if x.sigen then c.tallyAdd x.unit x.sigT x.p bad else c
    let c := { c with queues := { c.queues with cmds := c.queues.cmds.filter (fun y => decide (y.id ≠ x.id)) } }
    if c.queues.seen = [] then c else c.dropSeen x (fun _ => true))

/-- COMMAND_COMPLETION: count `n` of a queue, once it has its outcome and its turn. -/
def Mach.commandCompletion (m : Mach) (u q n : Nat) : Mach :=
  match (m.core.queueCmds u q).find? (fun x => decide (x.idx = n)) with
  | none => m
  | some x =>
    if x.phase = .done ∧ (listOrder u q = false ∨ (m.core.queueCmds u q).head?.map Cmd.id = some x.id) then m.complete x
    else m

/-- COMMAND_COMPLETION. -/
def execCommandCompletion (u q n : Nat) (s : State) : Host.Outcome State Fault Refusal :=
  onlyIf (isQueue u q) (s.onMach (fun m => m.commandCompletion u q n))

end Sys2Proof.Machine
end

