-- ==== Sys2Proof/Machine/SeqCmds.lean ====
section
/-! DEFINITION. The sequencer commands (R192, R204 to R209, R212, R213) and the region and bank transitions that REGWR
starts (R160, R163, R170, R171). -/

namespace Sys2Proof.Machine

/-- A running command's own copy given its outcome, whatever else has been noted on it. -/
def Core.finishCmd (c : Core) (x : Cmd) (st : Nat) : Core :=
  c.mapCmds (fun y => if y.id = x.id then y.finish st else y)

/-- `g` applied to the running command in a slot of a queue, where it has the opcode. -/
def Mach.withCmd (m : Mach) (u q f op : Nat) (g : Mach → Cmd → Mach) : Mach :=
  match m.core.running? u q f with
  | some x => if x.opcode = op then g m x else m
  | none => m

/-- NOP. -/
def Mach.nop (m : Mach) (x : Cmd) : Mach := m.onCore (fun c => c.finishCmd x stOK)
/-- NOP. -/
def execNop (u q f : Nat) (s : State) : Host.Outcome State Fault Refusal :=
  onlyIf (isQueue u q) (s.onMach (fun m => m.withCmd u q f 0x00 Mach.nop))

/-- TSET (R204). -/
def Mach.tset (m : Mach) (x : Cmd) : Mach :=
  m.onCore (fun c => (c.tallySet x.unit (bits x.word 64 6) (bits x.word 70 20) (bit x.word 90) false).finishCmd x stOK)
/-- TSET. -/
def execTset (u q f : Nat) (s : State) : Host.Outcome State Fault Refusal :=
  onlyIf (isQueue u q) (s.onMach (fun m => m.withCmd u q f 0x01 Mach.tset))

/-- TINC (R204). -/
def Mach.tinc (m : Mach) (x : Cmd) : Mach :=
  m.onCore (fun c => (c.tallyAdd x.unit (bits x.word 64 6) (bits x.word 70 20) (bit x.word 90)).finishCmd x stOK)
/-- TINC. -/
def execTinc (u q f : Nat) (s : State) : Host.Outcome State Fault Refusal :=
  onlyIf (isQueue u q) (s.onMach (fun m => m.withCmd u q f 0x02 Mach.tinc))

/-! ## QADV and REGWR (R205, R206) -/

/-- Whether a PI would leave more than RLEN commands to fetch (R187). A count that is not negative stays so; a negative one
moves up, to CI + RLEN at most. -/
def Core.piTooFar (c : Core) (t q pi len : Nat) : Bool :=
  let old := signedCount (c.ringPI t q) (c.ringCI t q)
  if old < 0 then decide ((len : Int) < old + ((pi + 65536 - c.ringPI t q) % 65536 : Nat))
  else decide (len < (pi + 65536 - c.ringCI t q) % 65536)

/-- QADV (R205): an advance by N is held to R187 as the whole number it is. -/
def Mach.qadv (m : Mach) (x : Cmd) : Mach :=
  let c := m.core
  let q := bits x.word 64 3
  let n := bits x.word 68 16
  let pi := ((if bit x.word 67 then 0 else c.ringPI x.unit q) + n) % 65536
  let far := if bit x.word 67 then c.piTooFar x.unit q pi (c.ringLen x.unit q)
    else decide ((c.ringLen x.unit q : Int) < signedCount (c.ringPI x.unit q) (c.ringCI x.unit q) + n)
  if far then m.onCore (fun c => c.finishCmd x stBOUND)
  else m.onCore (fun c => (c.qset x.unit q 0 (R.SEQ_QRING_PI 0) pi).finishCmd x stOK)
/-- QADV. -/
def execQadv (t : Nat) (s : State) : Host.Outcome State Fault Refusal :=
  onlyIf (isTile t) (s.onMach (fun m => m.withCmd t 7 0 0x03 Mach.qadv))

/-- A masked write of a register word. -/
def masked (old value mask : Nat) : Nat := (old &&& ((2 ^ 64 - 1) ^^^ mask)) ||| (value &&& mask)

/-- The bits a REGWR writes: those of its mask that the register lets it write. -/
def rwBits (w : Nat) : Nat := rwMask w &&& ((regwrMasks (rwBlk w) (rwOfs w)).map (·.1)).getD 0

/-- Bits written with one are cleared. -/
def w1c (old value mask : Nat) : Nat := old &&& ((2 ^ 64 - 1) ^^^ (value &&& mask))

/-- A queue with commands to fetch or past fetch. -/
def Core.queueBusy (c : Core) (t q : Nat) : Bool := decide (c.toFetch t q ≠ 0) || decide (c.queueCmds t q ≠ [])

/-- SEQ_QRING written (R187, R206). -/
def Core.regwrRing (c : Core) (t q value mask : Nat) : Core × Nat :=
  let old := (c.tword t (8 * q)).toNat
  let new := masked old value mask
  if 0x8000 < bits new 16 16 then (c, stFAILED)
  else if (bits old 0 15 ≠ bits new 0 15 ∨ bits old 16 16 ≠ bits new 16 16) ∧ c.queueBusy t q = true then (c, stFAILED)
  else if c.piTooFar t q (bits new 32 16) (bits new 16 16) then (c, stBOUND)
  else (c.setTword t (8 * q) (BitVec.ofNat 64 new), stOK)

/-- SEQ_QREC written (R206): RFAIL is cleared by one. -/
def Core.regwrRec (c : Core) (t q value mask : Nat) : Core × Nat :=
  let old := (c.tword t (0x80 + 8 * q)).toNat
  let new := w1c (masked old value (mask &&& (2 ^ 28 - 1))) value (mask &&& 2 ^ 28)
  if bits old 0 28 ≠ bits new 0 28 ∧ c.queueBusy t q = true then (c, stFAILED)
  else (c.setTword t (0x80 + 8 * q) (BitVec.ofNat 64 new), stOK)

/-- A register without behaviour of its own written. -/
def Core.regwrPlain (c : Core) (t blk ofs value mask : Nat) : Core × Nat :=
  if blk = 1 then
    if ofs < 0x40 then c.regwrRing t (ofs / 8) value mask
    else if ofs < 0xC0 then c.regwrRec t ((ofs - 0x80) / 8) value mask
    else (c.twr t R.SEQ_ADMIT_STARVE (masked (c.trd t R.SEQ_ADMIT_STARVE) value mask), stOK)
  else
    let off := 0x1000 + ofs
    let old := (c.tword t off).toNat
    (c.setTword t off (BitVec.ofNat 64 (if ofs = 0x208 then masked old value mask else w1c old value mask)), stOK)

/-- Whether REGWR names a register with behaviour of its own: MEM_Q, MEM_BANKMAP or MEM_RGN. -/
def rwSpecial (w : Nat) : Bool :=
  decide (rwBlk w = 0) && (decide (rwOfs w ≤ 0x40) || (decide (0x100 ≤ rwOfs w) && decide (rwOfs w < 0x180)))

/-- REGWR (R206). -/
def Mach.regwr (m : Mach) (x : Cmd) : Mach :=
  if rwSpecial x.word then m
  else m.onCore (fun c =>
    let r := c.regwrPlain x.unit (rwBlk x.word) (rwOfs x.word) (rwValue x.word) (rwBits x.word)
    r.1.finishCmd x r.2)
/-- REGWR. -/
def execRegwr (t : Nat) (s : State) : Host.Outcome State Fault Refusal :=
  onlyIf (isTile t) (s.onMach (fun m => m.withCmd t 7 0 0x04 Mach.regwr))

/-- A configuration write ignored: CFGERR, and the REGWR fails (R206). -/
def Core.cfgErr (c : Core) (x : Cmd) : Core := (c.twr x.unit R.MEM_STATUS_CFGERR 1).finishCmd x stFAILED

/-- REGWR of MEM_Q (R160). -/
def Mach.memQWrite (m : Mach) (x : Cmd) : Mach :=
  if rwBlk x.word = 0 ∧ rwOfs x.word < 0x40 then
    let off := 0x1000 + rwOfs x.word
    let new := masked (m.core.tword x.unit off).toNat (rwValue x.word) (rwBits x.word)
    if 16384 < bits new 0 14 + bits new 15 15 then m.onCore (fun c => c.cfgErr x)
    else m.onCore (fun c => (c.setTword x.unit off (BitVec.ofNat 64 new)).finishCmd x stOK)
  else m
/-- MEM_Q_WRITE. -/
def execMemQWrite (t : Nat) (s : State) : Host.Outcome State Fault Refusal :=
  onlyIf (isTile t) (s.onMach (fun m => m.withCmd t 7 0 0x04 Mach.memQWrite))

/-! ## Parts -/

/-- A command split into parts (Table 9.3). -/
def Cmd.split (x : Cmd) : Bool := decide (0x30 ≤ x.opcode) && decide (x.opcode ≤ 0x33)

/-- A split command whose parts all have outcomes takes its status (R211): that of the lowest-numbered failed part. -/
def Cmd.settle (x : Cmd) : Cmd :=
  if x.phase = .run ∧ x.parts.all (fun k => k.status.isSome) = true ∧ (x.cut = true ∨ x.parts.length = x.p) then
    let bad := (x.parts.find? (fun k => decide (k.status ≠ some stOK))).bind Part.status
    x.finish (bad.getD (if x.parts.length < x.p then stABORTED else stOK))
  else x

/-- The parts one packet of a command makes: one for each position of a multicast (R230). -/
def Cmd.width (x : Cmd) : Nat := if x.opcode = 0x30 ∧ rmMC x.word ≠ 0 then x.p / partsOf (rmLen x.word) else 1

/-- A command given the packets' next parts. -/
def Cmd.addParts (x : Cmd) (ps : List Part) : Cmd :=
  { x with parts := x.parts ++ ps, committed := true, wait := none }.settle

/-- The numbers of the parts of a command's next packet. -/
def Cmd.nextParts (x : Cmd) : List Nat := (List.range x.width).map (fun i => x.parts.length + i)

/-- A command whose next packet is refused before it leaves. -/
def Cmd.refuseNext (x : Cmd) (st : Nat) : Cmd :=
  x.addParts (x.nextParts.map (fun k => { k := k, pkt := { typ := 0 }, status := some st }))

/-- A wait on a tag ended with a status: of a PUT the waiting part alone (R163, R171, R211). -/
def Cmd.failWait (x : Cmd) (st : Nat) : Cmd := if x.opcode = 0x30 then x.refuseNext st else x.finish st

/-! ## Bank classes (R163) -/

/-- The class a command's waiting access has. -/
def Cmd.waitClass (x : Cmd) (w : TagWait) : Nat :=
  if x.q < 4 then (if w.write then clsChain else clsBobbin) else if x.q = 4 then clsChain
  else if x.q < 7 then clsMover else clsSeq

/-- The bytes an accepted inbound part covers in its tile: where, and how many. -/
def Core.arrRange (c : Core) (a : Arrival) : Nat × Nat :=
  (match adClass a.pkt.dst with
    | 0 => adTileOff a.pkt.dst
    | 3 => c.winBase (adWin a.pkt.dst) + adWinOff a.pkt.dst
    | _ => 0, a.pkt.len)

/-- The accepted parts at a tile that touch a unit of `2^k` bytes. -/
def Core.acceptedAt (c : Core) (t k n : Nat) : List Nat :=
  ((c.net.arr ++ c.net.mstore).filter (fun a => decide (a.unit = t) && a.accepted
    && (touched k (c.arrRange a).1 (c.arrRange a).2).contains n)).map Arrival.id

/-- A GET's part given its status, whatever has been noted on its command. -/
def Core.endPart (c : Core) (id : Nat × Nat) (k st : Nat) : Core :=
  c.mapCmds (fun y => if y.id = id then
    ({ y with parts := y.parts.map (fun z => if z.k = k then { z with status := some st } else z) } : Cmd).settle else y)

/-- The parts of GETs whose landing waits on the tag of one of some slots of a tile end with a status (R163, R170). -/
def Core.endLandings (c : Core) (t : Nat) (bad : Nat → Bool) (st : Nat) : Core :=
  c.net.arr.foldl (fun c a => match a.land with
    | some g => if a.unit = t ∧ (touched 8 g.2.2 a.pkt.payload.length).any (fun s => bad s && !a.wrote.contains s) then
        (c.dropArr a).endPart g.1 g.2.1 st
      else c
    | none => c) c

/-- A bank's class change begun, or redirected where one is under way (R163). -/
def Core.startBank (c : Core) (x : Cmd) (b new : Nat) : Core :=
  let old := c.trd x.unit (R.MEM_BANKMAP_CLASS b)
  if old = new then c
  else if c.tiles.pend.any (fun p => decide (p.tile = x.unit) && decide (p.bank = b)) then c.twr x.unit (R.MEM_BANKMAP_CLASS b) new
  else
    let past := c.queues.cmds.filter (fun y => decide (y.unit = x.unit) && decide (y.phase ≠ .fetched) && decide (y.id ≠ x.id))
    let c' := (c.twr x.unit (R.MEM_BANKMAP_CLASS b) new).twr x.unit R.MEM_BANKMAP_PEND
      (setBit (c.trd x.unit R.MEM_BANKMAP_PEND) b true)
    let pend : BankPend := ⟨x.unit, b, old, past.map Cmd.id, c.acceptedAt x.unit 16 b⟩
    let c' := if old = clsMover then c'.endLandings x.unit (fun s => decide (s / 256 = b)) stBANK else c'
    { c' with
      tiles := { c'.tiles with pend := c'.tiles.pend ++ [pend] }
      queues := { c'.queues with
        cmds := c'.queues.cmds.map (fun y =>
          match y.wait with
          | some w => if y.unit = x.unit ∧ w.slot / 256 = b ∧ y.waitClass w = old then y.failWait stBANK else y
          | none => y) } }

/-- REGWR of MEM_BANKMAP (R163). -/
def Mach.memBankmapWrite (m : Mach) (x : Cmd) : Mach :=
  if rwBlk x.word = 0 ∧ rwOfs x.word = 0x40 ∧ x.committed = false then
    let new := masked (m.core.tword x.unit 0x1040).toNat (rwValue x.word) (rwBits x.word)
    if (List.range 16).any (fun b => decide (4 < bits new (3 * b) 3)) then m.onCore (fun c => c.cfgErr x)
    else
      let m := m.onCore (fun c => (List.range 16).foldl (fun c b => c.startBank x b (bits new (3 * b) 3)) c)
      if m.core.trd x.unit R.MEM_BANKMAP_PEND = 0 then m.onCore (fun c => c.finishCmd x stOK)
      else m.onCore (fun c => c.putCmd { x with committed := true })
  else m
/-- MEM_BANKMAP_WRITE. -/
def execMemBankmapWrite (t : Nat) (s : State) : Host.Outcome State Fault Refusal :=
  onlyIf (isTile t) (s.onMach (fun m => m.withCmd t 7 0 0x04 Mach.memBankmapWrite))

/-- A REGWR that waited for a transition completes (R206). -/
def Core.endRegwr (c : Core) (t : Nat) (ofs : Nat) : Core :=
  c.mapCmds (fun y =>
    if y.unit = t ∧ y.q = 7 ∧ y.running = true ∧ y.opcode = 0x04 ∧ y.committed = true ∧ rwBlk y.word = 0 ∧ rwOfs y.word = ofs
    then y.finish stOK else y)

/-- PEND_CLEAR: the changes whose earlier commands and parts are gone take effect (R163). -/
def Core.pendClear (c : Core) (t : Nat) : Core :=
  let clear := fun (p : BankPend) => decide (p.tile = t)
    && p.cmds.all (fun i => c.queues.cmds.all (fun y => decide (y.id ≠ i)))
    && p.parts.all (fun i => (c.net.arr ++ c.net.mstore).all (fun a => decide (a.id ≠ i)))
  let gone : List BankPend := c.tiles.pend.filter clear
  let c := { c with tiles := { c.tiles with pend := c.tiles.pend.filter (fun p => !clear p) } }
  let c : Core := gone.foldl (fun c p => c.twr t R.MEM_BANKMAP_PEND (setBit (c.trd t R.MEM_BANKMAP_PEND) p.bank false)) c
  if !gone.isEmpty ∧ c.trd t R.MEM_BANKMAP_PEND = 0 then c.endRegwr t 0x40 else c
/-- PEND_CLEAR. -/
def execPendClear (t : Nat) (s : State) : Host.Outcome State Fault Refusal :=
  onlyIf (isTile t) (s.onCore (fun c => c.pendClear t))

/-! ## Regions (R170, R171) -/

/-- The segments of a region. -/
def Core.rgnSegs (c : Core) (t n : Nat) : Nat × Nat :=
  (c.trd t (R.MEM_RGN_START n), c.trd t (R.MEM_RGN_START n) + c.trd t (R.MEM_RGN_COUNT n))

/-- Segments `lo` up to `hi` of a tile zeroed with valid check bytes, their tags EMPTY. -/
def Mach.blankSegs (m : Mach) (t lo hi : Nat) : Mach :=
  let l0 := lineId t (256 * lo)
  let l1 := lineId t (256 * hi)
  let inLine := fun k => decide (l0 ≤ k) && decide (k < l1)
  let m := m.zero (tileBase t + 2 ^ 14 * lo) (tileBase t + 2 ^ 14 * hi)
  { m with
    errs := SMap.keep (fun k => !inLine k) m.errs
    corr := m.corr.filter (fun k => !inLine k)
    core := { m.core with tiles := { m.core.tiles with
      tags := SMap.keep (fun k => !(decide (t * 4096 + 64 * lo ≤ k) && decide (k < t * 4096 + 64 * hi))) m.core.tiles.tags } } }

/-- The fields of MEM_RGN in a word. -/
def rgnField (w : Nat) (f : Nat → Fld) : Nat := bits w (f 0).lo (f 0).w

/-- R170: whether a write of MEM_RGN[n] from `old` to `new` is ignored; `wmode` where MODE is written. -/
def Core.rgnIgnored (c : Core) (t n old new : Nat) (wmode : Bool) : Bool :=
  let oldV := decide (rgnField old R.MEM_RGN_VALID = 1)
  let newV := decide (rgnField new R.MEM_RGN_VALID = 1)
  let om := rgnField old R.MEM_RGN_MODE
  let nm := rgnField new R.MEM_RGN_MODE
  let st := rgnField old R.MEM_RGN_STATE
  let s := rgnField new R.MEM_RGN_START
  let k := rgnField new R.MEM_RGN_COUNT
  let settledDark := decide (om = 2) && decide (st = 0)
  (newV && (List.range 16).any (fun j => decide (j ≠ n) && decide (c.trd t (R.MEM_RGN_VALID j) = 1)
      && decide (s < (c.rgnSegs t j).2) && decide ((c.rgnSegs t j).1 < s + k)))
    || (!oldV && newV && decide (nm ≠ 2))
    || (oldV && !settledDark && (decide (s ≠ rgnField old R.MEM_RGN_START) || decide (k ≠ rgnField old R.MEM_RGN_COUNT)
        || decide (bits new 16 3 ≠ bits old 16 3)))
    || (oldV && !newV && !settledDark)
    || (wmode && decide (st ≠ 0))
    || (wmode && (decide (nm = 3) || (decide (om = 2) && decide (nm = 1))))
    || (newV && (decide (k = 0) || decide (64 < s + k)))

/-- A region goes to CLOSING (Table 8.8, R171): waiting local commands in it end with REGION_DARK. -/
def Core.closeRegion (c : Core) (t n : Nat) : Core :=
  let segs := c.rgnSegs t n
  let inside := fun slot => decide (segs.1 ≤ slot / 64) && decide (slot / 64 < segs.2)
  let c := (c.twr t (R.MEM_RGN_STATE n) 1).endLandings t inside stDARK
  { c with
    tiles := { c.tiles with closing := c.tiles.closing ++ [⟨t, n, c.now⟩] }
    queues := { c.queues with
      cmds := c.queues.cmds.map (fun y =>
        match y.wait with
        | some w => if y.unit = t ∧ inside w.slot = true then y.failWait stDARK else y
        | none => y) } }

/-- Accepted writes to segments that were uncovered count in the region that now covers them. DESIGN CHOICE (log entry 73):
R171 speaks of writes, and accepted reads count in no region's INBOUND. -/
def Core.adoptParts (c : Core) (t n : Nat) : Core :=
  let segs := c.rgnSegs t n
  let mine := fun (a : Arrival) => decide (a.unit = t) && a.accepted && decide (a.pkt.typ = 1) && !a.rgns.contains n
    && (touched 14 (c.arrRange a).1 (c.arrRange a).2).any (fun g => decide (segs.1 ≤ g) && decide (g < segs.2))
  let k := ((c.net.arr ++ c.net.mstore).filter mine).length
  let f := fun (a : Arrival) => if mine a then { a with rgns := a.rgns ++ [n] } else a
  let c := c.tbump t (R.MEM_RGN_INBOUND n) k
  { c with net := { c.net with arr := c.net.arr.map f, mstore := c.net.mstore.map f } }

/-- A region settled in its ordered mode: one ordered DARK loses contents and tags (Table 8.8). -/
def Mach.settleRegion (m : Mach) (t n : Nat) : Mach :=
  let segs := m.core.rgnSegs t n
  let m := if m.core.trd t (R.MEM_RGN_MODE n) = 2 then m.blankSegs t segs.1 segs.2 else m
  m.onCore (fun c =>
    let c := (c.twr t (R.MEM_RGN_STATE n) 0).endRegwr t (0x100 + 8 * n)
    { c with tiles := { c.tiles with
      closing := c.tiles.closing.filter (fun k => !(decide (k.tile = t) && decide (k.n = n)))
      accSrc := c.tiles.accSrc.filter (fun k => decide (k.1 ≠ 16 * t + n)) } })

/-- An accepted write of MEM_RGN[n] (R170, Table 8.8): the register, and the transition its MODE orders. Segments a DARK
region takes in by a new START or COUNT lose their contents at once. -/
def Mach.orderRegion (m : Mach) (t n old new : Nat) : Mach :=
  let oldV := rgnField old R.MEM_RGN_VALID = 1
  let newV := rgnField new R.MEM_RGN_VALID = 1
  let om := rgnField old R.MEM_RGN_MODE
  let nm := rgnField new R.MEM_RGN_MODE
  let m := m.onCore (fun c => c.setTword t (0x1100 + 8 * n) (BitVec.ofNat 64 new))
  if ¬ oldV ∧ newV then m.onCore (fun c => (c.closeRegion t n).adoptParts t n)
  else if oldV ∧ ¬ newV then m.blankSegs t (rgnField old R.MEM_RGN_START) (rgnField old R.MEM_RGN_START + rgnField old R.MEM_RGN_COUNT)
  else if newV ∧ om ≠ nm then
    if om = 0 then m.onCore (fun c => c.closeRegion t n)
    else if nm = 0 then m.onCore (fun c =>
      let c := c.twr t (R.MEM_RGN_STATE n) 2
      if om = 2 then { c with tiles := { c.tiles with waking := c.tiles.waking ++ [(t, n)] } } else c)
    else m.settleRegion t n
  else if newV ∧ om = 2 then m.blankSegs t (rgnField new R.MEM_RGN_START) (rgnField new R.MEM_RGN_START + rgnField new R.MEM_RGN_COUNT)
  else m

/-- REGWR of MEM_RGN (R170), DENIED while the tile's row pair is DARK or DARKENING (R322). -/
def Mach.memRgnWrite (m : Mach) (x : Cmd) : Mach :=
  if rwBlk x.word = 0 ∧ 0x100 ≤ rwOfs x.word ∧ rwOfs x.word < 0x180 ∧ x.committed = false then
    let n := (rwOfs x.word - 0x100) / 8
    let old := (m.core.tword x.unit (0x1100 + 8 * n)).toNat
    let new := masked old (rwValue x.word) (rwBits x.word)
    let pair := m.core.rd (R.WGH_DOMST_MODE (x.unit / 20 / 2))
    if pair = 1 ∨ pair = 2 then m.onCore (fun c => c.finishCmd x stDENIED)
    else if m.core.rgnIgnored x.unit n old new (decide (rwBits x.word &&& 0xC000 ≠ 0)) then m.onCore (fun c => c.cfgErr x)
    else
      let m := m.orderRegion x.unit n old new
      if m.core.trd x.unit (R.MEM_RGN_STATE n) = 0 then m.onCore (fun c => c.finishCmd x stOK)
      else m.onCore (fun c => c.putCmd { x with committed := true })
  else m
/-- MEM_RGN_WRITE. -/
def execMemRgnWrite (t : Nat) (s : State) : Host.Outcome State Fault Refusal :=
  onlyIf (isTile t) (s.onMach (fun m => m.withCmd t 7 0 0x04 Mach.memRgnWrite))

/-- Whether a region is CLOSING. -/
def Core.rgnClosing (c : Core) (t n : Nat) : Bool := decide (c.trd t (R.MEM_RGN_STATE n) = 1)

/-- REGION_CLOSE: no accepted part is left (R171). -/
def execRegionClose (t n : Nat) (s : State) : Host.Outcome State Fault Refusal :=
  onlyIf (isTile t && decide (n < 16)) (s.onMach (fun m =>
    if m.core.rgnClosing t n ∧ m.core.trd t (R.MEM_RGN_INBOUND n) = 0 then m.settleRegion t n else m))

/-- DARKTMO_EXPIRY: DARKTMO ticks have passed since the order (R171). -/
def execDarktmoExpiry (t n : Nat) (s : State) : Host.Outcome State Fault Refusal :=
  onlyIf (isTile t && decide (n < 16)) (s.onMach (fun m =>
    match m.core.tiles.closing.find? (fun k => decide (k.tile = t) && decide (k.n = n)) with
    | some k =>
      if m.core.rgnClosing t n ∧ m.core.trd t R.MEM_TIMERS_DARKTMO ≤ m.core.now - k.start then m.settleRegion t n else m
    | none => m))

/-- One line of tile memory visited: corrected and written back, or found uncorrectable (R175). -/
def Mach.visitLine (m : Mach) (t line : Nat) : Mach :=
  let id := lineId t line
  match m.readLine t id (tileBase t + 64 * line) line (m.core.weightLine t line) with
  | (m, some bs) => if m.lineErrs id = [] then m else (m.write (tileBase t + 64 * line) bs).clearErrs id
  | (m, none) => m

/-- REGION_WAKE: a WAKING region becomes SETTLED LIT (Table 8.8): one that was DARK zeroed, its slots EMPTY; one that was
RETAIN scrubbed once where it is of the weight class. -/
def Mach.regionWake (m : Mach) (t n : Nat) : Mach :=
  if m.core.trd t (R.MEM_RGN_STATE n) = 2 then
    let segs := m.core.rgnSegs t n
    let bad := m.errs.filter (fun e => decide (lineId t (256 * segs.1) ≤ e.1) && decide (e.1 < lineId t (256 * segs.2)))
    let m := if m.core.tiles.waking.contains (t, n) then m.blankSegs t segs.1 segs.2
      else if m.core.trd t (R.MEM_RGN_WCLASS n) = 1 then bad.foldl (fun m e => m.visitLine t (e.1 - lineId t 0)) m else m
    m.onCore (fun c =>
      let c := (c.twr t (R.MEM_RGN_STATE n) 0).endRegwr t (0x100 + 8 * n)
      { c with tiles := { c.tiles with waking := c.tiles.waking.filter (fun w => decide (w ≠ (t, n))) } })
  else m
/-- REGION_WAKE. -/
def execRegionWake (t n : Nat) (s : State) : Host.Outcome State Fault Refusal :=
  onlyIf (isTile t && decide (n < 16)) (s.onMach (fun m => m.regionWake t n))

/-! ## BR, FLAGRD, SHCLR (R207 to R209) -/

/-- Whether a branch condition holds on a summary slot. -/
def Core.branchTaken (c : Core) (t slot cond val : Nat) : Bool :=
  let a := (c.tword t (0x3010 + 0x10 * slot)).toNat
  match cond with
  | 0 => bit a 1
  | 1 => !bit a 1
  | 2 => bit a 2
  | 3 => !bit a 2
  | 4 => decide (val ≤ bits a 4 18)
  | 5 => decide (bits a 4 18 < val)
  | 6 => decide (bits a 22 18 < val)
  | _ => decide (val ≤ bits a 22 18)

/-- BR (R207). -/
def Mach.br (m : Mach) (x : Cmd) : Mach :=
  let slot := bits x.word 64 2
  m.onCore (fun c =>
    if c.trd x.unit (R.CHN_SUMA_VALID slot) = 0 then c.finishCmd x stFAILED
    else if c.branchTaken x.unit slot (bits x.word 66 4) (bits x.word 72 18) then
      (c.qset x.unit 7 1 (R.SEQ_QSTAT_CI 0) ((x.idx + bits x.word 96 16) % 65536)).putCmd ({ x with aux := 1 }.finish stOK)
    else c.finishCmd x stOK)
/-- BR. -/
def execBr (t : Nat) (s : State) : Host.Outcome State Fault Refusal :=
  onlyIf (isTile t) (s.onMach (fun m => m.withCmd t 7 0 0x05 Mach.br))

/-- FLAGRD (R208): the flags of the commands that completed before it started. -/
def Mach.flagrd (m : Mach) (x : Cmd) : Mach :=
  let flags := x.nflags
  match m.localWrite x (x.phys (bits x.word 64 20)) (toBytes 8 flags) with
  | .ok m y => m.onCore (fun c =>
      let c := if bit x.word 84 then
        c.setTword x.unit 0x200 (BitVec.ofNat 64 ((c.tword x.unit 0x200).toNat &&& ((2 ^ 64 - 1) ^^^ flags))) else c
      c.putCmd (y.finish stOK))
  | .wait m s => m.onCore (fun c => c.putCmd { x with wait := some ⟨s, true⟩ })
  | .held => m
  | .fail m st => m.onCore (fun c => c.finishCmd x st)
/-- FLAGRD. -/
def execFlagrd (t : Nat) (s : State) : Host.Outcome State Fault Refusal :=
  onlyIf (isTile t) (s.onMach (fun m => m.withCmd t 7 0 0x07 Mach.flagrd))

/-- SHCLR (R209). -/
def Mach.shclr (m : Mach) (x : Cmd) : Mach :=
  m.onCore (fun c =>
    ((List.range 16).foldl (fun c n => if bit (bits x.word 64 16) n then c.setTword x.unit (0x300 + 8 * n) 0 else c) c).finishCmd x stOK)
/-- SHCLR. -/
def execShclr (t : Nat) (s : State) : Host.Outcome State Fault Refusal :=
  onlyIf (isTile t) (s.onMach (fun m => m.withCmd t 7 0 0x08 Mach.shclr))

/-! ## Abort (R212, R213) -/

/-- What an abort makes of a command past fetch (Table 9.7): its changed self, and whether it counts as aborted. -/
def Cmd.abort (x : Cmd) : Cmd × Bool :=
  match x.phase with
  | .done => (x, false)
  | .run =>
    if x.split then
      if x.parts = [] then (x.finish stABORTED, true)
      else if x.parts.length < x.p then ({ x with cut := true }.settle, true) else (x, false)
    else if x.committed then (x, false) else (x.finish stABORTED, true)
  | _ => (x.finish stABORTED, true)

/-- An abort's targets in a queue: those past fetch, those to be fetched (from a count, so many), and those of a range
that have completed. -/
structure AbortSet where
  live : List Cmd
  lo : Nat
  n : Nat
  gone : Nat
  deriving DecidableEq, Repr

/-- The targets in queue `q` of `u`; `range` gives the first count and how many (R212). -/
def Core.abortTargets (c : Core) (u q : Nat) (range : Option (Nat × Nat)) : AbortSet :=
  let ci := c.ringCI u q
  let k := c.toFetch u q
  match range with
  | none => ⟨c.queueCmds u q, ci, k, 0⟩
  | some (lo, n) =>
    let f := signedOf 16 (lo + 65536 - ci)
    let t := min (f + n - 1) ((k : Int) - 1)
    let live := (c.queueCmds u q).filter (fun x => decide ((x.idx + 65536 - lo) % 65536 < n))
    let a := max f 0
    let past := min t (-1) - f + 1
    ⟨live, (ci + a.toNat) % 65536, (t - a + 1).toNat, past.toNat - live.length⟩

/-- One queue's targets taken by an abort: the core, how many are aborted, how many already complete, and the targets
past fetch. -/
def Core.abortQueue (c : Core) (u q : Nat) (range : Option (Nat × Nat)) : Core × Nat × Nat × List Nat :=
  let s := c.abortTargets u q range
  let cut := s.live.filter (fun x => x.abort.2)
  let c : Core := s.live.foldl (fun c x => (if x.abort.2 then c.abortedPost x else c).putCmd x.abort.1) c
  let mark : List AbortMark := if s.n = 0 then [] else [⟨u, q, s.lo, s.n⟩]
  ({ c with queues := { c.queues with aborts := c.queues.aborts ++ mark } },
    cut.length + s.n, s.live.length - cut.length + s.gone, s.live.map (fun x => (x.unit * 32 + x.q) * 65536 + x.idx))

/-- The queues of a mask taken one by one. -/
def Core.abortQueues (c : Core) (u : Nat) (qs : List Nat) (range : Option (Nat × Nat)) : Core × Nat × Nat × List Nat :=
  qs.foldl (fun acc q =>
    let r := acc.1.abortQueue u q range
    (r.1, acc.2.1 + r.2.1, acc.2.2.1 + r.2.2.1, acc.2.2.2 ++ r.2.2.2)) (c, 0, 0, [])

/-- Targets of an abort that still lack an outcome: those past fetch not done, and marks on queues that still fetch. -/
def Core.abortOpen (c : Core) (u : Nat) (qs : List Nat) (live : List Nat) : Bool :=
  c.queues.cmds.any (fun y => live.contains ((y.unit * 32 + y.q) * 65536 + y.idx) && decide (y.phase ≠ .done))
    || c.queues.aborts.any (fun a => decide (a.unit = u) && qs.contains a.q && !c.halted u a.q)

/-- The marks left on halted queues: their targets were never aborted (R212). -/
def Core.abortLost (c : Core) (u : Nat) (qs : List Nat) : Nat :=
  ((c.queues.aborts.filter (fun a => decide (a.unit = u) && qs.contains a.q)).map AbortMark.n).sum

/-- The marks of a unit's queues dropped. -/
def Core.dropMarks (c : Core) (u : Nat) (qs : List Nat) : Core :=
  { c with queues := { c.queues with aborts := c.queues.aborts.filter (fun a => !(decide (a.unit = u) && qs.contains a.q)) } }

/-- ABORT (R212): its targets are taken when it first runs, and it completes once all have their outcomes. Until then AUX
holds both counts whole, the aborted one in its low 32 bits. DESIGN CHOICE (log entry 71): a count past 16 bits, of which
the spec does not speak, is recorded modulo 2^16. -/
def Mach.abort (m : Mach) (x : Cmd) : Mach :=
  let qs := (List.range 7).filter (bit (bits x.word 64 7))
  let range := if bit x.word 71 then some (bits x.word 72 16, (bits x.word 88 16 + 65536 - bits x.word 72 16) % 65536 + 1) else none
  m.onCore (fun c =>
    let r := if x.committed then (c, 0, 0, ([] : List Nat)) else c.abortQueues x.unit qs range
    let c := r.1
    let x := if x.committed then x
      else { x with committed := true, aux := r.2.1 + 2 ^ 32 * r.2.2.1, gather := r.2.2.2 }
    if c.abortOpen x.unit qs x.gather then c.putCmd x
    else
      let cut := x.aux % 2 ^ 32 - c.abortLost x.unit qs
      (c.dropMarks x.unit qs).putCmd ({ x with aux := cut % 65536 + 65536 * (x.aux / 2 ^ 32 % 65536) }.finish stOK))
/-- ABORT. -/
def execAbort (t : Nat) (s : State) : Host.Outcome State Fault Refusal :=
  onlyIf (isTile t) (s.onMach (fun m => m.withCmd t 7 0 0x09 Mach.abort))

end Sys2Proof.Machine
end

