-- ==== Sys2Proof/Machine/Loom.lean ====
section
/-! DEFINITION. MMA (chapters 5 and 6): the reads of a matrix command, its anchors, its product phase, and its drain. -/

namespace Sys2Proof.Machine

/-! ## Reads made together -/

/-- What one read of a group gives. -/
inductive Got where
  | bytes (bs : List Byte) | wait (slot : Nat) | held | bad (st : Nat)
  deriving DecidableEq, Repr

/-- The bytes of a read that has them. -/
def Got.bytes? : Got → Option (List Byte)
  | .bytes bs => some bs
  | _ => none
/-- The slot a read waits on. -/
def Got.slot? : Got → Option Nat
  | .wait s => some s
  | _ => none
/-- The status a read fails with. -/
def Got.bad? : Got → Option Nat
  | .bad st => some st
  | _ => none

/-- The reads of one phase, each made whatever the others meet (log entry 68). -/
def Mach.readEach (m : Mach) (x : Cmd) (cls : Nat) : List (Nat × Nat) → Mach × List Got
  | [] => (m, [])
  | r :: rs =>
    match m.localRead x cls r.1 r.2 with
    | .ok m bs => let q := m.readEach x cls rs; (q.1, .bytes bs :: q.2)
    | .wait m s => let q := m.readEach x cls rs; (q.1, .wait s :: q.2)
    | .held => let q := m.readEach x cls rs; (q.1, .held :: q.2)
    | .fail m st => let q := m.readEach x cls rs; (q.1, .bad st :: q.2)

/-- The status of failed reads by rank: FAILED before UNCORRECTABLE (Tables 5.2 and 7.4), any other before both. -/
def worstRead (sts : List Nat) : Option Nat :=
  match sts.find? (fun s => decide (s ≠ stFAILED) && decide (s ≠ stUNCORR)) with
  | some s => some s
  | none => if sts.contains stFAILED then some stFAILED else sts.head?

/-- What a phase's reads come to: failure, then a wait, then a hold by a bank change, then the bytes of all. -/
def gotAns (q : Mach × List Got) : Ans (List (List Byte)) :=
  match worstRead (q.2.filterMap Got.bad?), q.2.findSome? Got.slot? with
  | some st, _ => .fail q.1 st
  | none, some s => .wait q.1 s
  | none, none => if q.2.contains .held then .held else .ok q.1 (q.2.filterMap Got.bytes?)

/-- Several runs read together. -/
def Mach.readRuns (m : Mach) (x : Cmd) (cls : Nat) (rs : List (Nat × Nat)) : Ans (List (List Byte)) := gotAns (m.readEach x cls rs)

/-- The tagged slots of consuming regions that runs touch. -/
def Core.slotsRead (c : Core) (x : Cmd) (rs : List (Nat × Nat)) : List Nat :=
  rs.foldl (fun acc r => acc ++ (c.readSlots x r.1 r.2).filter (fun s => !acc.contains s)) []

/-! ## Outcomes -/

/-- An engine command given its outcome: whatever that is, what it has raised is shown (R81, R85; log entry 70). -/
def Core.endEngine (c : Core) (x : Cmd) (st : Nat) : Core :=
  let y := ((c.queueCmds x.unit x.q).find? (fun y => decide (y.id = x.id))).getD x
  (c.showNumeric y).putCmd (({ y with flags := 0, hist := [] } : Cmd).finish st)

/-- A command's pending bytes written, and the command finished once all have landed. -/
def Mach.landOut (m : Mach) (x : Cmd) : Mach :=
  match m.landRuns x (runsOf x.out) with
  | .ok m y => m.onCore (fun c => (c.putCmd y).endEngine y stOK)
  | .wait m _ => m
  | .held => m
  | .fail m st => m.onCore (fun c => c.endEngine x st)

/-! ## Operands (R88, R91, R92, R97) -/

/-- A row or column of the 8-bit path with its block scales applied (R59 to R61). -/
def rowScaled (f : Fmt) (blk k : Nat) (bs sc : List Byte) : List Split :=
  (List.range k).map (fun i => Split.ofScaled (applyScale (decodeFmt f (elemAt f bs i)) (leAt sc (i / blk) 1)))

/-- A row or column of the 19-bit path. -/
def rowSplit (f : Fmt) (k : Nat) (bs : List Byte) : List Split :=
  (List.range k).map (fun i => splitElem f (decodeFmt f (elemAt f bs i)))

/-- The natural anchor of a row or column. -/
def naturalAnchor (path8 : Bool) (sc : List Byte) (xs : List Split) : Int :=
  if path8 then anchor8 (sc.map (·.toNat)) else anchor19 (xs.map Split.hi)

/-- The cell-beats in which a cell is gated (R102): per index and sweep, the cells one of whose operands is zero. -/
def gatedBeats (sw : List (Piece × Piece)) (a b : List (List Split)) (k : Nat) : Nat :=
  ((List.range k).map (fun i => (sw.map (fun p =>
    1024 - (a.filter (fun r => !((nthD r i ⟨.zero, .zero, .zero, false, false⟩).get p.1).isZero)).length
      * (b.filter (fun r => !((nthD r i ⟨.zero, .zero, .zero, false, false⟩).get p.2).isZero)).length)).sum)).sum

/-! ## Anchor phase (R97 to R99, Table 5.2) -/

/-- The drain descriptor and the forced-anchor record of a matrix command. -/
def mmaHeads (w : Nat) : List (Nat × Nat) :=
  (if mmaExport w then [] else [(mmaDOff w, 64)]) ++ (if mmaFA w then [(mmaFaOff w, 128)] else [])

/-- The descriptor a matrix command drains by, and its forced anchors, from those reads; zeros and none where it has none. -/
def mmaDesc (w : Nat) (gs : List Got) : Option Nat := if mmaExport w then some 0 else (gs.head?.bind Got.bytes?).map ofBytes
/-- The forced anchors, rows, then columns. -/
def mmaForced (w : Nat) (gs : List Got) : Option (List Int) :=
  if mmaFA w then ((gs.getLast?).bind Got.bytes?).map (fun bs => (List.range 64).map (fun i => signedOf 16 (leAt bs (2 * i) 2)))
  else none

/-- Rows 5 and 6 of Table 5.2, on what has been read. -/
def Mach.mmaRows56 (m : Mach) (x : Cmd) (gs : List Got) : Option Nat :=
  match (if mmaExport x.word then none else (mmaDesc x.word gs).bind (fun d => x.drainStatus ⟨d⟩ (m.pwq x.unit) clsBobbin)) with
  | some st => some st
  | none => match mmaForced x.word gs with
    | some l => if l.all (anchorInRange (if mma8 x.word then 0 else 2)) then none else some stFORMAT
    | none => none

/-- The runs from which the natural anchors follow: scales, or elements (R97). -/
def mmaAnchorRuns (w : Nat) : List (Nat × Nat) := if mma8 w then ((mmaRuns w).drop 64).take 64 else (mmaRuns w).take 64

/-- The format of a row (the first 32) or column. -/
def mmaFmtOf (w i : Nat) : Fmt := if i < 32 then mmaAFmt w else mmaBFmt w

/-- The natural anchor that the bytes of row or column `i` give (R97). -/
def mmaNatural (w i : Nat) (bs : List Byte) : Int := naturalAnchor (mma8 w) bs (if mma8 w then [] else rowSplit (mmaFmtOf w i) (mmaK w) bs)

/-- Row 7 of Table 5.2: a forced anchor lies below the natural one of a row or column that has been read. -/
def mmaRow7 (w : Nat) (forced : Option (List Int)) (gs : List Got) : Bool :=
  match forced with
  | none => false
  | some l => (List.range 64).any (fun i =>
      match (nthD gs i .held).bytes? with
      | some bs => decide (nthD l i 0 < mmaNatural w i bs)
      | none => false)

/-- What a matrix command's anchor phase finds: its descriptor and forced anchors first, then its vectors and what its
anchors follow from. -/
def Mach.anchorReads (m : Mach) (x : Cmd) : Ans LoomRun :=
  let w := x.word
  let h := m.readEach x clsBobbin (mmaHeads w)
  match h.1.mmaRows56 x h.2 with
  | some st => .fail h.1 st
  | none => (gotAns h).bind (fun m _ =>
    let d : DrainDesc := ⟨(mmaDesc w h.2).getD 0⟩
    let vs := if mmaExport w then [] else d.vectors
    let q := m.readEach x clsBobbin (mmaAnchorRuns w ++ vs)
    if mmaRow7 w (mmaForced w h.2) q.2 then .fail q.1 stFAILED
    else (gotAns q).bind (fun m bss =>
      let v := bss.drop 64
      .ok m {
        stage := 2
        desc := d.raw
        sc := if vs ≠ [] ∧ d.scEn then nthD v 0 [] else []
        bi := if vs ≠ [] ∧ d.biEn then v.getLast?.getD [] else []
        scales := if mma8 w then bss.take 64 else []
        anchors := (mmaForced w h.2).getD ((bss.take 64).mapIdx (mmaNatural w)) }))

/-- A command whose phase waits, goes on waiting for a bank, or fails. -/
def Mach.loomStop {α : Type} (m : Mach) (x : Cmd) (stage : Nat) (a : Ans α) : Mach × Cmd :=
  match a with
  | .wait m s => let y := { x with wait := some ⟨s, false⟩, loom := { x.loom with stage := stage } }; (m.onCore (fun c => c.putCmd y), y)
  | .fail m st => (m.onCore (fun c => (c.putCmd x).endEngine x st), x.finish st)
  | _ => let y := { x with loom := { x.loom with stage := stage } }; (m.onCore (fun c => c.putCmd y), y)

/-- The anchor phase, entered once the command ahead is past its own (R104); `ahead` is that command's stage, 6 for none. -/
def Mach.mmaAnchor (m : Mach) (ahead : Nat) (x : Cmd) : Mach × Cmd :=
  if !x.running ∨ 2 ≤ x.loom.stage ∨ ahead < 3 then (m, x)
  else match m.anchorReads x with
    | .ok m l => let y := { x with wait := none, loom := l }; (m.onCore (fun c => c.putCmd y), y)
    | a => m.loomStop x 1 a

/-! ## Product phase (R88, R100, R105) -/

/-- The sweeps of a matrix command (R100, R101). -/
def mmaSweeps (w : Nat) : List (Piece × Piece) := if mma8 w then [(.hi, .hi)] else runSweeps (mmaPass w) (mmaAFmt w) (mmaBFmt w)

/-- The A rows, then the B columns of `k` elements, from their bytes and the scales read in the anchor phase. -/
def mmaRows (w : Nat) (scales : List (List Byte)) (k : Nat) (el : List (List Byte)) : List (List Split) :=
  el.mapIdx (fun i bs => if mma8 w then rowScaled (mmaFmtOf w i) (mmaBlock w) k bs (nthD scales i []) else rowSplit (mmaFmtOf w i) k bs)

/-- The reads of the product phase: every row and column once for each sweep, up to the first sweep that stops. -/
def Mach.productReads (m : Mach) (x : Cmd) : Nat → Ans (List (List Byte))
  | 0 => m.readRuns x clsBobbin ((mmaRuns x.word).take 64)
  | n + 1 => (m.readRuns x clsBobbin ((mmaRuns x.word).take 64)).bind (fun m _ => m.productReads x n)

/-- The bytes a read can reach in order. -/
def Mach.reach (m : Mach) (x : Cmd) : List (Nat × Nat) → Nat
  | [] => 0
  | r :: rs =>
    match m.readSlot x r.1 r.2 with
    | .ok _ _ => r.2 + m.reach x rs
    | _ => 0

/-- The reduction index at which the product phase stops: the first whose elements cannot all be reached. -/
def Mach.stopIndex (m : Mach) (x : Cmd) : Nat :=
  (((mmaRuns x.word).take 64).mapIdx (fun i r =>
    let n := m.reach x (slotChunks (x.phys r.1) r.2)
    if mmaFmtOf x.word i = .p4 then 2 * n else n / (mmaFmtOf x.word i).unitBytes)).foldl min (mmaK x.word)

/-- The bytes of the rows and columns up to a reduction index, read without effect. -/
def Mach.prefixBytes (m : Mach) (x : Cmd) (k : Nat) : List (List Byte) :=
  ((mmaRuns x.word).take 64).mapIdx (fun i r => ((m.tileRead x.unit (x.phys r.1) ((mmaFmtOf x.word i).arrayBytes k)).2).getD [])

/-- Beats of the product phase up to an index of its first sweep, and the gated cell-beats in them (Tables 5.5 and 5.8). -/
def beatsTo (w k : Nat) (rows : List (List Split)) : Nat × Nat :=
  let per := if mma8 w then 1 else 4
  (per * k, per * gatedBeats ((mmaSweeps w).take 1) (rows.take 32) (rows.drop 32) k)

/-- All beats of the product phase. -/
def beatsAll (w : Nat) (rows : List (List Split)) : Nat × Nat :=
  let per := if mma8 w then 1 else 4
  (per * mmaK w * (mmaSweeps w).length, per * gatedBeats (mmaSweeps w) (rows.take 32) (rows.drop 32) (mmaK w))

/-- The counters of an array advanced by beats not counted yet (Table 5.8). -/
def Core.addBeats (c : Core) (x : Cmd) (upTo from' : Nat × Nat) : Core :=
  let c := c.twr x.unit (R.LOOM_BEATS_BEATS x.q) (c.trd x.unit (R.LOOM_BEATS_BEATS x.q) + (upTo.1 - from'.1))
  c.twr x.unit (R.LOOM_GATED_GATED x.q) (c.trd x.unit (R.LOOM_GATED_GATED x.q) + (upTo.2 - from'.2))

/-- The tile of a matrix command, and the flags of its splits and its accumulation (R55, R84, R118). -/
def mmaTile (w : Nat) (anchors : List Int) (rows : List (List Split)) : WideTile × NumFlags :=
  let z := multiply (mmaPath w) (mmaPass w) (mmaAFmt w) (mmaBFmt w) (mmaFA w) (anchors.take 32) (anchors.drop 32) (rows.take 32) (rows.drop 32)
  let cut := rows.any (fun r => r.any Split.flushed)
  (z.1, { unf := cut, inexact := cut, invalid := z.2 })

/-- The product phase, entered once the command ahead has been unloaded (R104). -/
def Mach.mmaProduct (m : Mach) (ahead : Nat) (x : Cmd) : Mach × Cmd :=
  if !x.running ∨ x.loom.stage < 2 ∨ 4 ≤ x.loom.stage ∨ ahead < 5 then (m, x)
  else
    let w := x.word
    let rowsTo := fun (m : Mach) (k : Nat) => mmaRows w x.loom.scales k (m.prefixBytes x k)
    let before := if x.loom.kpos = 0 then (0, 0) else beatsTo w x.loom.kpos (rowsTo m x.loom.kpos)
    match m.productReads x ((mmaSweeps w).length - 1) with
    | .ok m el =>
      let rows := mmaRows w x.loom.scales (mmaK w) el
      let z := mmaTile w x.loom.anchors rows
      let y := { x with wait := none, flags := x.flags ||| z.2.toNat, loom := { x.loom with stage := 4, kpos := 0, tile := some z.1 } }
      (m.onCore (fun c => (c.addBeats x (beatsAll w rows) before).putCmd y), y)
    | a =>
      let k := m.stopIndex x
      let y := { x with loom := { x.loom with kpos := k } }
      let r := m.loomStop y 3 a
      (r.1.onCore (fun c => c.addBeats x (beatsTo w k (rowsTo m k)) before), r.2)

/-! ## Drain (R106, R121, R128, R129) -/

/-- What a drain makes of a tile: the bytes at their offsets, the flags, and the values scale history records. -/
def drainTile (d : DrainDesc) (pwq : Nat → List Byte) (seed : Nat) (h : SHist) (sc bi : List Byte) (t : WideTile) :
    List (Nat × List Byte) × NumFlags × List NV :=
  let scale := d.cvt.outScale d.fmt h
  let vec := fun (en ax : Bool) (bs : List Byte) (n : Nat) =>
    if en then decodeFmt .fp32 (leAt bs (4 * (if ax then n % 32 else n / 32)) 4) else NV.zero
  let cells := (List.range 1024).map (fun n =>
    drainCell d pwq seed scale (nthD t.cells n Cell.clear) (t.anchor n) (vec d.scEn d.scAx sc n) (vec d.biEn d.biAx bi n) n)
  let code := fun n => (nthD cells n (0, .none, .zero)).1
  let run := fun r => packElems d.fmt ((List.range 32).map (fun e => code (if d.tr then 32 * e + r else 32 * r + e)))
  ((List.range 32).map (fun r => (d.outBase + r * d.outStr, run r))
      ++ d.scaleRuns.map (fun s => (s.1, List.replicate s.2 (BitVec.ofNat 8 scale))),
    cells.foldl (fun f z => f.or z.2.1) .none, cells.map (fun z => z.2.2))

/-- Bytes at queue offsets as pending writes by tile-memory address. -/
def Cmd.pendingOf (x : Cmd) (rs : List (Nat × List Byte)) : List (Nat × Byte) :=
  rs.flatMap (fun r => r.2.mapIdx (fun i b => (x.phys r.1 + i, b)))

/-- A drain's outcome noted on its command: what it has still to write, its flags and its history. -/
def Cmd.drained (x : Cmd) (d : DrainDesc) (z : List (Nat × List Byte) × NumFlags × List NV) : Cmd :=
  { x with
    out := x.pendingOf z.1
    flags := x.flags ||| z.2.1.toNat
    hist := if d.fmt.records then [(d.cvt.shist, (recordAll z.2.2).toNat)] else [] }

/-- A matrix command in its drain: its tile as a record, or converted through its descriptor. -/
def Mach.mmaOut (m : Mach) (x : Cmd) (t : WideTile) : Cmd :=
  let w := x.word
  let d : DrainDesc := ⟨x.loom.desc⟩
  let x := { x with
    reads := m.core.slotsRead x (mmaRuns w ++ (if mmaExport w then [] else d.vectors))
    loom := { x.loom with stage := 5, tile := none } }
  if mmaExport w then { x with out := x.pendingOf [(mmaDOff w, t.encode 1)] }
  else
    let h := SHist.ofNat (m.core.tword x.unit (0x300 + 8 * d.cvt.shist)).toNat
    x.drained d (drainTile d (m.pwq x.unit) (m.core.rd R.CH_JOBSEED_SEED) h x.loom.sc x.loom.bi t)

/-- The drain, entered once it is free (R104), and its landing. -/
def Mach.mmaDrain (m : Mach) (ahead : Nat) (x : Cmd) : Mach × Cmd :=
  let land := fun (m : Mach) (y : Cmd) =>
    let m := m.landOut y
    (m, ((m.core.queueCmds y.unit y.q).find? (fun z => decide (z.id = y.id))).getD y)
  if !x.running ∨ ahead < 6 then (m, x)
  else match x.loom.tile with
    | some t => let y := m.mmaOut x t; land (m.onCore (fun c => c.putCmd y)) y
    | none => if x.loom.stage = 5 then land m x else (m, x)

/-- One command carried as far as the commands ahead of it in its array let it go (R103, R104). -/
def Mach.mma (m : Mach) (ahead : Nat) (x : Cmd) : Mach × Cmd :=
  let a := m.mmaAnchor ahead x
  let p := a.1.mmaProduct ahead a.2
  p.1.mmaDrain ahead p.2

/-- The commands of an array in order, each behind the last that is not done. -/
def Mach.mmaAll (m : Mach) (ahead : Nat) : List Cmd → Mach
  | [] => m
  | x :: xs =>
    let r := m.mma ahead x
    r.1.mmaAll (if r.2.running then r.2.loom.stage else ahead) xs

/-- The running matrix commands of an array, oldest first. -/
def Core.mmaOf (c : Core) (t a : Nat) : List Cmd := (c.queueCmds t a).filter (fun y => y.running && decide (y.opcode = 0x10))

/-- MMA: the matrix commands of an array go on. -/
def execMma (t a : Nat) (s : State) : Host.Outcome State Fault Refusal :=
  onlyIf (isTile t && decide (a < 4)) (s.onMach (fun m => m.mmaAll 6 (m.core.mmaOf t a)))

end Sys2Proof.Machine
end

