-- ==== Sys2Proof/Machine/Chain.lean ====
section
/-! DEFINITION. CHAIN and PSUM (chapter 7): rows, loads and stores, tile registers, reductions and summaries, and the
sum of wide partials. -/

namespace Sys2Proof.Machine

/-! ## Operand cache (R143) -/

/-- Bytes of a tile's operand cache read through the code. -/
def Mach.cacheRead (m : Mach) (t p n : Nat) : Mach × Option (List Byte) :=
  readSpan (fun m line => m.readLine t (cacheLineId t line) (cacheBase t + 64 * line) line false) m p n

/-- Bytes written to a tile's operand cache; false where a partial line cannot be merged. -/
def Mach.cacheWrite (m : Mach) (t p : Nat) (bs : List Byte) : Mach × Bool :=
  (lineChunks p bs).foldl (fun (acc : Mach × Bool) ch =>
    if acc.2 then acc.1.writeLine t (cacheLineId t ch.1) (cacheBase t + 64 * ch.1) ch.1 false ch.2.1 ch.2.2 else acc) (m, true)

/-! ## Where lanes lie (R140) -/

/-- Where lane `l` of row `r` of an LD or ST lies, and its bytes. -/
def Stage.laneRange (s : Stage) (r l : Nat) : Nat × Nat :=
  if s.fmt = .p4 then (s.addr + r * s.rstr + l / 2, 1)
  else (s.addr + r * s.rstr + l * s.fmt.unitBytes * 2 ^ s.lstep, s.fmt.unitBytes)

/-- The scale blocks of a row that hold an active lane. -/
def Stage.blocks (s : Stage) (act : List Bool) : List Nat :=
  if s.fmt.scaled then
    (List.range (32 / s.blockLanes)).filter (fun n =>
      (List.range s.blockLanes).any (fun i => nthD act (n * s.blockLanes + i) false))
  else []

/-- Every byte run an LD or ST touches in a row. -/
def Stage.rowRanges (s : Stage) (r : Nat) (act : List Bool) : List (Nat × Nat) :=
  ((List.range 32).filter (fun l => nthD act l false)).map (s.laneRange r)
    ++ (s.blocks act).map (fun n => (s.saddr + r * s.sstr + n, 1))

/-! ## One row (R134, R144, R145) -/

/-- What a row has formed so far: each stage's output and active lanes, flags, scale-history records, bytes to store in
tile memory and in the operand cache, and the slots it read. -/
structure RowAcc where
  outs : List (List Nat) := []
  act : List (List Bool) := []
  flags : NumFlags := .none
  hist : List (Nat × Nat) := []
  out : List (Nat × Byte) := []
  cout : List (Nat × Byte) := []
  reads : List Nat := []
  deriving DecidableEq, Repr

/-- What a row is evaluated under: the command, its stages and their types, the row, and the mask register. -/
structure RowEnv where
  x : Cmd
  sts : List Stage
  tys : List Bool
  r : Nat
  mask : Nat
  seed : Nat
  pwq : Nat → List Byte

/-- Whether lane `l` is active in stage `s` (R144). -/
def RowEnv.active (e : RowEnv) (outs : List (List Nat)) (s l : Nat) : Bool :=
  let g := chMstg e.x.word
  bit e.mask l && (g = 0 || s < g || laneNonzero (nthD e.tys (g - 1) false) (nthD (nthD outs (g - 1) []) l 0))

/-- The lanes active in a stage. -/
def RowEnv.lanes (e : RowEnv) (outs : List (List Nat)) (s : Nat) : List Bool := (List.range 32).map (e.active outs s)

/-- The runs in tile memory of the loads of a group of stages. -/
def RowEnv.loads (e : RowEnv) (outs : List (List Nat)) (ss : List Nat) : List (Nat × Nat) :=
  (ss.filter (fun n => decide ((nthD e.sts n ⟨0⟩).sop = sopLD) && !(nthD e.sts n ⟨0⟩).cache)).flatMap
    (fun n => (nthD e.sts n ⟨0⟩).rowRanges e.r (e.lanes outs n))

/-- The checks of a group of stages before any access of its row (Table 7.4, rows 4 to 6). -/
def RowEnv.status (e : RowEnv) (c : Core) (outs : List (List Nat)) (ss : List Nat) : Option Nat :=
  let moves := (ss.map (fun n => (nthD e.sts n ⟨0⟩, e.lanes outs n))).filter (fun p => p.1.moves)
  let rs := fun (cache : Bool) => ((moves.filter (fun p => p.1.cache = cache)).map (fun p => p.1.rowRanges e.r p.2)).flatten
  if !(e.x.boundAll (rs false)) || (rs true).any (fun r => decide (0x10000 < r.1 + r.2)) then some stBOUND
  else if !(e.x.bankAll clsChain (rs false)) then some stBANK
  else if (e.loads outs ss).any (fun r => c.meetsFailed e.x (e.x.phys r.1) r.2) then some stFAILED
  else none

/-- Bytes as they stood when the command started: its own stores undone (R141). -/
def undo (old : List (Nat × Byte)) (a : Nat) (bs : List Byte) : List Byte :=
  bs.mapIdx (fun i b => ((old.find? (fun p => decide (p.1 = a + i))).map (·.2)).getD b)

/-- One run of a load's bytes. -/
def Mach.loadRun (m : Mach) (e : RowEnv) (s : Stage) (r : Nat × Nat) : Ans (List Byte) :=
  if s.cache then
    match m.cacheRead e.x.unit r.1 r.2 with
    | (m, some bs) => .ok m (undo e.x.oldCache r.1 bs)
    | (m, none) => .fail m stUNCORR
  else (m.localRead e.x clsChain r.1 r.2).bind (fun m bs => .ok m (undo e.x.oldMem (e.x.phys r.1) bs))

/-- A load's runs in order. -/
def Mach.loadRuns (m : Mach) (e : RowEnv) (s : Stage) : List (Nat × Nat) → Ans (List (List Byte))
  | [] => .ok m []
  | r :: rs => (m.loadRun e s r).bind (fun m bs => (m.loadRuns e s rs).bind (fun m more => .ok m (bs :: more)))

/-- The random number of an element (R75, R140). DESIGN CHOICE (log entry 69): an index past 40 bits is taken modulo 2^40. -/
def RowEnv.rand (e : RowEnv) (s : Stage) (l : Nat) : Nat :=
  if s.seeded then srBits e.seed (chTensor e.x.word) ((chBaseIdx e.x.word + 32 * e.r + l) % 2 ^ 40) else 0

/-- A loaded element as its lane pattern (R59, R61, Table 4.1). -/
def RowEnv.loaded (e : RowEnv) (s : Stage) (l : Nat) (bs : List Byte) (scale : Nat) : Nat × NumFlags :=
  let code := if s.fmt = .p4 then bits (leAt bs 0 1) (4 * (l % 2)) 4 else elemAt s.fmt bs 0
  if s.fmt.floating then
    let v := decodeFmt s.fmt code
    convertFloat .fp32 s.cvt (if s.fmt.scaled then applyScale v scale else v) false (e.rand s l)
  else
    (match s.fmt with
      | .i8 => unsignedOf 32 (signedOf 8 code)
      | _ => code, .none)

/-- A stage's outputs from a function of its active lanes. -/
def laneMap (act : List Bool) (f : Nat → Nat × NumFlags) : List Nat × NumFlags :=
  let z := (List.range 32).map (fun l => if nthD act l false then f l else (0, .none))
  (z.map (·.1), z.foldl (fun g p => g.or p.2) .none)

/-- An LD stage (R140). -/
def Mach.loadStage (m : Mach) (e : RowEnv) (s : Stage) (act : List Bool) (a : RowAcc) : Ans RowAcc :=
  let ls := (List.range 32).filter (fun l => nthD act l false)
  let bl := s.blocks act
  (m.loadRuns e s (s.rowRanges e.r act)).bind (fun m bss =>
    let z := laneMap act (fun l =>
      e.loaded s l (nthD bss (ls.idxOf l) []) (leAt (nthD bss (ls.length + bl.idxOf (l / s.blockLanes)) []) 0 1))
    .ok m { a with
      outs := a.outs ++ [z.1]
      act := a.act ++ [act]
      flags := a.flags.or z.2
      reads := a.reads ++ (if s.cache then [] else m.core.slotsRead e.x (s.rowRanges e.r act)) })

/-- IMM as operand `k` of a stage reads it (R54, R135). -/
def Stage.immVal (s : Stage) (tys : List Bool) (k : Nat) : Nat := if s.immFp tys k then fpRead s.imm else s.imm

/-- The source value of operand `k` at lane `l`. -/
def RowAcc.srcVal (a : RowAcc) (tys : List Bool) (s : Stage) (k l : Nat) : Nat :=
  if s.src k = 8 then s.immVal tys k else nthD (nthD a.outs (s.src k) []) l 0

/-- A byte of tile memory or operand cache as it stands, for the other half of a P4 byte. -/
def Mach.standing (m : Mach) (e : RowEnv) (s : Stage) (a : RowAcc) (off : Nat) : Nat :=
  let p := if s.cache then off else e.x.phys off
  let later := (if s.cache then a.cout else a.out).reverse.find? (fun q => decide (q.1 = p))
  match later with
  | some q => q.2.toNat
  | none =>
    let r := if s.cache then m.cacheRead e.x.unit p 1 else m.tileRead e.x.unit p 1
    leAt (r.2.getD []) 0 1

/-- One stored element as bytes at its offset (R78, R80, R140). -/
def Mach.storeLane (m : Mach) (e : RowEnv) (s : Stage) (act : List Bool) (scale : Nat) (a : RowAcc) (l : Nat) :
    List (Nat × List Byte) × NumFlags :=
  let v := a.srcVal e.tys s 0 l
  let z := if s.fmt.floating then convertFloat s.fmt s.cvt (divideScale (fpv v) scale) false (e.rand s l)
    else storeInt s.fmt (signedOf 32 v)
  let r := s.laneRange e.r l
  if s.fmt = .p4 then
    if l % 2 = 1 ∧ nthD act (l - 1) false = true then
      let lo := convertFloat s.fmt s.cvt (divideScale (fpv (a.srcVal e.tys s 0 (l - 1))) scale) false (e.rand s (l - 1))
      ([(r.1, [BitVec.ofNat 8 (lo.1 + 16 * z.1)])], z.2)
    else ([(r.1, [BitVec.ofNat 8 (setBits (m.standing e s a r.1) (4 * (l % 2)) 4 z.1)])], z.2)
  else ([(r.1, toBytes r.2 z.1)], z.2)

/-- An ST stage: what it will store once the row's reads have all been made (R140). -/
def Mach.storeStage (m : Mach) (e : RowEnv) (s : Stage) (act : List Bool) (a : RowAcc) : RowAcc :=
  let ls := (List.range 32).filter (fun l => nthD act l false)
  let scale := s.cvt.outScale s.fmt (SHist.ofNat (nthD e.x.shist s.cvt.shist 0).toNat)
  let z := ls.map (m.storeLane e s act scale a)
  let runs := (z.map (·.1)).flatten
    ++ (s.blocks act).map (fun n => (s.saddr + e.r * s.sstr + n, [BitVec.ofNat 8 scale]))
  let cells := runs.flatMap (fun r => r.2.mapIdx (fun i b => ((if s.cache then r.1 else e.x.phys r.1) + i, b)))
  { a with
    outs := a.outs ++ [(List.range 32).map (fun l => if nthD act l false then a.srcVal e.tys s 0 l else 0)]
    act := a.act ++ [act]
    flags := z.foldl (fun g p => g.or p.2) a.flags
    hist := a.hist ++ (if s.fmt.floating && s.fmt.records && !ls.isEmpty then
      [(s.cvt.shist, (recordAll (ls.map (fun l => fpv (a.srcVal e.tys s 0 l)))).toNat)] else [])
    out := if s.cache then a.out else a.out ++ cells
    cout := if s.cache then a.cout ++ cells else a.cout }

/-- Where element `(i, j)` of tile register `k` lies. -/
def tregAt (t k i j : Nat) : Nat := tregBase t + 4096 * k + 4 * (32 * i + j)

/-- A stage that reads registers, computes or reduces (Table 7.3). -/
def Mach.plainStage (m : Mach) (e : RowEnv) (s : Stage) (act : List Bool) (a : RowAcc) : RowAcc :=
  let z := if s.sop = sopLDT then
      laneMap act (fun l =>
        let p := if bit s.sub 1 then tregAt e.x.unit (bits s.addr 0 3) l e.r else tregAt e.x.unit (bits s.addr 0 3) e.r l
        let v := leAt (m.read p 4) 0 4
        (if bit s.sub 0 then v else fpRead v, .none))
    else if s.sop = sopSTT ∨ s.sop = sopMSET ∨ (s.reduces && s.axis1) = true then
      laneMap act (fun l => (a.srcVal e.tys s 0 l, .none))
    else if s.reduces then
      let q := reduce s (((List.range 32).filter (fun l => nthD act l false)).map (fun l => (l, a.srcVal e.tys s 0 l)))
      ((List.range 32).map (fun l => if nthD act l false then q.1 else 0), q.2.2)
    else laneMap act (fun l => laneOp s e.pwq e.r l (e.rand s l) (a.srcVal e.tys s 0 l) (a.srcVal e.tys s 1 l) (a.srcVal e.tys s 2 l))
  { a with outs := a.outs ++ [z.1], act := a.act ++ [act], flags := a.flags.or z.2 }

/-- The stages of a row in order; the checks of those a dynamic mask governs come once it is known. -/
def Mach.rowStages (m : Mach) (e : RowEnv) (a : RowAcc) : List Nat → Ans RowAcc
  | [] => .ok m a
  | n :: ns =>
    let s := nthD e.sts n ⟨0⟩
    let act := e.lanes a.outs n
    let bad := if n = chMstg e.x.word ∧ n ≠ 0 then e.status m.core a.outs (n :: ns) else none
    match bad with
    | some st => .fail m st
    | none =>
      (if s.sop = sopLD then m.loadStage e s act a
        else if s.sop = sopST then .ok m (m.storeStage e s act a)
        else .ok m (m.plainStage e s act a)).bind (fun m a => m.rowStages e a ns)

/-- One row evaluated: its checks, its reads and its values. -/
def Mach.evalRow (m : Mach) (e : RowEnv) : Ans RowAcc :=
  let ns := List.range e.sts.length
  let g := chMstg e.x.word
  match e.status m.core [] (if g = 0 then ns else ns.take g) with
  | some st => .fail m st
  | none => m.rowStages e {} ns

/-! ## A pass (R141, R153) -/

/-- The environment of a command's next row. -/
def Mach.rowEnv (m : Mach) (x : Cmd) (sts : List Stage) : RowEnv :=
  { x := x, sts := sts, tys := stageTypes sts, r := x.rows.length, mask := m.core.trd x.unit (R.CHN_LM_LANES (chMreg x.word)),
    seed := m.core.rd R.CH_JOBSEED_SEED, pwq := m.pwq x.unit }

/-- The old bytes under stores not yet remembered. -/
def remember (rd : Nat → Byte) (old : List (Nat × Byte)) (ws : List (Nat × Byte)) : List (Nat × Byte) :=
  ws.foldl (fun o w => if o.any (fun p => decide (p.1 = w.1)) then o else o ++ [(w.1, rd w.1)]) old

/-- Bytes of the operand cache stored one by one. -/
def Mach.cacheStores (m : Mach) (t : Nat) (ws : List (Nat × Byte)) : Mach × Bool :=
  ws.foldl (fun (acc : Mach × Bool) w => if acc.2 then acc.1.cacheWrite t w.1 [w.2] else acc) (m, true)

/-- The byte of tile memory or cache at an address of the flat space. -/
def Mach.byteAt (m : Mach) (a : Nat) : Byte := SMap.get (0 : Byte) m.mem a

/-- A row's values noted on the command and its cache stores made; its tile-memory stores are pending. -/
def Mach.noteRow (m : Mach) (x : Cmd) (a : RowAcc) : Ans Cmd :=
  let y := { x with
    rows := x.rows ++ [⟨a.outs, a.act⟩]
    flags := x.flags ||| a.flags.toNat
    hist := x.hist ++ a.hist
    out := a.out
    reads := x.reads ++ a.reads.filter (fun s => !x.reads.contains s)
    committed := x.committed || !a.cout.isEmpty
    wait := none
    oldMem := remember (fun p => m.byteAt (tileBase x.unit + p)) x.oldMem a.out
    oldCache := remember (fun p => m.byteAt (cacheBase x.unit + p)) x.oldCache a.cout }
  match (m.onCore (fun c => c.putCmd y)).cacheStores x.unit a.cout with
  | (m, true) => .ok m y
  | (m, false) => .fail m stUNCORR

/-- The elements `(index, value)` of a stage that are active, in index order. -/
def stageElems (rows : List RowTrace) (s : Nat) : List (Nat × Nat) :=
  (rows.mapIdx (fun r t => ((List.range 32).filter (fun l => nthD (nthD t.act s []) l false)).map
    (fun l => (32 * r + l, nthD (nthD t.outs s []) l 0)))).flatten

/-- The values a stage read as A, element by element; an immediate is itself. -/
def stageInputs (sts : List Stage) (rows : List RowTrace) (s : Nat) : List (Nat × Nat) :=
  let st := nthD sts s ⟨0⟩
  (stageElems rows s).map (fun p =>
    (p.1, if st.src 0 = 8 then st.immVal (stageTypes sts) 0 else nthD (nthD (nthD rows (p.1 / 32) ⟨[], []⟩).outs (st.src 0) []) (p.1 % 32) 0))

/-- A reduction's results: row or lane, value and index (R147), with its flags where AXIS is 1. -/
def reductions (sts : List Stage) (rows : List RowTrace) (s : Nat) : List (Nat × Nat × Nat) × NumFlags :=
  let st := nthD sts s ⟨0⟩
  let xs := stageInputs sts rows s
  if st.axis1 then
    let z := (List.range 32).map (fun l => (l, reduce st ((xs.filter (fun p => decide (p.1 % 32 = l))).map (fun p => (p.1 / 32, p.2)))))
    (z.map (fun p => (p.1, p.2.1, p.2.2.1)), z.foldl (fun f p => f.or p.2.2.2) .none)
  else
    ((List.range (min rows.length 32)).map (fun r =>
      let q := reduce st ((xs.filter (fun p => decide (p.1 / 32 = r))).map (fun p => (p.1 % 32, p.2)))
      (r, q.1, q.2.1)), .none)

/-- The tile-register writes of a stage: register, row, column and value (R142, R147). -/
def registerWrites (sts : List Stage) (rows : List RowTrace) (s : Nat) : List (Nat × Nat × Nat × Nat) :=
  let st := nthD sts s ⟨0⟩
  if st.sop = sopSTT then
    (stageElems rows s).map (fun p =>
      if bit st.sub 1 then (bits st.addr 0 3, p.1 % 32, p.1 / 32, p.2) else (bits st.addr 0 3, p.1 / 32, p.1 % 32, p.2))
  else if st.reduces then
    ((reductions sts rows s).1.map (fun q =>
      let at' := if st.axis1 then (st.rpos, q.1) else (q.1, st.rpos)
      (if st.ren then [(st.rdst, at'.1, at'.2, q.2.1)] else []) ++ (if st.xen then [(st.ridx, at'.1, at'.2, q.2.2)] else []))).flatten
  else []

/-- The mask an MSET stage leaves (R146). -/
def maskWrite (sts : List Stage) (tys : List Bool) (rows : List RowTrace) (s : Nat) : Nat :=
  let st := nthD sts s ⟨0⟩
  let last := (stageElems rows s).filter (fun p => decide (p.1 / 32 + 1 = rows.length) && laneNonzero (st.anyTy (tys.take s)) p.2)
  last.foldl (fun w p => setBit w (p.1 % 32) true) 0

/-- The effects of a chain command that completes with OK (R142, R146, R150). -/
def Mach.chainDone (m : Mach) (x : Cmd) (sts : List Stage) : Mach :=
  let tys := stageTypes sts
  let ns := List.range sts.length
  let f := ns.foldl (fun f s => if (nthD sts s ⟨0⟩).reduces then f.or (reductions sts x.rows s).2 else f) NumFlags.none
  let x := { x with flags := x.flags ||| f.toNat }
  let m := ns.foldl (fun m s => (registerWrites sts x.rows s).foldl
    (fun (m : Mach) w => m.write (tregAt x.unit w.1 w.2.1 w.2.2.1) (toBytes 4 w.2.2.2)) m) m
  m.onCore (fun c =>
    let c := ns.foldl (fun c s =>
      let st := nthD sts s ⟨0⟩
      if st.sop = sopMSET then c.twr x.unit (R.CHN_LM_LANES (bits st.addr 0 2)) (maskWrite sts tys x.rows s) else c) c
    let c := if chSumstg x.word = 0 then c
      else
        let s := chSumstg x.word - 1
        let z := summarise (nthD tys s false) (stageElems x.rows s)
        (c.setTword x.unit (0x3010 + 0x10 * chSums x.word) (BitVec.ofNat 64 z.1)).setTword x.unit
          (0x3018 + 0x10 * chSums x.word) (BitVec.ofNat 64 z.2)
    (c.putCmd x).endEngine x stOK)

/-- The rows still to do, one after another, until one waits or fails. -/
def Mach.chainRows (m : Mach) (x : Cmd) (sts : List Stage) : Nat → Mach
  | 0 => m.chainDone x sts
  | k + 1 =>
    match (m.evalRow (m.rowEnv x sts)).bind (fun m a => m.noteRow x a) with
    | .ok m y =>
      match m.landRuns y (runsOf y.out) with
      | .ok m z => (m.onCore (fun c => c.putCmd z)).chainRows z sts k
      | .wait m _ => m
      | .held => m.onCore (fun c => c.putCmd y)
      | .fail m st => m.onCore (fun c => c.endEngine y st)
    | .wait m s => m.onCore (fun c => c.putCmd { x with wait := some ⟨s, false⟩ })
    | .held => m
    | .fail m st => m.onCore (fun c => c.endEngine x st)

/-- The beats of a chain-engine command counted (Table 7.8): how many it took is bounded, not given (log entry 17). -/
def Core.chainBeats (c : Core) (x : Cmd) : Core :=
  let d := c.draw
  d.2.twr x.unit R.CHN_BEATS_BEATS (d.2.trd x.unit R.CHN_BEATS_BEATS + d.1.toNat)

/-- CHAIN: its stage entries, then its rows from the next one on. -/
def Mach.chain (m : Mach) (x : Cmd) : Mach :=
  let go := fun (m : Mach) (x : Cmd) =>
    match m.localRead x clsChain (chSptr x.word) (16 * chNS x.word) with
    | .ok m bs =>
      m.chainRows x (stagesFrom bs (chNS x.word)) (chNR x.word - x.rows.length)
    | .wait m s => m.onCore (fun c => c.putCmd { x with wait := some ⟨s, false⟩ })
    | .held => m
    | .fail m st => m.onCore (fun c => (c.putCmd x).endEngine x st)
  let m : Mach := if x.out = [] then go m x
    else match m.landRuns x (runsOf x.out) with
      | .ok m y => go (m.onCore (fun c => c.putCmd y)) y
      | .wait m _ => m
      | .held => m
      | .fail m st => m.onCore (fun c => c.endEngine x st)
  m.onCore (fun c => c.chainBeats x)

/-- CHAIN. -/
def execChain (t : Nat) (s : State) : Host.Outcome State Fault Refusal :=
  onlyIf (isTile t) (s.onMach (fun m => m.withCmd t 4 0 0x20 Mach.chain))

/-! ## PSUM (R131, R154, R155) -/

/-- The header, the cells and the anchors of a record (R129, R130). -/
def recordHead (r : Nat × Nat) : List (Nat × Nat) := [(r.1, 64), (r.1 + r.2 - 128, 128)]
/-- The cell and side lines of a record. -/
def recordBody (r : Nat × Nat) : Nat × Nat := (r.1 + 64, r.2 - 192)

/-- Records put together from their headers and anchors, two reads each, and their bodies; zeros for bodies not read. -/
def joinRecords (recs : List (Nat × Nat)) (heads bodies : List (List Byte)) : List (List Byte) :=
  recs.mapIdx (fun i r => nthD heads (2 * i) [] ++ (bodies[i]?).getD (List.replicate (r.2 - 192) 0) ++ nthD heads (2 * i + 1) [])

/-- Whether the records of a sum are ones it takes (R131). -/
def recordsOk (rs : List (List Byte)) : Bool :=
  rs.all recordValid && rs.all (fun r => decide (leAt r 1 1 = leAt (rs.head?.getD []) 1 1))

/-- What a PSUM reads, in three steps: its list and its descriptor with the vectors, the headers and anchors of the records
(pass 1), whose end R131 is judged at, and their cells (pass 2). -/
structure PsIn where
  desc : Nat
  vecs : List (List Byte)
  recs : List (Nat × Nat)
  data : List (List Byte)
  deriving DecidableEq, Repr

/-- The reads of PSUM (R131, R152, R154, R155, R157). -/
def Mach.psReads (m : Mach) (x : Cmd) : Ans PsIn :=
  let w := x.word
  (m.readRuns x clsChain ((psLptr w, 2 * psNrec w) :: (if psDrain w then [(psOptr w, 64)] else []))).bind (fun m hs =>
    let d : DrainDesc := ⟨if psDrain w then ofBytes (nthD hs 1 []) else 0⟩
    match (if psDrain w then x.drainStatus d (m.pwq x.unit) clsChain else none) with
    | some st => .fail m st
    | none => (m.readRuns x clsChain (if psDrain w then d.vectors else [])).bind (fun m vs =>
        let recs := m.psRecords x (nthD hs 0 [])
        (m.readRuns x clsChain (recs.flatMap recordHead)).bind (fun m h =>
          if recordsOk (joinRecords recs h []) then
            (m.readRuns x clsChain (recs.map recordBody)).bind (fun m b => .ok m ⟨d.raw, vs, recs, joinRecords recs h b⟩)
          else .fail m stFORMAT)))

/-- A sum computed: what it has still to write, its flags and history, and the slots it has read. -/
def Mach.psumOut (m : Mach) (x : Cmd) (i : PsIn) : Cmd :=
  let w := x.word
  let z := sumPartials (i.data.map WideTile.decode)
  let d : DrainDesc := ⟨i.desc⟩
  let ovf : NumFlags := if z.2 then .overflow else .none
  let x := { x with
    wait := none
    flags := ovf.toNat
    reads := m.core.slotsRead x ((psLptr w, 2 * psNrec w) :: i.recs ++ (if psDrain w then (psOptr w, 64) :: d.vectors else [])) }
  if psDrain w then
    let h := SHist.ofNat (m.core.tword x.unit (0x300 + 8 * d.cvt.shist)).toNat
    x.drained d (drainTile d (m.pwq x.unit) (m.core.rd R.CH_JOBSEED_SEED) h (if d.scEn then nthD i.vecs 0 [] else [])
      (if d.biEn then i.vecs.getLast?.getD [] else []) z.1)
  else { x with out := x.pendingOf [(psOptr w, z.1.encode 2)] }

/-- PSUM: its reads, then the sum and its output. -/
def Mach.psum (m : Mach) (x : Cmd) : Mach :=
  if x.out ≠ [] then m.landOut x
  else
    let m : Mach := match m.psReads x with
      | .ok m i => let y := m.psumOut x i; (m.onCore (fun c => c.putCmd y)).landOut y
      | .wait m s => m.onCore (fun c => c.putCmd { x with wait := some ⟨s, false⟩ })
      | .held => m
      | .fail m st => m.onCore (fun c => c.endEngine x st)
    m.onCore (fun c => c.chainBeats x)

/-- PSUM. -/
def execPsum (t : Nat) (s : State) : Host.Outcome State Fault Refusal :=
  onlyIf (isTile t) (s.onMach (fun m => m.withCmd t 4 0 0x21 Mach.psum))

end Sys2Proof.Machine
end

