-- ==== Sys2Proof/Machine/SliceMem.lean ====
section
/-! DEFINITION. Larder scratchpad and cached lines through the error code (R173, R174, R181), and the events that reach
across units: window closes (R280), HOLD (R300) and device-fatal events (R386). -/

namespace Sys2Proof.Machine

/-! ## Slice memory -/

/-- VAL of a COUNTS entry with more counted, each field saturating (Table 17.4). -/
def addCounts (val one two bad : Nat) : Nat :=
  satAdd 32 (bits val 0 32) one + 2 ^ 32 * satAdd 16 (bits val 32 16) two + 2 ^ 48 * satAdd 16 (bits val 48 16) bad

/-- A slice's correction counts with more counted (R378). -/
def Core.countSlice (c : Core) (s one two bad : Nat) : Core :=
  { c with lar := { c.lar with counts := SMap.set 0 c.lar.counts s (addCounts (SMap.get 0 c.lar.counts s) one two bad) } }

/-- An uncorrectable larder line found (R174, R384). -/
def Core.foundInSlice (c : Core) (s line : Nat) : Core :=
  (c.countSlice s 0 0 1).corrected 0x45 4 (faultUnit (960 + s)) (line % 2 ^ 14)

/-- One line of a slice read and decoded; `weight` its class. -/
def Mach.sliceLine (m : Mach) (s line : Nat) (weight : Bool) : Mach × Option (List Byte) :=
  let id := sliceLineId s line
  let es := m.lineErrs id
  let base := sliceBase s + 64 * line
  if es = [] then (m, some (m.read base 64))
  else match decodeLine weight es with
    | .word l k =>
      ({ m with
        core := (m.core.countSlice s (b2n (decide (k = 1))) (b2n (decide (k = 2))) 0).noteFixed (960 + s) line (fixedSymbols es l)
        corr := if k = 0 || m.corr.contains id then m.corr else m.corr ++ [id] }, some (withErrors (m.read base 64) l))
    | .uncorrectable => ({ m with core := (m.core.foundInSlice s line).callRow (960 + s) line }, none)

/-- Bytes of a scratchpad slice; none where a line is uncorrectable. -/
def Mach.sliceRead (m : Mach) (s p n : Nat) : Mach × Option (List Byte) :=
  let w := decide (m.core.rd (R.LAR_CTL_WCLASS s) = 1)
  readSpan (fun m line => m.sliceLine s line w) m p n

/-- A line of a slice written: whole, or merged (R173). -/
def Mach.writeSliceLine (m : Mach) (s line : Nat) (weight : Bool) (at' : Nat) (bs : List Byte) : Mach × Bool :=
  let base := sliceBase s + 64 * line
  let id := sliceLineId s line
  if bs.length = 64 then ((m.write base bs).clearErrs id, true)
  else match m.sliceLine s line weight with
    | (m, none) => (m, false)
    | (m, some old) => ((m.write base (splice 0 old at' bs)).clearErrs id, true)

/-- Bytes written to a scratchpad slice, line by line. -/
def Mach.sliceWrite (m : Mach) (s p : Nat) (bs : List Byte) : Mach × Bool :=
  let w := decide (m.core.rd (R.LAR_CTL_WCLASS s) = 1)
  (lineChunks p bs).foldl (fun (acc : Mach × Bool) ch =>
    if acc.2 then acc.1.writeSliceLine s ch.1 w ch.2.1 ch.2.2 else acc) (m, true)

/-! ## Windows (R280) -/

/-- A closing window whose INBOUND is zero is CLOSED. -/
def Core.settleWin (c : Core) (w : Nat) : Core :=
  if c.rd (R.LAR_WIN_CLOSING w) = 1 ∧ c.rd (R.LAR_WIN_INBOUND w) = 0 then
    (c.wr (R.LAR_WIN_OPEN w) 0).wr (R.LAR_WIN_CLOSING w) 0
  else c

/-- A window's close begun: CLOSING, and GEN incremented at once. A window that is not open is left alone. -/
def Core.closeWin (c : Core) (w : Nat) : Core :=
  if c.winOpen w then
    (((c.wr (R.LAR_WIN_CLOSING w) 1).wr (R.LAR_WIN_GEN w) (c.rd (R.LAR_WIN_GEN w) + 1))).settleWin w
  else c

/-- The windows of a unit closed (R280). -/
def Core.closeWinsOf (c : Core) (u : Nat) : Core :=
  (List.range 1024).foldl (fun c w => if c.winOpen w && decide (c.winUnit w = u) then c.closeWin w else c) c
/-- Every window closed. -/
def Core.closeAllWins (c : Core) : Core := (List.range 1024).foldl Core.closeWin c

/-! ## HOLD and device-fatal events (R300, R386) -/

/-- HOLD entered: POSTs that have reached their wait, posted or not, complete with HSTAT (R300). -/
def Core.enterHold (c : Core) (st : Nat) : Core :=
  let c := (c.wr R.CH_BELLSTEP_STATE 2).wr R.CH_BELLSTAT_HSTAT st
  let at' := fun (x : Cmd) => decide (x.unit < 960) && decide (x.opcode = 0x0B) && decide (x.q = 7)
    && (decide (x.phase = .waitTally) || decide (x.phase = .ready) || decide (x.phase = .run))
  let posted := (c.queues.cmds.filter at').map Cmd.unit
  let c : Core := posted.foldl (fun c t => c.twr t R.SEQ_BELL_PEND 0) c
  c.mapCmds (fun x => if at' x then x.finish st else x)

/-- Every queue of the chiplet aborted with RANGE = 0 (R386). -/
def Core.abortAll (c : Core) : Core :=
  (List.range 1060).foldl (fun c u => (c.abortQueues u (List.range (queuesOf u)) none).1) c

/-- A device-fatal event (R386). -/
def Core.deviceFatal (c : Core) (code unit : Nat) : Core :=
  let c := (((c.record 3 (eventSource code) unit 0 code 0).wr R.LDG_ALERT_JOBF 1).notify 2 3 code).joinStep 1
  (((c.wr R.LDG_ALERT_DEVF 1).enterHold stFAILED).abortAll).closeAllWins

end Sys2Proof.Machine
end

