-- ==== Sys2Proof/Machine/Wire.lean ====
section
/-! DEFINITION. The wires of a strand (R247 to R249, R255, R256): the lane code, check symbols and frame layout, the training
pattern and results message. -/

namespace Sys2Proof.Machine

/-! ## The lane code (R247) -/

/-- The wire that sends a symbol (Table 11.2). -/
def codeWire (sym : Nat) : Nat := sym % 4
/-- The levels of a lane's four wires after a symbol: exactly one of them toggles. -/
def laneSend (levels sym : Nat) : Nat := levels ^^^ 2 ^ codeWire sym
/-- The symbol that the first wire toggled stands for. -/
def wireSymbol (w : Nat) : Nat := w % 4
end Sys2Proof.Machine

namespace Sys2Proof

/-- The symbol a lane delivers: that of its first transition. -/
def Glitch.symbol (g : Glitch) : Nat := Machine.wireSymbol (g.wires.headD 0)
/-- A code violation: a second transition within 40 ps of the first. -/
def Glitch.violates (g : Glitch) : Bool := decide (2 ≤ g.wires.length)

end Sys2Proof

namespace Sys2Proof.Machine

/-! ## Check symbols and trailer (R219, R249) -/

/-- The check symbols of up to 64 bytes: symbols 64 and 65, for which both syndromes are zero. -/
def checkSymbols (bs : List Byte) : Nat × Nat :=
  let es := bs.zipIdx.map (fun x => (x.2, x.1.toNat))
  let s0 := syndrome 0 es
  let c1 := gfMul (syndrome 1 es ^^^ gfMul (locator 64) s0) (gfInv (locator 64 ^^^ locator 65))
  (s0 ^^^ c1, c1)
/-- The same as bytes: symbol 64 first (log entry 9). -/
def checkBytes (bs : List Byte) : List Byte :=
  [BitVec.ofNat 8 (checkSymbols bs).1, BitVec.ofNat 8 (checkSymbols bs).2]

/-- The 80 bytes of a frame with a block and a control: bytes 64 to 79 are the trailer. -/
def frameBytes (block control : List Byte) : List Byte := block ++ checkBytes block ++ control ++ checkBytes control

/-! ## Symbols on lanes (R249) -/

/-- The symbols of a frame. -/
def frameLen (half : Bool) : Nat := if half then 10 else 5
/-- The logical lanes of a width. -/
def laneCount (half : Bool) : Nat := if half then 32 else 64

/-- The byte and the bit within it that symbol `t` of logical lane `l` carries. -/
def framePlace (half : Bool) (l t : Nat) : Nat × Nat :=
  if t < 4 then (l, 2 * t)
  else if half = false then (64 + l / 4, 2 * (l % 4))
  else if t < 8 then (l + 32, 2 * (t - 4))
  else
    let k := if t = 8 then l else l + 32
    (64 + k / 4, 2 * (k % 4))

/-- The symbol a logical lane sends at a place of a frame. -/
def frameSymbol (half : Bool) (bytes : List Byte) (l t : Nat) : Nat :=
  bits (bytes.getD (framePlace half l t).1 0).toNat (framePlace half l t).2 2

/-- The wires a frame toggles, symbol by symbol and logical lane by logical lane. -/
def frameWires (half : Bool) (bytes : List Byte) : List (List Nat) :=
  (List.range (frameLen half)).map (fun t => (List.range (laneCount half)).map (fun l => codeWire (frameSymbol half bytes l t)))

/-- The first `n` good lanes, lowest first (R255): logical lane `l` is the one at place `l`. -/
def goodLanes (bad n : Nat) : List Nat := ((List.range 72).filter (fun l => !bit bad l)).take n

end Sys2Proof.Machine

namespace Sys2Proof

/-- The glitches of a frame on the active lanes, each with the byte it affects and the bits it changes there. -/
def FrameObs.hits (o : FrameObs) (half : Bool) (map : List Nat) (bytes : List Byte) : List (Glitch × Nat × Nat) :=
  o.glitches.filterMap (fun g =>
    match map.idxOf? g.lane with
    | some l =>
      let at' := Machine.framePlace half l g.t
      if g.t < Machine.frameLen half then some (g, at'.1, (g.symbol ^^^ Machine.frameSymbol half bytes l g.t) * 2 ^ at'.2) else none
    | none => none)

end Sys2Proof

namespace Sys2Proof.Machine

/-- The place in the block's code of a byte of a frame: trailer bytes 0 and 1 are its check symbols. -/
def blockPlace (i : Nat) : Option Nat := if i < 66 then some i else none
/-- The place in the control's code of a byte of a frame: trailer bytes 14 and 15 are its check symbols. -/
def controlPlace (i : Nat) : Option Nat := if i < 66 then none else if i < 78 then some (i - 66) else some (i - 14)

/-- What a code makes of a frame: the errors of the bytes that are its own, those with a violation marked as erasures. -/
def decodeHits (len : Nat) (place : Nat → Option Nat) (hs : List (Glitch × Nat × Nat)) : Decoded :=
  let own := hs.filterMap (fun h => (place h.2.1).map (fun i => (h.1, i, h.2.2)))
  decodeErased len (own.foldl (fun es h => addError es h.2.1 h.2.2) [])
    ((own.filter (fun h => h.1.violates)).map (fun h => h.2.1))

/-! ## Training (R255, R256) -/

/-- One step of the pattern's register: the bit sent, and the register after it. -/
def patternStep (s : Nat) : Nat × Nat :=
  let b := (s / 2 ^ 14 % 2) ^^^ (s / 2 ^ 13 % 2)
  (b, (2 * s ||| b) % 2 ^ 15)
/-- `n` symbols of the pattern from a register's value. -/
def patternFrom : Nat → Nat → List Nat
  | 0, _ => []
  | n + 1, s =>
    let x := patternStep s
    let y := patternStep x.2
    (2 * y.1 + x.1) :: patternFrom n y.2
/-- The training pattern of a lane: 4,096 symbols. -/
def lanePattern (l : Nat) : List Nat := patternFrom 4096 (l + 1)

end Sys2Proof.Machine

namespace Sys2Proof

/-- A lane is good: every symbol has the pattern's value, with no violation. -/
def LaneSeen.good (x : LaneSeen) : Bool :=
  decide (x.violations = 0) && x.wrong.all (fun w => (Machine.lanePattern x.lane)[w.1]? == some w.2)

end Sys2Proof

namespace Sys2Proof.Machine

/-- The lanes that are good, as a mask. -/
def goodMap (seen : List LaneSeen) : Nat :=
  seen.foldl (fun m x => if x.lane < 72 ∧ x.good = false then setBit m x.lane false else m) (2 ^ 72 - 1)

/-- The results message: the good-lane map, then the descriptor. -/
def resultsMessage (good desc : Nat) : Nat := good % 2 ^ 72 + 2 ^ 72 * (desc % 2 ^ 64)

/-- The bits that more than half of the copies hold; the spec names no value for a tie, which reads 0 here (DESIGN CHOICE,
log entry 77). -/
def majority (copies : List Nat) : Nat :=
  (List.range 136).foldl (fun m i => if copies.length < 2 * (copies.filter (fun x => bit x i)).length then m + 2 ^ i else m) 0

/-- A direction of a link as training finds it: its good lanes, the measured rate, the attempts its confirmation took. -/
structure DirObs where
  good : Nat
  rate : Nat
  attempts : Nat
  deriving DecidableEq, Repr

end Sys2Proof.Machine

namespace Sys2Proof

/-- The inbound direction, which this end judges itself. -/
def TrainObs.inDir (o : TrainObs) : Machine.DirObs := ⟨Machine.goodMap o.lanes, o.inRate, o.inTries⟩
/-- The outbound direction, whose good lanes the partner's results tell. -/
def TrainObs.outDir (o : TrainObs) : Machine.DirObs := ⟨Machine.majority o.copies % 2 ^ 72, o.outRate, o.outTries⟩
/-- The partner's descriptor (Table 11.6). -/
def TrainObs.desc (o : TrainObs) : Nat := Machine.majority o.copies / 2 ^ 72

end Sys2Proof
end

