-- ==== Sys2Proof/Machine/Link.lean ====
section
/-! DEFINITION. The Sheind link (chapter 11, R249 to R254): packets and frames as bytes, credits, sending, receiving,
acceptance and resend. -/

namespace Sys2Proof.Machine

/-! ## Packets and frame control as bits (Tables 10.2 and 11.3) -/

/-- Fields packed from bit 0 up: each a width and a value. -/
def packBits : List (Nat × Nat) → Nat
  | [] => 0
  | (w, v) :: r => v % 2 ^ w + 2 ^ w * packBits r

/-- The header of a packet (Table 10.2). -/
def Packet.header (p : Packet) : List Byte :=
  toBytes 32 (packBits [(4, p.typ), (1, p.epoch), (3, p.vc), (1, p.phase), (1, b2n p.esc), (1, b2n p.mcast),
    (1, b2n p.maxis), (1, b2n p.ackreq), (3, p.resv), (10, p.len), (6, p.tally), (6, p.mlast), (4, p.status),
    (8, p.hops), (11, p.inter), (3, p.resv / 8), (16, p.seq), (16, p.part), (32, p.arg), (64, p.dst), (64, p.src)])

/-- A packet as it travels. -/
def Packet.wire (p : Packet) : List Byte := p.header ++ p.payload

/-- The packet that bytes spell; the payload of a data packet is its LEN bytes. -/
def Packet.ofWire (bs : List Byte) : Packet :=
  let h := ofBytes (bs.take 32)
  let f := fun lo w => bits h lo w
  { typ := f 0 4, epoch := f 4 1, vc := f 5 3, phase := f 8 1, esc := bit h 9, mcast := bit h 10, maxis := bit h 11,
    ackreq := bit h 12, resv := f 13 3 + 8 * f 61 3, len := f 16 10, tally := f 26 6, mlast := f 32 6, status := f 38 4,
    hops := f 42 8, inter := f 50 11, seq := f 64 16, part := f 80 16, arg := f 96 32, dst := f 128 64, src := f 192 64,
    payload := if isData (f 0 4) then (bs.drop 32).take (f 16 10) else [] }

/-- The 12 bytes of a frame's control (Table 11.3). A frame's 80 bytes on the lanes are `laneBytes`. -/
def frameControl (f : Frame) : List Byte :=
  let o := fun (x : Option (Nat × Nat)) => x.getD (0, 0)
  toBytes 12 (packBits [(3, f.ftype), (3, f.lvc), (2, f.resv), (12, f.lseq),
    (1, b2n f.accept.isSome), (12, (o f.accept).2), (6, (o f.accept).1),
    (1, b2n f.resend.isSome), (12, (o f.resend).2), (6, (o f.resend).1),
    (1, b2n f.credit.isSome), (3, (o f.credit).1), (8, (o f.credit).2), (3, f.pstate), (23, f.resv / 4)])

/-- The 80 bytes of a frame: its block, and a trailer with both codes' check symbols (R249). -/
def laneBytes (f : Frame) : List Byte := frameBytes (splice 0 (List.replicate 64 0) 0 (f.block.take 64)) (frameControl f)

/-- The frame that 12 control bytes and a block spell. -/
def frameOf (bs block : List Byte) : Frame :=
  let h := ofBytes bs
  let f := fun lo w => bits h lo w
  { ftype := f 0 3, lvc := f 3 3, resv := f 6 2 + 4 * f 73 23, lseq := f 8 12,
    accept := if bit h 20 then some (f 33 6, f 21 12) else none,
    resend := if bit h 39 then some (f 52 6, f 40 12) else none,
    credit := if bit h 58 then some (f 59 3, f 62 8) else none, pstate := f 70 3, block := block }

/-- Bytes cut into 64-byte blocks, the last padded with zeros (R249). -/
def blocksOf (bs : List Byte) : List (List Byte) :=
  (List.range (ceilDiv bs.length 64)).map (fun i => splice 0 (List.replicate 64 0) 0 ((bs.drop (64 * i)).take 64))

/-- The frames of a packet: B for a data packet, one for a control packet. -/
def Packet.nFrames (p : Packet) : Nat := if isData p.typ then ceilDiv p.bytes 64 else 1

/-- The frames of a packet (R249). -/
def Packet.frames (p : Packet) (lvc lseq : Nat) : List Frame :=
  let bs := blocksOf p.wire
  let mk := fun (t : Nat) (b : List Byte) => ({ ftype := t, lvc := lvc, lseq := lseq, block := b } : Frame)
  if !isData p.typ then bs.map (mk 5)
  else if bs.length = 1 then bs.map (mk 4)
  else bs.zipIdx.map (fun x => mk (if x.2 = 0 then 1 else if x.2 + 1 = bs.length then 3 else 2) x.1)

/-! ## Strands (Table 11.13) -/

/-- Strands of a port each way (R244). -/
def nStrands (p : Nat) : Nat := if p < 4 then 40 else 4
/-- Whether a port and a strand exist. -/
def isStrand (p s : Nat) : Bool := decide (p < 6) && decide (s < nStrands p)
/-- A strand's state: 0 OFF, 1 TRAINING, 2 FULL, 3 HALF, 4 RETIRED, 5 LOST; `d` 0 outbound, 1 inbound. -/
def Core.sst (c : Core) (p d s : Nat) : Nat := c.rd (R.PRT_STRAND_SSTATE p d s)
/-- A usable strand. -/
def Core.usable (c : Core) (p d s : Nat) : Bool := decide (c.sst p d s = 2) || decide (c.sst p d s = 3)
/-- The usable strands of a port in one direction. -/
def Core.usables (c : Core) (p d : Nat) : List Nat := (List.range (nStrands p)).filter (c.usable p d)
/-- What the link logic keeps for a link. -/
def Core.link (c : Core) (p s : Nat) : LinkSt := SMap.get {} c.ports.links (64 * p + s)
/-- A link's record replaced. -/
def Core.putLink (c : Core) (p s : Nat) (l : LinkSt) : Core :=
  { c with ports := { c.ports with links := SMap.set {} c.ports.links (64 * p + s) l } }

/-- The counts of strands at FULL and HALF in PRT_STATE (Table 11.11). -/
def Core.recount (c : Core) (p : Nat) : Core :=
  let n := fun (c : Core) d v => ((List.range (nStrands p)).filter (fun s => decide (c.sst p d s = v))).length
  let c' := (c.wr (R.PRT_STATE_OUT_FULL p) (n c 0 2)).wr (R.PRT_STATE_OUT_HALF p) (n c 0 3)
  (c'.wr (R.PRT_STATE_IN_FULL p) (n c 1 2)).wr (R.PRT_STATE_IN_HALF p) (n c 1 3)
/-- A strand's state changed. -/
def Core.setSst (c : Core) (p d s v : Nat) : Core := (c.wr (R.PRT_STRAND_SSTATE p d s) v).recount p

/-! ## Sending (R251, R252, R254) -/

/-- Whether a strand runs at half width. -/
def Core.half (c : Core) (p d s : Nat) : Bool := decide (c.sst p d s = 3)

/-- A frame sent on an outbound strand, if it is usable, with the port's state (R260): its symbols await acknowledge (R248;
the window of 16 only paces them, log entry 60). -/
def Core.emit (c : Core) (p s : Nat) (f : Frame) : Core :=
  if c.usable p 0 s then
    let f := { f with pstate := c.rd (R.PRT_STATE_STATE p) }
    let l := c.link p s
    let c := c.putLink p s { l with lastOut := c.now, sent := l.sent + (frameWires (c.half p 0 s) (laneBytes f)).length }
    { c with ports := { c.ports with wire := c.ports.wire ++ [(p, s, f)] } }
  else c

/-- A frame sent on the lowest usable strand: acceptances, resends and link messages may travel on any (R252). -/
def Core.emitAny (c : Core) (p : Nat) (f : Frame) : Core :=
  match c.usables p 0 with
  | [] => c
  | s :: _ => c.emit p s f

/-- The excluded physical lanes of a strand, as a mask. -/
def Core.excluded (c : Core) (p d s : Nat) : Nat :=
  c.rd (R.PRT_LANEBAD_BADLO p d s) + 2 ^ 64 * c.rd (R.PRT_STRAND_BADHI p d s)

/-- Credits held for a strand's channel. -/
def Core.credits (c : Core) (p s v : Nat) : Nat := (c.link p s).credits.getD v 0

/-- The usable strand with the most credits for a packet, if one holds enough; a packet that has left a strand takes
another where there is one (R252, R254). -/
def Core.bestStrand (c : Core) (p v b : Nat) (avoid : Option Nat) : Option Nat :=
  let ss := (c.usables p 0).filter (fun s => decide (b ≤ c.credits p s v))
  let others := (c.usables p 0).filter (fun s => decide (some s ≠ avoid))
  let ss := if others = [] then ss else ss.filter (fun s => decide (some s ≠ avoid))
  ss.foldl (fun best s => match best with
    | none => some s
    | some x => if c.credits p x v < c.credits p s v then some s else some x) none

/-- A held packet's frames sent on a strand under a sequence number, its credits spent. -/
def Core.transmit (c : Core) (h : Held) (s lseq : Nat) : Core × Held :=
  let l := c.link h.port s
  let c := c.putLink h.port s { l with credits := modNth l.credits h.lvc (fun x => x - h.pkt.nFrames) }
  let c : Core := (h.pkt.frames h.lvc lseq).foldl (fun c f => c.emit h.port s f) c
  (c, { h with strand := some s, lseq := lseq, sentAt := c.now, again := false })

/-- The state the partner at a port presents in PSTATE. -/
def Core.peer (c : Core) (p : Nat) : Nat := SMap.get 2 c.ports.peer p
/-- A packet for the neighbour at a ring port itself: its DST names the SLOT of the partner's descriptor (R245). -/
def Core.forPeer (c : Core) (p : Nat) (pkt : Packet) : Bool :=
  decide (4 ≤ p) && decide (pkt.dst / 2 ^ 45 = c.selfTop / 16 * 16 + bits (c.rd (R.PRT_PARTNER_DESC p)) 28 4)

/-- A held packet sent, or sent again on its strand, where it holds the credits. A ring neighbour that is not ACTIVE is
delivered nothing of its own, and relays as before (Table 11.8, R263, R269). -/
def Core.pumpOne (c : Core) (p : Nat) (h : Held) : Core × Held :=
  if h.port ≠ p then (c, h)
  else if c.forPeer p h.pkt && decide (c.peer p ≠ 2) then (c, h)
  else match h.strand with
    | some s =>
      if h.again && c.usable p 0 s && decide (h.pkt.nFrames ≤ c.credits p s h.lvc) then c.transmit h s h.lseq else (c, h)
    | none =>
      match c.bestStrand p h.lvc h.pkt.nFrames h.avoid with
      | none => (c, h)
      | some s =>
        let l := c.link p s
        (c.putLink p s { l with nextLseq := (l.nextLseq + 1) % 4096 }).transmit h s l.nextLseq

/-- Every held packet of a port that can be sent. -/
def Core.pump (c : Core) (p : Nat) : Core :=
  let r := c.ports.held.foldl (fun (acc : Core × List Held) h =>
    let x := acc.1.pumpOne p h
    (x.1, acc.2 ++ [x.2])) (c, [])
  { r.1 with ports := { r.1.ports with held := r.2 } }

/-- A packet put into a port's outbound logic (R254, R263). -/
def Core.sendOut (c : Core) (p : Nat) (pkt : Packet) (relay : Bool) : Core :=
  let h : Held := { port := p, pkt := pkt, lvc := lvcOf pkt, relay := relay }
  ({ c with ports := { c.ports with held := c.ports.held ++ [h] } }).pump p

/-- Packets held on a strand go to others (R252). -/
def Core.reissueFrom (c : Core) (p s : Nat) : Core :=
  let f := fun (h : Held) =>
    if h.port = p ∧ h.strand = some s then { h with strand := none, resends := 0, again := false } else h
  Core.pump { c with ports := { c.ports with held := c.ports.held.map f } } p

/-! ## Receiving (R251, R252) -/

/-- A packet a frame's AV accepts is held no longer. -/
def Core.takeAccept (c : Core) (p : Nat) (f : Frame) : Core :=
  match f.accept with
  | none => c
  | some (s, q) =>
    let keep := fun (h : Held) => !(decide (h.port = p) && decide (h.strand = some s) && decide (h.lseq = q))
    { c with ports := { c.ports with held := c.ports.held.filter keep } }

/-- A RESEND: the packet is due again on its strand; the third moves it to another and counts a hard event on the first. -/
def Core.takeResend (c : Core) (p : Nat) (f : Frame) : Core :=
  match f.resend with
  | none => c
  | some (s, q) =>
    let hit := fun (h : Held) => decide (h.port = p) && decide (h.strand = some s) && decide (h.lseq = q)
    let third := c.ports.held.any (fun h => hit h && decide (h.resends = 2))
    let c := c.bump (R.PRT_CNT_RESEND p 0 s) 1
    let c := if third then c.bump (R.PRT_CNT_HARD p 0 s) 1 else c
    let f := fun (h : Held) =>
      if hit h then
        (if h.resends = 2 then { h with strand := none, resends := 0, again := false, avoid := some s }
         else { h with resends := h.resends + 1, again := true })
      else h
    Core.pump { c with ports := { c.ports with held := c.ports.held.map f } } p

/-- Credits returned for a link's outbound strand. -/
def Core.takeCredit (c : Core) (p s : Nat) (f : Frame) : Core :=
  match f.credit with
  | none => c
  | some (v, n) =>
    let l := c.link p s
    (c.putLink p s { l with credits := modNth l.credits v (fun x => x + n) }).pump p

/-- The partial packet of an inbound strand set, or cleared. -/
def Core.setPartial (c : Core) (p s : Nat) (x : Option Partial) : Core :=
  let rest := c.ports.partials.filter (fun y => !(decide (y.port = p) && decide (y.strand = s)))
  { c with ports := { c.ports with partials := rest ++ x.toList } }
/-- The partial packet of an inbound strand. -/
def Core.partial? (c : Core) (p s : Nat) : Option Partial :=
  c.ports.partials.find? (fun y => decide (y.port = p) && decide (y.strand = s))

/-- Credits given back to the partner, on the link's own strand. -/
def Core.giveCredit (c : Core) (p s v n : Nat) : Core := if n = 0 then c else c.emit p s { credit := some (v, n) }
/-- The partial packet of a strand discarded: the credits of its blocks go back (R251). -/
def Core.dropPartial (c : Core) (p s : Nat) : Core :=
  match c.partial? p s with
  | some x => (c.setPartial p s none).giveCredit p s x.lvc x.blocks
  | none => c

/-- A packet come to its last frame: RESEND where a block was uncorrectable, and otherwise ACCEPT; one accepted before
under its LSEQ is discarded. -/
def Core.packetIn (c : Core) (p s lvc lseq : Nat) (bs : List Byte) (blocks : Nat) (bad : Bool) : Core :=
  let l := c.link p s
  if bad then
    let n := ((l.resent.find? (fun x => decide (x.1 = lseq))).map (fun x => x.2)).getD 0 + 1
    let rest := l.resent.filter (fun x => decide (x.1 ≠ lseq))
    let c := c.putLink p s { l with resent := if n = 3 then rest else (lseq, n) :: rest }
    let c := (c.bump (R.PRT_CNT_RESEND p 1 s) 1)
    let c := if n = 3 then c.bump (R.PRT_CNT_HARD p 1 s) 1 else c
    (c.emitAny p { resend := some (s, lseq) }).giveCredit p s lvc blocks
  else if l.accepted.contains lseq then (c.emitAny p { accept := some (s, lseq) }).giveCredit p s lvc blocks
  else
    let rest := l.resent.filter (fun x => decide (x.1 ≠ lseq))
    let c := c.putLink p s { l with accepted := (lseq :: l.accepted).take 256, resent := rest }
    let x : Rx := { port := p, strand := s, lvc := lvc, blocks := blocks, pkt := Packet.ofWire bs }
    ({ c with ports := { c.ports with rx := c.ports.rx ++ [x] } }).emitAny p { accept := some (s, lseq) }

/-- A link control message in a block (Table 11.4); a reserved LTYPE is none. -/
def lctlOf (p : Nat) (b : List Byte) : Option Lctl :=
  let at' := fun i => (b.getD i 0).toNat
  if at' 0 = 0 ∨ 4 < at' 0 then none
  else some { port := p, ltype := at' 0, link := at' 1, dir := at' 2 % 2, width := at' 2 / 2 % 4, entries :=
    (List.range (min (at' 3) 30)).map (fun i => leAt b (4 + 2 * i) 2 % 4096) }

/-- The block of a link control message. -/
def Lctl.block (m : Lctl) : List Byte :=
  splice 0 (List.replicate 64 0) 0 ([BitVec.ofNat 8 m.ltype, BitVec.ofNat 8 m.link, BitVec.ofNat 8 (m.dir + 2 * m.width),
    BitVec.ofNat 8 m.entries.length] ++ m.entries.flatMap (toBytes 2))

/-- A link control message sent on any strand. -/
def Core.sendLctl (c : Core) (m : Lctl) : Core := c.emitAny m.port { ftype := 7, block := m.block }

/-- A frame's block, by its type, with what the block's code makes of it. A block discarded gives its credit back (R251). -/
def Core.takeBlock (c : Core) (p s : Nat) (f : Frame) (r : Decoded) : Core :=
  let c := match r with
    | .word _ k => if k = 0 then c else c.bump (R.PRT_CNT_CORR p 1 s) 1
    | .uncorrectable => c
  let bad := decide (r = .uncorrectable)
  let bs := match r with
    | .word left _ => withErrors f.block left
    | .uncorrectable => f.block
  match f.ftype with
  | 0 => c
  | 1 => (c.dropPartial p s).setPartial p s (some ⟨p, s, f.lseq, f.lvc, bs, 1, bad, false⟩)
  | 4 => (c.dropPartial p s).packetIn p s f.lvc f.lseq bs 1 bad
  | 5 => (c.dropPartial p s).packetIn p s f.lvc f.lseq (bs.take 32) 1 bad
  | 6 =>
    ((c.dropPartial p s).packetIn p s f.lvc f.lseq (bs.take 32) 1 bad).packetIn p s f.lvc ((f.lseq + 1) % 4096)
      (bs.drop 32) 0 bad
  | 7 =>
    let c := c.dropPartial p s
    if bad then c else { c with ports := { c.ports with lctl := c.ports.lctl ++ (lctlOf p bs).toList } }
  | t =>
    match c.partial? p s with
    | none => c.giveCredit p s f.lvc 1
    | some x =>
      if x.skip then c.giveCredit p s f.lvc 1
      else
        let x := { x with bytes := x.bytes ++ bs, blocks := x.blocks + 1, bad := x.bad || bad }
        if t = 3 then (c.setPartial p s none).packetIn p s x.lvc x.lseq x.bytes x.blocks x.bad
        else c.setPartial p s (some x)

/-- The code violations of a frame counted, in the window and lane by lane, and its symbols as completed: each toggles ACK0
and ACK1 once (R247, R248). -/
def Core.countSymbols (c : Core) (p s : Nat) (hits : List (Glitch × Nat × Nat)) : Core :=
  let l := c.link p s
  let vs := (hits.filter (fun h => h.1.violates)).map (fun h => h.1.lane)
  let add := fun (ls : List (Nat × Nat)) v => SMap.set 0 ls v (SMap.get 0 ls v + 1)
  let c := c.putLink p s { l with lastIn := c.now, lanes := vs.foldl add l.lanes, taken := l.taken + frameLen (c.half p 1 s) }
  c.bump (R.PRT_CNT_CODEV p 1 s) vs.length

/-- A frame received: its control is checked before anything else (R252). A frame with unreadable control gives no credit
back, since it names no channel (DESIGN CHOICE, log entry 76). -/
def Core.frameIn (c : Core) (p s : Nat) (o : FrameObs) : Core :=
  if !c.usable p 1 s then c
  else
    let half := c.half p 1 s
    let hits := o.hits half (goodLanes (c.excluded p 1 s) (laneCount half)) (laneBytes o.frame)
    let c := c.countSymbols p s hits
    let c := { c with ports := { c.ports with lastFrame := SMap.set 0 c.ports.lastFrame p c.now } }
    match decodeHits 12 controlPlace hits with
    | .uncorrectable => (c.dropPartial p s).setPartial p s (some ⟨p, s, 0, 0, [], 0, false, true⟩)
    | .word left _ =>
      let f := frameOf (withErrors (frameControl o.frame) left) o.frame.block
      let c := { c with ports := { c.ports with peer := SMap.set 2 c.ports.peer p f.pstate } }
      ((((c.takeAccept p f).takeResend p f).takeCredit p s f).takeBlock p s f (decodeHits 64 blockPlace hits)).pump p

/-- ACCTMO_EXPIRY: a held packet without ACCEPT is due again on its strand (R252). -/
def Core.acctmo (c : Core) (i : Nat) : Core :=
  match c.ports.held[i]? with
  | none => c
  | some h =>
    if h.strand.isSome ∧ h.again = false ∧ c.rd R.PRT_TIMERS_ACCTMO ≤ c.now - h.sentAt then
      ({ c with ports := { c.ports with held := c.ports.held.set i { h with again := true } } }).pump h.port
    else c
/-- ACCTMO_EXPIRY. -/
def execAcctmoExpiry (i : Nat) (s : State) : Host.Outcome State Fault Refusal := s.onCore (fun c => c.acctmo i)

/-- IDLE_FRAME: a usable strand that has carried nothing for IDLEPER ticks sends an IDLE frame (R260). -/
def Core.idleFrame (c : Core) (p s : Nat) : Core :=
  if c.rd R.PRT_TIMERS_IDLEPER ≤ c.now - (c.link p s).lastOut then c.emit p s {} else c
/-- IDLE_FRAME. -/
def execIdleFrame (p s : Nat) (st : State) : Host.Outcome State Fault Refusal :=
  onlyIf (isStrand p s) (st.onCore (fun c => c.idleFrame p s))

/-- COUNT_WINDOW: at the end of a window, and never before, the per-window counts of a link start again (R258). -/
def Core.countWindow (c : Core) (p s : Nat) : Core :=
  let l := c.link p s
  if c.rd R.PRT_THRESH_WIN ≤ c.now - l.window then
    (((c.putLink p s { l with window := c.now, lanes := [], worn := [] }).wr (R.PRT_CNT_CODEV p 1 s) 0).wr (R.PRT_CNT_HARD p 0 s) 0).wr
      (R.PRT_CNT_HARD p 1 s) 0
  else c
/-- COUNT_WINDOW. -/
def execCountWindow (p s : Nat) (st : State) : Host.Outcome State Fault Refusal :=
  onlyIf (isStrand p s) (st.onCore (fun c => c.countWindow p s))

end Sys2Proof.Machine
end

