-- ==== Sys2Proof/Machine/Mover.lean ====
section
/-! DEFINITION. The mover's commands PUT, GET, GATHER, COPY, RTINC, SEAL and SEALX at their source (chapters 12 and 13),
each run sending the next part; reissue, loss and the source's streams (R288, R289). -/

namespace Sys2Proof.Machine

/-! ## Parts at their source (R282, R283) -/

/-- The width of the offset field of a unit class. -/
def offBits (cls : Nat) : Nat :=
  match cls with
  | 0 => 20 | 1 => 22 | 2 => 30 | 3 => 22 | 6 => 16 | _ => 42

/-- An address moved up by `off` bytes; none where the offset leaves its field. -/
def partAddr (a off : Nat) : Option Nat :=
  let k := offBits (adClass a)
  if a % 2 ^ k + off < 2 ^ k then some (a + off) else none

/-- The source's checks of a part at `a + off` (log entry 18). -/
def Core.partStatus (c : Core) (x : Cmd) (a off n : Nat) : Option Nat :=
  match partAddr a off with
  | none => some stFORMAT
  | some d => c.sourceStatus d n (c.unitRouter x.unit)

/-- The checks of a multicast packet's part: its span was checked at the head. -/
def spanStatus (a off n : Nat) : Option Nat :=
  match partAddr a off with
  | none => some stFORMAT
  | some d => if adPastEnd d n then some stBOUND else none

/-- The local bytes of PUT at an offset from LOCAL (R283); a SWITCHING slice makes it wait (R176). -/
def Mach.localBytes (m : Mach) (x : Cmd) (off n : Nat) : Ans (List Byte) :=
  let l := rmLocal x.word
  if x.unit < 960 then m.localRead x clsMover (bits l 0 20 + off) n
  else
    let s := bits l 22 7
    if !m.core.unitThere (960 + s) then .fail m stLOST
    else if m.core.rd (R.LAR_CTL_STATE s) = 1 then .held
    else if m.core.rd (R.LAR_CTL_MODE s) = 0 then .fail m stDENIED
    else match m.sliceRead s (bits l 0 22 + off) n with
      | (m, some bs) => .ok m bs
      | (m, none) => .fail m stUNCORR

/-- Where a GET's bytes at an offset from LOCAL land: a tile-memory address, or a slice's number and offset. -/
def Cmd.landAt (x : Cmd) (off : Nat) : Nat :=
  if x.unit < 960 then x.phys (bits (rmLocal x.word) 0 20 + off) else bits (rmLocal x.word) 0 29 + off

/-- A packet sent, and its parts noted on its command. -/
def Core.sendParts (c : Core) (x : Cmd) (p : Packet) (loc : Nat) (st : Option Nat) : Core :=
  let r := c.sendNew p x.unit
  r.2.putCmd (x.addParts (x.nextParts.map (fun k => { k := k, pkt := r.1, first := c.now, loc := loc, status := st })))

/-- A command's next packet refused before it leaves. -/
def Mach.refuseNext (m : Mach) (x : Cmd) (st : Nat) : Mach := m.onCore (fun c => c.putCmd (x.refuseNext st))

/-- Whether a command has a part left to issue. -/
def Cmd.more (x : Cmd) : Bool := !x.cut && decide (x.parts.length < x.p)

/-! ## PUT (R283, R284, R287, R230) -/

/-- The WRITE of PUT's next part. -/
def Core.putPacket (c : Core) (x : Cmd) (off : Nat) (bs : List Byte) : Packet :=
  let w := x.word
  { typ := 1, mcast := decide (rmMC w ≠ 0), maxis := decide (rmMC w = 2), ackreq := !bit w 195, len := bs.length,
    tally := bits w 180 6, mlast := rmMlast w, part := x.parts.length, arg := b2n (bit w 186), dst := rmRemote w + off,
    src := c.srcOf x, payload := bs }

/-- PUT: its next packet. -/
def Mach.put (m : Mach) (x : Cmd) : Mach :=
  if x.more then
    let w := x.word
    let off := 512 * (x.parts.length / x.width)
    let n := min 512 (rmLen w - off)
    let st := if rmMC w = 0 then m.core.partStatus x (rmRemote w) off n else spanStatus (rmRemote w) off n
    match st with
    | some st => m.refuseNext x st
    | none =>
      if !m.core.streamRoom x.unit (rmRemote w) x.width then m
      else match m.localBytes x off n with
        | .fail m st => m.refuseNext x st
        | .wait m s => m.onCore (fun c => c.putCmd { x with wait := some ⟨s, false⟩ })
        | .held => m
        | .ok m bs => m.onCore (fun c =>
            let new := if x.unit < 960 then (c.readSlots x (bits (rmLocal w) 0 20 + off) n) else []
            let y := { x with reads := x.reads ++ new.filter (fun s => !x.reads.contains s) }
            c.sendParts y (c.putPacket x off bs) 0 (if bit w 195 then some stOK else none))
  else m.onCore (fun c => c.putCmd x.settle)
/-- PUT. -/
def execPut (u q f : Nat) (s : State) : Host.Outcome State Fault Refusal :=
  onlyIf (isQueue u q) (s.onMach (fun m => m.withCmd u q f 0x30 Mach.put))

/-! ## GET and GATHER (R285) -/

/-- A READREQ for `n` bytes at `a + off`, to land at `loc`, as a command's next part. -/
def Mach.readPart (m : Mach) (x : Cmd) (a off n loc : Nat) : Mach :=
  match m.core.partStatus x a off n with
  | some st => m.refuseNext x st
  | none =>
    if !m.core.streamRoom x.unit a 1 then m
    else m.onCore (fun c =>
      c.sendParts x { typ := 2, ackreq := true, len := n, part := x.parts.length, dst := a + off, src := c.srcOf x } loc none)

/-- GET: its next part. -/
def Mach.get (m : Mach) (x : Cmd) : Mach :=
  if x.more then
    let off := 512 * x.parts.length
    m.readPart x (rmRemote x.word) off (min 512 (rmLen x.word - off)) (x.landAt off)
  else m.onCore (fun c => c.putCmd x.settle)
/-- GET. -/
def execGet (u q f : Nat) (s : State) : Host.Outcome State Fault Refusal :=
  onlyIf (isQueue u q) (s.onMach (fun m => m.withCmd u q f 0x31 Mach.get))

/-- The entry and the place in it of part `k` of a gather list: the source address, the offset, the bytes, the local
offset. -/
def gatherPart : List Nat → Nat → Option (Nat × Nat × Nat × Nat)
  | a :: n :: l :: rest, k =>
    if k < partsOf n then some (a, 512 * k, min 512 (n - 512 * k), l + 512 * k) else gatherPart rest (k - partsOf n)
  | _, _ => none

/-- GATHER: its list read and checked as it stands when the command first runs, then its next part. -/
def Mach.gather (m : Mach) (x : Cmd) : Mach :=
  if x.gather = [] then
    match m.localRead x clsMover (gaList x.word) (16 * gaCount x.word) with
    | .fail m st => m.onCore (fun c => c.finishCmd x st)
    | .wait m s => m.onCore (fun c => c.putCmd { x with wait := some ⟨s, false⟩ })
    | .held => m
    | .ok m bs =>
      match x.gatherStatus bs with
      | some st => m.onCore (fun c => c.finishCmd x st)
      | none => m.onCore (fun c =>
          let es := (gatherEntries bs (gaCount x.word)).getD []
          c.putCmd { x with
            wait := none
            reads := c.readSlots x (gaList x.word) (16 * gaCount x.word)
            gather := es.flatMap (fun e => [e.1, e.2.1, e.2.2])
            p := gatherParts es })
  else if x.more then
    match gatherPart x.gather x.parts.length with
    | some (a, off, n, l) => m.readPart x a off n (x.phys l)
    | none => m
  else m.onCore (fun c => c.putCmd x.settle)
/-- GATHER. -/
def execGather (t f : Nat) (s : State) : Host.Outcome State Fault Refusal :=
  onlyIf (isTile t) (s.onMach (fun m => m.withCmd t 6 f 0x32 Mach.gather))

/-! ## COPY and RTINC (R286) -/

/-- COPY: the read of its next part, once the part before it is done. -/
def Mach.copy (m : Mach) (x : Cmd) : Mach :=
  if x.parts.any (fun k => k.status.isNone) then m
  else if x.more then
    let off := 512 * x.parts.length
    m.readPart x (cpSrc x.word) off (min 512 (cpLen x.word - off)) 0
  else m.onCore (fun c => c.putCmd x.settle)
/-- COPY. -/
def execCopy (u q f : Nat) (s : State) : Host.Outcome State Fault Refusal :=
  onlyIf (isQueue u q) (s.onMach (fun m => m.withCmd u q f 0x33 Mach.copy))

/-- The TINC of RTINC. -/
def Core.tincPacket (c : Core) (x : Cmd) : Packet :=
  { typ := 5, ackreq := true, tally := bits x.word 128 6, arg := bits x.word 134 21, dst := rmRemote x.word, src := c.srcOf x }

/-- RTINC: one TINC. -/
def Mach.rtinc (m : Mach) (x : Cmd) : Mach :=
  if x.more then
    match m.core.partStatus x (rmRemote x.word) 0 0 with
    | some st => m.refuseNext x st
    | none =>
      if !m.core.streamRoom x.unit (rmRemote x.word) 1 then m
      else m.onCore (fun c => c.sendParts x (c.tincPacket x) 0 none)
  else m
/-- RTINC. -/
def execRtinc (u q f : Nat) (s : State) : Host.Outcome State Fault Refusal :=
  onlyIf (isQueue u q) (s.onMach (fun m => m.withCmd u q f 0x34 Mach.rtinc))

/-! ## SEAL (R306, R307) -/

/-- The product in GF(2^128) modulo `x^128 + x^7 + x^2 + x + 1`, over the low `k` bits of the second factor. -/
def sealMulAux : Nat → Nat → Nat → Nat
  | 0, _, _ => 0
  | k + 1, a, b =>
    (if b % 2 = 1 then a else 0) ^^^ sealMulAux k (if a < 2 ^ 127 then 2 * a else (2 * a) ^^^ (2 ^ 128 + 0x87)) (b / 2)
/-- The product in GF(2^128). -/
def sealMul (a b : Nat) : Nat := sealMulAux 128 a b

/-- The 16-byte blocks of a region, the last padded with zeros. -/
def sealBlocks (bs : List Byte) : List Nat := (List.range (ceilDiv bs.length 16)).map (fun i => leAt bs (16 * i) 16)

/-- A SEAL's contribution (R306). -/
def sealContrib (seed step rid : Nat) (bs : List Byte) : Nat :=
  let h := seed + (2 ^ 64 - 1 - seed) * 2 ^ 64
  let acc := (sealBlocks bs).foldl (fun acc x => sealMul (acc ^^^ x) h) (sealMul (rid + step * 2 ^ 32) h)
  sealMul (acc ^^^ bs.length) h

/-- SEAL: its region read, and its contribution sent to the seal unit (log entry 19). -/
def Mach.seal (m : Mach) (x : Cmd) : Mach :=
  if x.committed then m
  else match m.localRead x clsMover (bits x.word 64 20) (bits x.word 84 20 + 1) with
    | .fail m st => m.onCore (fun c => c.finishCmd x st)
    | .wait m s => m.onCore (fun c => c.putCmd { x with wait := some ⟨s, false⟩ })
    | .held => m
    | .ok m bs => m.onCore (fun c =>
        let c := c.putCmd { x with committed := true, wait := none }
        { c with bell := { c.bell with seals := c.bell.seals ++ [⟨x.id, bits x.word 104 32, bs⟩] } })
/-- SEAL. -/
def execSeal (t f : Nat) (s : State) : Host.Outcome State Fault Refusal :=
  onlyIf (isTile t) (s.onMach (fun m => m.withCmd t 5 f 0x38 Mach.seal))

/-- SEAL_CONTRIBUTION: folded into the step current at the seal unit; the SEAL completes (R306, R307). -/
def Core.foldSeal (c : Core) (i : Nat) : Core :=
  match c.bell.seals[i]? with
  | none => c
  | some g =>
    let step := c.rd R.CH_BELLSTEP_STEP
    let v := sealContrib (c.rd R.CH_JOBSEED_SEED) step g.rid g.data
    let k := step % 2
    let c := { c with bell := { c.bell with seals := c.bell.seals.eraseIdx i } }
    let c := (c.wr (R.CH_SEAL_LO_SEAL k) (c.rd (R.CH_SEAL_LO_SEAL k) ^^^ v % 2 ^ 64)).wr (R.CH_SEAL_HI_SEAL k)
      (c.rd (R.CH_SEAL_HI_SEAL k) ^^^ v / 2 ^ 64)
    c.mapCmds (fun y => if y.id = g.cmd ∧ y.running = true ∧ y.opcode = 0x38 then y.finish stOK else y)
/-- SEAL_CONTRIBUTION. -/
def execSealContribution (i : Nat) (s : State) : Host.Outcome State Fault Refusal := s.onCore (fun c => c.foldSeal i)

/-! ## SEALX (R308) -/

/-- The seal register of a step, as one value. -/
def Core.sealOf (c : Core) (step : Nat) : Nat :=
  c.rd (R.CH_SEAL_LO_SEAL (step % 2)) + 2 ^ 64 * c.rd (R.CH_SEAL_HI_SEAL (step % 2))

/-- The twin's seal unit: the same coordinates in the other plane. -/
def Core.twinSeal (c : Core) : Nat := (c.pageAddr 0x68400) ^^^ 2 ^ 63

/-- The step a SEALX exchanges. -/
def Cmd.sealStep (x : Cmd) : Nat := bits x.word 64 32

/-- The running SEALX commands of a step. -/
def Core.sealxOf (c : Core) (step : Nat) : List Cmd :=
  c.queues.cmds.filter (fun y => y.running && decide (y.opcode = 0x39) && decide (y.sealStep = step))

/-- An exchange ended: XSTEP, XSTAT, and every SEALX of the step (R308). -/
def Core.endExchange (c : Core) (step st : Nat) : Core :=
  let c := (c.wr R.CH_SEALST_XSTEP step).wr R.CH_SEALST_XSTAT st
  let c := { c with bell := { c.bell with exchanged := c.bell.exchanged ++ [(step, st)] } }
  c.mapCmds (fun y => if y.running = true ∧ y.opcode = 0x39 ∧ y.sealStep = step then y.finish st else y)

/-- A SEALX whose packet has its answer ends once the twin's own seal has been compared here, whatever the answer was; its
status is the higher-ranked of the two (R308, log entry 20). -/
def Core.sealxSettle (c : Core) (step : Nat) : Core :=
  match (c.sealxOf step).findSome? (fun y => (y.parts.head?).bind Part.status) with
  | none => c
  | some st =>
    match c.bell.compared.find? (fun r => decide (r.1 = step)) with
    | some r => c.endExchange step (joinStatus st r.2)
    | none => c

/-- The SEALX packet of a command. -/
def Core.sealxPacket (c : Core) (x : Cmd) : Packet :=
  { typ := 10, ackreq := true, len := 32, dst := c.twinSeal, src := c.srcOf x,
    payload := toBytes 4 x.sealStep ++ toBytes 12 0 ++ toBytes 16 (c.sealOf x.sealStep) }

/-- SEALX: the packet to the twin, where no exchange of the step is under way or done. -/
def Core.sealx (c : Core) (x : Cmd) : Core :=
  match c.bell.exchanged.find? (fun r => decide (r.1 = x.sealStep)) with
  | some r => c.finishCmd x r.2
  | none =>
    if (c.sealxOf x.sealStep).any (fun y => decide (y.parts ≠ [])) then c
    else if (c.wayOut c.twinSeal c.seamRouter).isNone then c.finishCmd x stLOST
    else if !c.streamRoom x.unit c.twinSeal 1 then c
    else
      let r := c.sendFrom (c.sealxPacket x) x.unit unitSeam
      r.2.putCmd { x with parts := [{ k := 0, pkt := r.1, first := c.now }], committed := true }
/-- SEALX. -/
def execSealx (t f : Nat) (s : State) : Host.Outcome State Fault Refusal :=
  onlyIf (isTile t) (s.onMach (fun m => m.withCmd t 5 f 0x39 (fun m x => m.onCore (fun c => c.sealx x))))

/-! ## Answers, reissue and loss (R289) -/

/-- A part given its status, and its command settled. -/
def Core.partDone (c : Core) (x : Cmd) (k st : Nat) : Core :=
  let x := { x with parts := x.parts.map (fun y => if y.k = k then { y with status := some st } else y) }
  if x.opcode = 0x39 then (c.putCmd x).sealxSettle x.sealStep else c.putCmd x.settle

/-- A part's packet put on the fabric again, with the same SEQ, in the current epoch. -/
def Core.resend (c : Core) (x : Cmd) (k : Part) : Core :=
  c.launch k.pkt (if k.pkt.typ = 10 then unitSeam else x.unit)

/-- Whether a part has its READDATA, whose landing waits (R285, R289). -/
def Core.landing (c : Core) (id : Nat × Nat) (k : Nat) : Bool :=
  c.net.arr.any (fun a => match a.land with | some g => decide (g.1 = id) && decide (g.2.1 = k) | none => false)

/-- The part of a running command whose outcome is open: it has no status, and its data has not come. -/
def Core.openPart (c : Core) (u q n k : Nat) : Option (Cmd × Part) :=
  match (c.queueCmds u q).find? (fun x => decide (x.idx = n) && x.running) with
  | none => none
  | some x => (x.parts.find? (fun y => decide (y.k = k) && y.status.isNone && !c.landing x.id k)).map (fun y => (x, y))

/-- REISSUE: at REISSUE ticks after issue, and at twice and three times that (R289). -/
def Core.reissue (c : Core) (u q n k : Nat) : Core :=
  match c.openPart u q n k with
  | none => c
  | some (x, y) =>
    if y.tries < 3 ∧ c.rd R.NET_E2E_REISSUE * (y.tries + 1) ≤ c.now - y.first then
      (c.resend x y).putCmd { x with parts := x.parts.map (fun z => if z.k = k then { z with tries := z.tries + 1 } else z) }
    else c
/-- REISSUE. -/
def execReissue (u q n k : Nat) (s : State) : Host.Outcome State Fault Refusal :=
  onlyIf (isQueue u q) (s.onCore (fun c => c.reissue u q n k))

/-- PART_LOSS: LOSS ticks after its first issue (R289). -/
def Core.partLoss (c : Core) (u q n k : Nat) : Core :=
  match c.openPart u q n k with
  | none => c
  | some (x, y) => if c.rd R.NET_E2E_LOSS ≤ c.now - y.first then c.partDone x k stTIMEOUT else c
/-- PART_LOSS. -/
def execPartLoss (u q n k : Nat) (s : State) : Host.Outcome State Fault Refusal :=
  onlyIf (isQueue u q) (s.onCore (fun c => c.partLoss u q n k))

end Sys2Proof.Machine
end

