-- ==== Sys2Proof/Machine/LedgerOps.lean ====
section
/-! DEFINITION. The ledger's record: entries, snapshots and floor-plan changes (R24, R379, R380, R382). -/

namespace Sys2Proof.Machine

/-- UNIT of a strand's entry. -/
def strandUnit (p d s : Nat) : Nat := p + 8 * d + 16 * s
/-- UNIT of a mesh link's entry. -/
def meshUnit (n k p : Nat) : Nat := n + 2 ^ 11 * k + 2 ^ 13 * p
/-- UNIT of a physical tile, and of a physical slice. -/
def tileUnit (row pcol : Nat) : Nat := row + 64 * pcol
def sliceUnit (s : Nat) : Nat := 2 ^ 15 + s

/-- What of ARG names the resource and position of an entry (R380). -/
def LEntry.place (e : LEntry) : Nat × Nat × Nat :=
  (e.kind, e.unit,
    match e.kind with
    | 2 => e.arg % 64
    | 3 => e.arg % 2 ^ 16
    | 4 => e.arg % 2 ^ 13
    | 6 => e.arg
    | 10 => e.arg % 16
    | 11 => e.arg
    | _ => 0)

/-- The order of entries: KIND, then UNIT, then ARG. -/
def LEntry.before (a b : LEntry) : Bool :=
  decide (a.kind < b.kind) || (decide (a.kind = b.kind)
    && (decide (a.unit < b.unit) || (decide (a.unit = b.unit) && decide (a.arg < b.arg))))

/-- An entry put in its place in a sorted list. -/
def putEntry (e : LEntry) : List LEntry → List LEntry
  | [] => [e]
  | x :: xs => if e.before x then e :: x :: xs else x :: putEntry e xs

/-- The entries with one more: it replaces an earlier one of the same resource and position. -/
def addEntry (l : List LEntry) (e : LEntry) : List LEntry := putEntry e (l.filter (fun x => decide (x.place ≠ e.place)))

/-- Whether the ledger has no room for an entry, which counts as no spare being free (R380): it holds 65,535, none of the
same resource and position. -/
def Core.ledgerFull (c : Core) (e : LEntry) : Bool :=
  decide (65535 ≤ c.led.entries.length) && c.led.entries.all (fun x => decide (x.place ≠ e.place))

/-- An entry added to the ledger, where there is room (R380). -/
def Core.ledgerAdd (c : Core) (e : LEntry) : Core :=
  if c.ledgerFull e then c else { c with led := { c.led with entries := addEntry c.led.entries e } }

/-- A snapshot made and in force: LGEN increases by one (R379, R382). -/
def Core.snapshot (c : Core) : Core :=
  let g := c.rd R.LDG_STATUS_LGEN + 1
  let c := (c.wr R.LDG_STATUS_LGEN g).wr R.LDG_STATUS_NENT c.led.entries.length
  { c with led := { c.led with snap := some ⟨g % 2 ^ 32, c.now, c.led.entries⟩ } }

/-- The floor plan has changed: GEN increments, with a record of code 41h and a snapshot (R24, R382, Table 17.7). -/
def Core.fpChange (c : Core) : Core :=
  ((c.wr R.LDG_FP_SUMMARY_GEN (c.rd R.LDG_FP_SUMMARY_GEN + 1)).corrected 0x41 3 0 0).snapshot

/-- A spare taken into use: a record of code 43h and a WEAR notice. -/
def Core.spareUsed (c : Core) (unit : Nat) : Core := c.corrected 0x43 4 unit 0
/-- A wear threshold crossed: a record of code 42h and a WEAR notice (R378). -/
def Core.wear (c : Core) (unit : Nat) : Core := c.corrected 0x42 4 unit 0

end Sys2Proof.Machine
end

