-- ==== Sys2Proof/Machine/Timebase.lean ====
section
/-! DEFINITION. The timebase (R37 to R40): the tick, time beacons and slewing. -/

namespace Sys2Proof.Machine

/-- The ticks of one oscillator cycle, in units of 2^-24 tick. -/
def Core.inc (c : Core) : Nat := c.rd R.TMB_CAL_INC

/-- What one cycle slews out of the offset: at most 100 ppm of INC (R37). -/
def Core.slewStep (c : Core) : Int :=
  let m : Int := (c.inc / 10000 : Nat)
  max (-m) (min c.tmb.slew m)

/-- One oscillator cycle: INC and the slew enter the accumulator, whose integer carries advance TMB_NOW (log entry 3). -/
def Core.tick (c : Core) : Core :=
  let d := c.slewStep
  let x := c.tmb.frac + ((c.inc : Int) + d).toNat
  let c := c.wr R.TMB_NOW_NOW (c.now + x / 2 ^ 24)
  { c with tmb := { c.tmb with frac := x % 2 ^ 24, slew := c.tmb.slew - d, slewed := c.tmb.slewed + d } }

/-- An offset in ticks to be slewed out (R37). -/
def Core.slewTo (c : Core) (off : Int) : Core :=
  let c := c.wr R.TMB_STATUS_SLEWING (b2n (decide (off ≠ 0)))
  { c with tmb := { c.tmb with slew := off * 2 ^ 24 } }

/-- The error of local time against a beacon in ppm, saturating (Table 2.4). Rounding down, and 32,767 where no hub time
has passed, are the model's (log entry 62). -/
def errPpm (loc hub : Int) : Int :=
  if hub ≤ 0 then 32767 else max (-32767) (min 32767 ((loc - hub) * 1000000 / hub))

/-- A beacon rejected (R38): DRIFT_ERR and a health notice. Its KIND is free among those a chiplet sends (R388), its CLASS
and CODE are 0 (log entries 7, 26). -/
def Core.rejectBeacon (c : Core) : Core :=
  let d := c.draw
  let c := (d.2.wr R.TMB_STATUS_DRIFT_ERR 1).notify (2 + d.1.toNat % 4) 0 0
  { c with tmb := { c.tmb with agree := 0 } }

/-- The tick of a beacon noted with the local tick. -/
def Core.noteBeacon (c : Core) (hub : Nat) : Core :=
  { c with tmb := { c.tmb with beacon := some (hub, c.now), slewed := 0 } }

/-- A later beacon applied (R37): INC corrected by hub time against local time without what was slewed meanwhile, rounded
as a free value has it, and the offset slewed out (log entry 62). -/
def Core.applyBeacon (c : Core) (hub : Nat) (he le : Int) : Core :=
  let d := c.draw
  let inc := (c.inc * he.toNat * 2 ^ 24 / (le * 2 ^ 24 - c.tmb.slewed).toNat + d.1.toNat % 2) % 2 ^ 32
  let ok := decide ((max (he - le) (le - he)) * 1000000 ≤ 50 * le)
  let n := if ok then c.tmb.agree + 1 else 0
  let c := d.2.wr R.TMB_CAL_INC inc
  let c := if 2 ≤ n then c.wr R.TMB_STATUS_CAL_VALID 1 else c
  let c := { c with tmb := { c.tmb with agree := n } }
  (c.noteBeacon hub).slewTo ((hub : Int) - c.now)

/-- TIME_BEACON: a beacon carrying the hub's tick count `hub` (R37, R38); 45 ticks are allowed for its crossing. -/
def Core.timeBeacon (c : Core) (hub : Nat) : Core :=
  let h := hub + 45
  match c.tmb.beacon with
  | none =>
    let c := if c.now < h then c.wr R.TMB_NOW_NOW h else c.slewTo ((h : Int) - c.now)
    c.noteBeacon h
  | some (h0, l0) =>
    let he : Int := (h : Int) - h0
    let le : Int := (c.now : Int) - l0
    let c := c.wr R.TMB_STATUS_ERR_PPM (unsignedOf 16 (errPpm le he))
    if he ≤ 0 ∨ le ≤ 0 ∨ le < (max (he - le) (le - he)) * 100 then c.rejectBeacon else c.applyBeacon h he le
/-- TIME_BEACON. -/
def execTimeBeacon (hub : Nat) (s : State) : Host.Outcome State Fault Refusal := s.onCore (fun c => c.timeBeacon hub)

/-- SLEW_COMPLETE: the offset is gone. -/
def Core.slewComplete (c : Core) : Core := if c.tmb.slew = 0 then c.wr R.TMB_STATUS_SLEWING 0 else c
/-- SLEW_COMPLETE. -/
def execSlewComplete (s : State) : Host.Outcome State Fault Refusal := s.onCore Core.slewComplete

end Sys2Proof.Machine
end

