-- ==== Sys2Proof/Machine/Weigh.lean ====
section
/-! DEFINITION. The weigh-house (chapter 14): setpoints, windows and grants, pace, heat and stacks. -/

namespace Sys2Proof.Machine

/-! ## Floors (Table 2.1, R30 to R32) -/

/-- The columns of Table 2.1 in °C. -/
def floorTemps : List Int := [-10, 5, 25, 65, 95, 105]
/-- The rows of Table 2.1: a voltage in mV and the rates in Mbeat/s. -/
def floorRows : List (Nat × List Nat) :=
  [(880, [1600, 1630, 1650, 1650, 1600, 1580]), (800, [1380, 1400, 1420, 1420, 1380, 1360]),
   (750, [1240, 1270, 1290, 1300, 1260, 1240]), (700, [1100, 1120, 1140, 1150, 1120, 1100]),
   (600, [850, 870, 880, 900, 890, 880]), (500, [550, 570, 580, 600, 600, 590])]

/-- A part's grade byte (Table 18.2): G2, and E. -/
def gradeG2 (g : Nat) : Bool := decide (g % 16 = 2)
/-- An E chiplet. -/
def gradeE (g : Nat) : Bool := decide (g / 16 = 2)

/-- The rate guaranteed at a voltage and temperature; none outside the part's junction range or the table (R30 to R32). -/
def rateFloor (grade mv : Nat) (tj : Int) : Option Nat :=
  if tj < (if gradeE grade then -10 else 5) ∨ 105 < tj then none
  else (floorRows.find? (fun r => decide (r.1 ≤ mv))).bind (fun r =>
    let cols := floorTemps.zip r.2
    let lo := ((cols.filter (fun x => decide (x.1 ≤ tj))).getLast?).map (·.2)
    let hi := ((cols.filter (fun x => decide (tj ≤ x.1))).head?).map (·.2)
    let g2 := fun x => if gradeG2 grade then x * 14 / 13 / 10 * 10 else x
    match lo, hi with
    | some a, some b => some (g2 (min a b))
    | _, _ => none)

/-! ## Domains -/

/-- A domain's junction temperature. -/
def Core.tj (c : Core) (d : Nat) : Int := signedOf 8 (c.rd (R.WGH_DOMST_TJ d))
/-- Codes of VMAX in force: two failed phases cap a row pair at code 50 (R377). -/
def Core.vmaxOf (c : Core) (d : Nat) : Nat :=
  let v := c.rd (R.WGH_DOMCTL_VMAX d)
  if d < 24 ∧ 2 ≤ SMap.get 0 c.wgh.phases d then min v 50 else v
/-- The pace setpoint (R319). -/
def Core.tgt (c : Core) (d : Nat) : Nat := SMap.get 50 c.wgh.tgt d
/-- The pace setpoint changed. -/
def Core.setTgt (c : Core) (d v : Nat) : Core := { c with wgh := { c.wgh with tgt := SMap.set 50 c.wgh.tgt d v } }
/-- A row pair that is lit. -/
def Core.pairLit (c : Core) (d : Nat) : Bool := decide (c.rd (R.WGH_DOMST_MODE d) = 0)
/-- The present tiles of a row pair. -/
def Core.pairTiles (c : Core) (d : Nat) : List Nat := ((List.range 40).map (fun i => 40 * d + i)).filter c.present

/-- The most severe level among a row pair's stacks: 0 NORMAL to 3 CRITICAL (R321). -/
def Core.stackLevel (c : Core) (d : Nat) : Nat :=
  (List.range 24).foldl (fun m s =>
    if bit (c.rd (R.WGH_STACK_DOMS s)) d then max m (if c.wgh.hot.contains s then 2 else c.rd (R.WGH_STACK_LEVEL s)) else m) 0

/-- The thermal factor in fortieths (Table 14.2). -/
def Core.thermNum (c : Core) (d : Nat) : Nat :=
  match c.rd (R.WGH_DOMST_THST d) with
  | 0 => 40
  | 1 => (max 0 (min 40 (40 - 3 * (c.tj d - c.rd R.WGH_THERM_THROT)))).toNat
  | _ => 0
/-- The stack factor in quarters. -/
def stackNum (level : Nat) : Nat := match level with | 0 => 4 | 1 => 3 | 2 => 2 | _ => 0
/-- f[d] in units of 1/160. -/
def Core.factor (c : Core) (d : Nat) : Nat := c.thermNum d * stackNum (c.stackLevel d)

/-- The thermal ceiling (Table 14.2). -/
def Core.thermCeil (c : Core) (d : Nat) : Nat :=
  match c.rd (R.WGH_DOMST_THST d) with
  | 0 => c.vmaxOf d
  | 1 => ((c.vmaxOf d : Int) - 2 * max 0 (c.tj d - c.rd R.WGH_THERM_THROT)).toNat
  | _ => 20
/-- vceil[d]: the lowest of VMAX, the thermal ceiling and, of a row pair, the stack ceiling (R311). -/
def Core.vceil (c : Core) (d : Nat) : Nat :=
  min (min (c.vmaxOf d) (c.thermCeil d)) (if d < 24 ∧ c.stackLevel d = 3 then 20 else 127)

/-- A domain that is DARK: its voltage is removed (R322, R323). -/
def Core.domainDark (c : Core) (d : Nat) : Bool := decide (d < 28) && decide (c.rd (R.WGH_DOMST_MODE d) = 2)

/-- The setpoint to which a wear response has raised a domain; 0 where none has (R36, R319). -/
def Core.raisedTo (c : Core) (d : Nat) : Nat := SMap.get 0 c.wgh.raised d

/-- What a row pair's setpoint would be without a ceiling (R311). -/
def Core.pairWant (c : Core) (d : Nat) : Nat := max (max (c.tgt d) (c.raisedTo d)) (c.rd (R.WGH_DOMCTL_VMIN d))

/-- vset[d] of a row pair (R311): code 20 in reduced service (R324), and 0 while it is DARK (Table 14.4). -/
def Core.pairVset (c : Core) (d : Nat) : Nat :=
  if c.domainDark d then 0 else if c.reduced then 20 else min (c.pairWant d) (c.vceil d)

/-- LV: the larger of LMIN and the highest vset of a lit row pair (R312). -/
def Core.larderV (c : Core) : Nat :=
  (List.range 24).foldl (fun m d => if c.pairLit d then max m (c.pairVset d) else m) (c.rd R.WGH_PACECTL_LMIN)

/-- What a domain's setpoint would be without a ceiling (R311, R312, R319). -/
def Core.wantV (c : Core) (d : Nat) : Nat :=
  if d < 24 then c.pairWant d else max (if d < 28 then c.larderV else c.rd R.WGH_PACECTL_VNOM) (c.raisedTo d)

/-- The setpoint of any controlled domain (R311, R312, R324). -/
def Core.vset (c : Core) (d : Nat) : Nat :=
  if c.domainDark d then 0 else if c.reduced then 20 else min (c.wantV d) (c.vceil d)

/-- A ramp from one code to another (R310: 10 mV a microsecond, 5 mV a code), after what is left of one under way. -/
def Core.swingTo (c : Core) (d old new : Nat) : Core :=
  if old = new then c
  else
    let s : Swing := SMap.get {} c.wgh.swing d
    let live := decide (c.now < s.until')
    let low := min (min old new) (if live then s.low else 127)
    let t := (if live then s.until' else c.now) + 500 * (max old new - min old new)
    { c with wgh := { c.wgh with swing := SMap.set {} c.wgh.swing d ⟨low, t⟩ } }

/-- One domain's setpoint and ceiling set. -/
def Core.setVolt (c : Core) (d : Nat) : Core :=
  let v := c.vset d
  ((c.swingTo d (c.rd (R.WGH_DOMST_VSET d)) v).wr (R.WGH_DOMST_VSET d) v).wr (R.WGH_DOMST_VCEIL d) (c.vceil d)

/-- Every controlled domain's setpoint and ceiling set (R310 to R312). -/
def Core.setVolts (c : Core) : Core := (List.range 29).foldl (fun (c : Core) d => c.setVolt d) c

/-! ## Windows (R200, R313, R314) -/

/-- k after a window: the old one times e_win / e_meas held within 0.9 and 1.1, held within 0.25 and 1. -/
def nextK (num den eWin eMeas : Nat) : Nat × Nat :=
  let r : Nat × Nat :=
    if eMeas * 11 ≤ eWin * 10 then (11, 10) else if eWin * 10 ≤ eMeas * 9 then (9, 10) else (eWin, eMeas)
  let n := num * r.1
  let d := den * r.2
  if d ≤ n then (1, 1) else if 4 * n ≤ d then (1, 4) else (n / Nat.gcd n d, d / Nat.gcd n d)

/-- The end of a window at a sequencer (R200): credit, skips and reservation. `grant` none: a dark tile. A group has no
SEQ_ADMIT, and its STARVE is taken as that register's reset value, 4 (DESIGN CHOICE, log entry 63). -/
def Core.seqWindow (c : Core) (u : Nat) (grant : Option Nat) : Core :=
  let c := c.setCredit u (match grant with | some g => min c.creditCap (c.credit u + g) | none => 0)
  let starve := max 1 (if u < 960 then c.trd u R.SEQ_ADMIT_STARVE else 4)
  let mark := fun (x : Cmd) => decide (x.unit = u) && decide (x.phase = .ready) && x.skipped
  let n := (c.queues.cmds.filter mark).length
  let c := c.mapCmds (fun x => if mark x then { x with skips := x.skips + 1, skipped := false } else x)
  let c := if u < 960 then c.tbump u R.SEQ_ADMIT_SKIPS n else c
  match c.resv u with
  | some _ => c
  | none => c.setResv u ((List.range (queuesOf u)).find? (fun q =>
      (c.readyHead u q).any (fun h => decide (starve ≤ h.skips))))

/-- The larder domain of a chiplet-level group: its slice's, or its hub port's (Table 1.9). -/
def Core.groupDomain (c : Core) (u : Nat) : Nat :=
  if u < 1056 then routerDomain (physSliceRouter (c.physSlice (u - 960)))
  else match u - 1056 with | 0 => 24 | 1 => 26 | 2 => 25 | _ => 27

/-- The grant of a larder domain's groups (R314). -/
def Core.groupGrant (c : Core) (d : Nat) : Nat :=
  if c.rd (R.WGH_DOMST_THST d) = 2 then c.rd R.WGH_CTL_GFLOOR else c.rd R.WGH_CTL_TCAP / 4

/-- The grant of each tile of a row pair, where e_row is `eNum / eDen` (R313). -/
def Core.tileGrant (c : Core) (d eNum eDen wsum : Nat) : Nat :=
  let n := (c.pairTiles d).length
  max (c.rd R.WGH_CTL_GFLOOR) (eNum * c.rd (R.WGH_DOMCTL_WEIGHT d) * c.factor d / (eDen * wsum * n * 160))

/-- The row pairs that share e_row. -/
def Core.sharing (c : Core) : List Nat := (List.range 24).filter (fun d => c.pairLit d && !(c.pairTiles d).isEmpty)

/-- Grants computed and added (R313, R314). -/
def Core.giveGrants (c : Core) (eNum eDen : Nat) : Core :=
  let ds := c.sharing
  let wsum := (ds.map (fun d => c.rd (R.WGH_DOMCTL_WEIGHT d))).sum
  let c : Core := (List.range 24).foldl (fun (c : Core) d =>
    let g := if ds.contains d then c.tileGrant d eNum eDen wsum else 0
    let c := c.wr (R.WGH_DOMST_GRANT d) (g % 2 ^ 32)
    ((List.range 40).map (fun i => 40 * d + i)).foldl (fun (c : Core) t =>
      if c.pairLit d = false then c.seqWindow t none
      else if c.present t then c.seqWindow t (some g) else c) c) c
  let c : Core := [24, 25, 26, 27].foldl (fun (c : Core) d => c.wr (R.WGH_DOMST_GRANT d) (c.groupGrant d)) c
  ((List.range 100).map (fun g => 960 + g)).foldl (fun (c : Core) u =>
    if c.unitThere u then c.seqWindow u (some (c.groupGrant (c.groupDomain u))) else c) c

/-- The measured power: PWR, PAVG over the last 100 windows (over those there are, log entry 27) and CAPHIT (R316). -/
def Core.setPower (c : Core) (eMeas : Nat) : Core :=
  let h := (c.wgh.hist ++ [eMeas / 1000]).drop (c.wgh.hist.length + 1 - 100)
  let avg := h.sum / h.length
  let c := ({ c with wgh := { c.wgh with hist := h } }.wr R.WGH_POWER_PWR (min 65535 (eMeas / 1000))).wr R.WGH_POWER_PAVG (min 65535 avg)
  if 10 * c.rd R.WGH_CTL_CAPW < avg then c.wr R.WGH_POWER_CAPHIT 1 else c

/-- The symbol rate of the slowest trained strand (Table 2.5). -/
def Core.slowestStrand (c : Core) : Option Nat :=
  ((List.range 6).flatMap (fun p => [0, 1].flatMap (fun d => (c.usables p d).map (fun s => c.rd (R.PRT_STRAND_RATE p d s))))).min?

/-- A reading written into TMB_DOMRATE. -/
def Core.putRate (c : Core) (d rate volt : Nat) (tj : Int) : Core :=
  let c := (c.wr (R.TMB_DOMRATE_RATE d) rate).wr (R.TMB_DOMRATE_VOLT d) volt
  (c.wr (R.TMB_DOMRATE_TJ d) (unsignedOf 8 tj)).wr (R.TMB_DOMRATE_SAMPLE d) (c.now % 2 ^ 32)

/-- The delay monitors' readings (R40): a dark domain keeps its last ones. A domain the command gives none of has a free
rate at its setpoint and junction temperature (log entry 7). -/
def Core.setRates (c : Core) (doms : List (Nat × Nat × Int)) : Core :=
  let c : Core := (List.range 29).foldl (fun (c : Core) d =>
    if c.domainDark d then c
    else match doms[d]? with
      | some x => c.putRate d x.1 x.2.1 x.2.2
      | none => let r := c.draw; r.2.putRate d r.1.toNat (500 + 5 * c.rd (R.WGH_DOMST_VSET d)) (c.tj d)) c
  let hot := [25, 26, 27].foldl (fun m d => max m (signedOf 8 (c.rd (R.TMB_DOMRATE_TJ d)))) (signedOf 8 (c.rd (R.TMB_DOMRATE_TJ 24)))
  let x := (doms[29]?).getD (c.rd (R.TMB_DOMRATE_RATE 29), 800, hot)
  c.putRate 29 (c.slowestStrand.getD x.1) x.2.1 hot

/-- The floor a domain's last reading is held against; while it ramps, that of the lower of the two voltages (R32). -/
def Core.floorOf (c : Core) (grade d : Nat) : Option Nat :=
  let s : Swing := SMap.get {} c.wgh.swing d
  let v := c.rd (R.TMB_DOMRATE_VOLT d)
  rateFloor grade (if c.now < s.until' then min v (500 + 5 * s.low) else v) (signedOf 8 (c.rd (R.TMB_DOMRATE_TJ d)))

/-- The greatest code a wear response may set (R36, R319): VMAX, and never past 0.88 V. -/
def Core.raiseTop (c : Core) (d : Nat) : Nat := min 76 (c.vmaxOf d)

/-- A domain below its floor is given more voltage, up to VMAX, by an amount the spec leaves open; it overrides the pace
setpoint until the next full reset (R36, R319; log entries 7, 27). In reduced service no setpoint changes (R324). -/
def Core.raiseWorn (c : Core) (grade : Nat) : Core :=
  (List.range 29).foldl (fun (c : Core) d =>
    match c.floorOf grade d with
    | some f =>
      let v := c.wantV d
      if c.domainDark d = false ∧ c.reduced = false ∧ c.rd (R.TMB_DOMRATE_RATE d) < f ∧ v < c.raiseTop d then
        let x := c.draw
        { x.2 with wgh := { x.2.wgh with
            raised := SMap.set 0 x.2.wgh.raised d (v + 1 + x.1.toNat % (c.raiseTop d - v)) } }
      else c
    | none => c) c

/-- WGH_WINDOW: the boundary of a 10 µs window (R313). While a compute-only reset restarts the counting-house (`hold`) the
delay monitors read on and the setpoints hold (R324). -/
def Core.wghWindow (c : Core) (grade : Nat) (obs : WghObs) (hold : Bool := false) : Core :=
  if c.now / 10000 = c.wgh.last then c
  else if hold then ({ c with wgh := { c.wgh with last := c.now / 10000 } } : Core).setRates obs.doms
  else
    let eWin := c.rd R.WGH_CTL_CAPW * 10000
    let k := nextK c.wgh.kNum c.wgh.kDen eWin obs.vin
    let c := { c with wgh := { c.wgh with last := c.now / 10000, kNum := k.1, kDen := k.2 } }
    let c := (c.setRates obs.doms).raiseWorn grade
    let c := (c.setPower obs.vin).wr R.WGH_POWER_K (256 * k.1 / k.2)
    let eNum := k.1 * eWin - obs.fix * k.2
    let c := (c.wr R.WGH_BUDGET_EROW (eNum / k.2 % 2 ^ 32)).wr R.WGH_BUDGET_EFIX (obs.fix % 2 ^ 32)
    (c.giveGrants eNum k.2).setVolts

/-- The grade byte of the device certificate. -/
def State.grade (s : State) : Nat := (s.fuses.cert.getD 12 0).toNat
/-- WGH_WINDOW. -/
def execWghWindow (obs : WghObs) (s : State) : Host.Outcome State Fault Refusal :=
  s.onCore (fun c => c.wghWindow s.grade obs s.pwr.comp)

/-! ## Pace (R319) -/

/-- tgt at job start and at a role change. -/
def Core.paceStart (c : Core) : Core :=
  let v := if c.rd R.CH_BELLCFG_ROLE = 3 then c.rd R.WGH_PACECTL_VMEM else c.rd R.WGH_PACECTL_VNOM
  (List.range 24).foldl (fun (c : Core) d => c.setTgt d v) c

/-- The pace setpoint of a row pair at a ring. -/
def Core.paceOf (c : Core) (d : Nat) : Nat :=
  let role := c.rd R.CH_BELLCFG_ROLE
  let p := c.rd R.CH_BELLTMO_PACE
  let late := c.rd (R.CH_BELLLATE_LATE d)
  match c.rd (R.WGH_PACECTL_POL role) with
  | 1 => if role = 3 then c.rd R.WGH_PACECTL_VMEM else c.rd R.WGH_PACECTL_VNOM
  | 2 => c.vmaxOf d
  | 0 =>
    if p = 0 then c.tgt d
    else if p < late ∧ c.factor d = 160 then min (c.vmaxOf d) (c.tgt d + c.rd R.WGH_PACECTL_UPSTEP)
    else if late < p - p * c.rd R.WGH_PACECTL_EARLY / 256 then max (c.rd (R.WGH_DOMCTL_VMIN d)) (c.tgt d - c.rd R.WGH_PACECTL_DNSTEP)
    else c.tgt d
  | _ => c.tgt d

/-- The row pairs that have participating tiles. -/
def Core.pairActive (c : Core) (d : Nat) : Bool :=
  c.pairLit d && (List.range 40).any (fun i => decide (c.trd (40 * d + i) R.SEQ_BELL_PART = 1))

/-- PACE at a ring; not applied in reduced service (R324). -/
def Core.pace (c : Core) : Core :=
  if c.reduced then c
  else (List.range 24).foldl (fun (c : Core) d => if c.pairActive d then c.setTgt d (c.paceOf d) else c) c

/-! ## Heat (R320) -/

/-- A domain's sensors still in service: 0 and 1. -/
def Core.sensorsOf (c : Core) (d : Nat) : List Nat := [0, 1].filter (fun k => !c.wgh.sensors.contains (d, k))

/-- THERM of LDG_ALERT: any domain in LIMIT (R389). -/
def Core.setTherm (c : Core) : Core :=
  c.wr R.LDG_ALERT_THERM (b2n ((List.range 29).any (fun d => decide (c.rd (R.WGH_DOMST_THST d) = 2))))

/-- A domain put in a thermal state; each entry into LIMIT writes its record and notice. -/
def Core.setThst (c : Core) (d v : Nat) : Core :=
  let old := c.rd (R.WGH_DOMST_THST d)
  let c := c.wr (R.WGH_DOMST_THST d) v
  (if v = 2 ∧ old ≠ 2 then c.corrected 0x44 5 d 0 else c).setTherm

/-- The state of Table 14.2 for a temperature, left only HYST below its entry. -/
def Core.thermState (c : Core) (old : Nat) (tj : Int) : Nat :=
  let throt : Int := c.rd R.WGH_THERM_THROT
  let limit : Int := c.rd R.WGH_THERM_LIMIT
  let hyst : Int := c.rd R.WGH_THERM_HYST
  if limit ≤ tj ∨ (old = 2 ∧ limit - hyst < tj) then 2
  else if throt ≤ tj ∨ (1 ≤ old ∧ throt - hyst < tj) then 1 else 0

/-- A sensor taken out of service: a ledger entry and a record of a spare in use; the last one leaves the domain in LIMIT
with a wear record (R320, R377). With no room for its entry no spare counts as free (R380). -/
def Core.dropSensor (c : Core) (d k : Nat) : Core :=
  if c.wgh.sensors.contains (d, k) then c
  else
    let e : LEntry := ⟨11, d, k, 0⟩
    let out := if c.ledgerFull e then [(d, 0), (d, 1)].filter (fun x => !c.wgh.sensors.contains x) else [(d, k)]
    let c := if c.ledgerFull e then c else (c.ledgerAdd e).spareUsed d
    let c := { c with wgh := { c.wgh with sensors := c.wgh.sensors ++ out } }
    if c.sensorsOf d = [] then (c.wear d).setThst d 2 else c

/-- Readings outside −40 °C to 150 °C take their sensors out at once (R320). -/
def Core.dropWild (c : Core) (d : Nat) (a b : Int) : Core :=
  let bad := fun (x : Int) => decide (x < -40) || decide (150 < x)
  let c := if bad a then c.dropSensor d 0 else c
  if bad b then c.dropSensor d 1 else c

/-- THERMAL_STATE: the two sensors of a domain read `a` and `b`; with none in service it stays in LIMIT (R377). -/
def Core.thermal (c : Core) (d : Nat) (a b : Int) : Core :=
  let c := c.dropWild d a b
  match c.sensorsOf d with
  | [] => c.setThst d 2
  | ks =>
    let r := fun k => if k = 0 then a else b
    let tj := ks.foldl (fun m k => max m (r k)) (r (ks.headD 0))
    (c.wr (R.WGH_DOMST_TJ d) (unsignedOf 8 tj)).setThst d (c.thermState (c.rd (R.WGH_DOMST_THST d)) tj)
/-- THERMAL_STATE. -/
def execThermalState (d : Nat) (a b : Int) (s : State) : Host.Outcome State Fault Refusal :=
  onlyIf (decide (d < 29)) (s.onCore (fun c => c.thermal d a b))

/-- SENSOR_REMOVAL: readings out of range at once, then the lower of two that differ by more than 5 °C (for 1 s, log
entry 4). -/
def Core.sensorRemoval (c : Core) (d : Nat) (a b : Int) : Core :=
  let c := c.dropWild d a b
  if c.sensorsOf d = [0, 1] ∧ (5 < a - b ∨ 5 < b - a) then c.dropSensor d (if a < b then 0 else 1) else c
/-- SENSOR_REMOVAL. -/
def execSensorRemoval (d : Nat) (a b : Int) (s : State) : Host.Outcome State Fault Refusal :=
  onlyIf (decide (d < 29)) (s.onCore (fun c => c.sensorRemoval d a b))

/-! ## Stacks (R321) -/

/-- A well-formed STACK notice. -/
def stackOk (arg : Nat) : Bool := decide (bits arg 0 4 = 8) && decide (bits arg 4 5 < 24) && decide (bits arg 19 13 = 0)

/-- A notice that R388 has this chiplet forward. -/
def Core.forwarded (c : Core) (a : Arrival) : Bool := decide (a.pkt.dst = c.pageAddr 0x60800) && a.port.any (fun p => decide (4 ≤ p))

/-- A link notice from one of this die's routers (R232). -/
def Arrival.linkNotice (a : Arrival) : Bool := a.port.isNone && decide (bits a.pkt.arg 0 4 = 1)

/-- STACK_NOTICE: a HEALTH packet delivered to the chiplet that is neither a router's nor to be forwarded; one that is no
well-formed STACK notice is discarded. -/
def Core.stackNotice (c : Core) (a : Arrival) : Core :=
  let c := c.dropArr a
  let arg := a.pkt.arg
  if stackOk arg then
    let s := bits arg 4 5
    let c := (c.wr (R.WGH_STACK_LEVEL s) (bits arg 9 2)).wr (R.WGH_STACK_TEMP s) (bits arg 11 8)
    { c with wgh := { c.wgh with hot := c.wgh.hot.filter (fun x => decide (x ≠ s)) } }
  else c
/-- STACK_NOTICE. -/
def execStackNotice (i : Nat) (s : State) : Host.Outcome State Fault Refusal :=
  s.onCore (fun c => match c.net.arr[i]? with
    | some a => if a.pkt.typ = 9 ∧ a.linkNotice = false ∧ c.forwarded a = false then c.stackNotice a else c
    | none => c)

/-! ## Ramps (R322, R323) -/

/-- A domain's ramp ordered. -/
def Core.order (c : Core) (d mode : Nat) : Core :=
  let c := c.wr (R.WGH_DOMST_MODE d) mode
  { c with wgh := { c.wgh with ramp := SMap.set 0 c.wgh.ramp d c.now } }

end Sys2Proof.Machine
end

