-- ==== Sys2Proof/Machine/Bell.lean ====
section
/-! DEFINITION. The bell (chapter 13): posts, rings, loss, the watchdog, and the exchange of seals. -/

namespace Sys2Proof.Machine

/-! ## POST at its tile (R294 to R296) -/

/-- POST: its commit point. It completes when a ring reaches its tile. -/
def Core.post (c : Core) (x : Cmd) : Core :=
  if x.committed then c
  else
    let t := x.unit
    let w := x.word
    let st := if x.waitN ≠ 0 ∧ c.tallyFault t x.waitT = true then stFAILED else stOK
    let c := if bit w 70 then c.tallySet t (bits w 64 6) 0 false false else c
    let c := if bit w 77 then c.tallySet t (bits w 71 6) 0 false false else c
    let c := (c.putCmd { x with committed := true }).twr t R.SEQ_BELL_PEND 1
    (c.wr R.CH_BELLTMO_PACE (max (c.rd R.CH_BELLTMO_PACE) (bits w 78 24))).sendTilePost t st
/-- POST. -/
def execPost (t : Nat) (s : State) : Host.Outcome State Fault Refusal :=
  onlyIf (isTile t) (s.onMach (fun m => m.withCmd t 7 0 0x0B (fun m x => m.onCore (fun c => c.post x))))

/-! ## BELL packets (Table 13.3) -/

/-- The chiplets of an assembly: same plane, x, y and z. -/
def Core.sameAssembly (c : Core) (a : Nat) : Bool := decide (a / 2 ^ 49 = c.selfTop / 2 ^ 4)

/-- A BELL packet of the bell unit: KIND, BSTAT, the step and where it goes. -/
def Core.bellPacket (c : Core) (kind st step dst : Nat) : Packet :=
  { typ := 7, arg := kind + 4 * st, seq := step % 65536, part := step / 65536 % 65536, dst := dst, src := c.bellAddr }

/-- A BELL packet sent to another chiplet: in the assembly by the ring port named, else by a hub port of R277 (R299). An
address of 0 names no chiplet (DEDUCED from Table 16.4, log entry 81). -/
def Core.sendBell (c : Core) (p : Packet) (viaU : Bool) : Core :=
  if p.dst = 0 then c
  else if c.sameAssembly p.dst then c.injectTo p unitSeam (if viaU then 4 else 5) else c.inject p unitSeam

/-- The ring's copies to the tiles: one warp multicast for each logical column (R298). -/
def Core.ringTiles (c : Core) (st step : Nat) : Core :=
  (List.range 20).foldl (fun (c : Core) col =>
    c.injectSpan { c.bellPacket 3 st step (c.tileAddr col 0) with maxis := true, mcast := true, mlast := 47 } unitSeam) c

/-! ## The join (R297) -/

/-- A status joined into JSTAT. -/
def Core.join (c : Core) (st : Nat) : Core := c.wr R.CH_BELLSTAT_JSTAT (joinStatus (c.rd R.CH_BELLSTAT_JSTAT) st)

/-- Every expected post is in. -/
def Core.allIn (c : Core) : Bool :=
  decide (c.rd R.CH_BELLCFG_NTILES ≤ c.bell.tiles.length) && decide (c.rd R.CH_BELLCFG_NCHILD ≤ c.bell.kids.length)

/-- UPSENT and its time. -/
def Core.upSent (c : Core) : Core := (c.wr R.CH_BELLSTAT_UPSENT 1).wr R.CH_BELLTIME_UPAT (c.now % 2 ^ 32)

/-- A bell unit that is not the root sends its post when every expected one is in. -/
def Core.checkStep (c : Core) : Core :=
  if c.rd R.CH_BELLSTEP_STATE = 1 ∧ c.rd R.CH_BELLCFG_ROOT = 0 ∧ c.rd R.CH_BELLSTAT_UPSENT = 0 ∧ c.allIn = true then
    c.upSent.sendBell (c.bellPacket 1 (c.rd R.CH_BELLSTAT_JSTAT) (c.rd R.CH_BELLSTEP_STEP) (c.rd R.CH_BELLPAR_PARENT))
      (decide (c.rd R.CH_BELLCFG_RINGDIR = 1))
  else c

/-- The tile a post's SRC names, where it participates. -/
def Core.poster (c : Core) (a : Arrival) : Option Nat :=
  let t := 20 * adRow a.pkt.src + adCol a.pkt.src
  if a.port.isNone ∧ a.pkt.src / 2 ^ 45 = c.selfTop ∧ adClass a.pkt.src = 0 ∧ t < 960 ∧ c.trd t R.SEQ_BELL_PART = 1 then some t
  else none

/-- The child a BELL packet's SRC names. -/
def Core.childOf (c : Core) (src : Nat) : Option Nat :=
  (List.range (c.rd R.CH_BELLCFG_NCHILD)).find? (fun k => decide (c.rd (R.CH_BELLCHILD_CHILD k) = src))

/-- KIND and BSTAT of a BELL packet. -/
def Packet.bellKind (p : Packet) : Nat := bits p.arg 0 2
def Packet.bstat (p : Packet) : Nat := bits p.arg 2 4
/-- The step a BELL packet carries. -/
def Packet.bellStep (p : Packet) : Nat := p.seq + 65536 * p.part

/-- TILE_POST (R297): LATE of the tile's row pair runs from the ring. -/
def Core.tilePost (c : Core) (a : Arrival) : Core :=
  let c := c.dropArr a
  if c.rd R.CH_BELLSTEP_STATE ≠ 1 then c
  else match c.poster a with
    | none => c.join stFAILED
    | some t =>
      if c.bell.tiles.contains t then c.join stFAILED
      else
        let c := { c with bell := { c.bell with tiles := c.bell.tiles ++ [t] } }
        let late := (c.now + 2 ^ 32 - c.rd R.CH_BELLTIME_RINGAT) % 2 ^ 32
        let c := (c.bump R.CH_BELLSTAT_TPOSTS 1).wr (R.CH_BELLLATE_LATE (t / 40)) late
        (c.join a.pkt.bstat).checkStep

/-- An arrival of a type at a unit. -/
def Core.arrOf (c : Core) (i typ unit : Nat) : Option Arrival :=
  (c.net.arr[i]?).filter (fun a => decide (a.pkt.typ = typ) && decide (a.unit = unit))

/-- A BELL arrival of a kind at the bell unit. -/
def Core.bellArr (c : Core) (i kind : Nat) : Option Arrival :=
  (c.arrOf i 7 unitSeam).filter (fun a => decide (a.pkt.bellKind = kind))

/-- TILE_POST. -/
def execTilePost (i : Nat) (s : State) : Host.Outcome State Fault Refusal :=
  s.onCore (fun c => match c.bellArr i 0 with | some a => c.tilePost a | none => c)

/-- CHIPLET_POST (R297): a post for another step counts as FAILED. -/
def Core.chipletPost (c : Core) (a : Arrival) : Core :=
  let c := c.dropArr a
  if c.rd R.CH_BELLSTEP_STATE ≠ 1 then c
  else match c.childOf a.pkt.src with
    | none => c.join stFAILED
    | some k =>
      if c.bell.kids.contains k then (c.bump R.CH_BELLSTAT_CPOSTS 1).join stFAILED
      else
        let c := { c with bell := { c.bell with kids := c.bell.kids ++ [k] } }
        let st := if a.pkt.bellStep = c.rd R.CH_BELLSTEP_STEP then a.pkt.bstat else stFAILED
        ((c.bump R.CH_BELLSTAT_CPOSTS 1).join st).checkStep
/-- CHIPLET_POST. -/
def execChipletPost (i : Nat) (s : State) : Host.Outcome State Fault Refusal :=
  s.onCore (fun c => match c.bellArr i 1 with | some a => c.chipletPost a | none => c)

/-- LOSS_NOTICE (R302): the child is lost until the next job start, and its notice stands in for its post; one of no
child joins FAILED, as a post of no participant does. -/
def Core.lossNotice (c : Core) (a : Arrival) : Core :=
  let c := c.dropArr a
  if c.rd R.CH_BELLSTEP_STATE ≠ 1 then c
  else match c.childOf a.pkt.src with
    | none => c.join stFAILED
    | some k =>
      let st := a.pkt.bstat
      let c := (c.bump R.CH_BELLSTAT_CPOSTS 1).wr R.CH_BELLSTAT_LOST (setBit (c.rd R.CH_BELLSTAT_LOST) k true)
      let lost := c.bell.lost.filter (fun x => decide (x.1 ≠ k)) ++ [(k, st)]
      let c := { c with bell := { c.bell with lost := lost } }
      if c.bell.kids.contains k then c
      else (({ c with bell := { c.bell with kids := c.bell.kids ++ [k] } }).join st).checkStep
/-- LOSS_NOTICE. -/
def execLossNotice (i : Nat) (s : State) : Host.Outcome State Fault Refusal :=
  s.onCore (fun c => match c.bellArr i 2 with | some a => c.lossNotice a | none => c)

/-! ## Rings (R298, R300, R305) -/

/-- A step begun at the bell unit: lost children count as having posted (R302). -/
def Core.startStep (c : Core) : Core :=
  let n := c.bell.lost.length
  let lost := c.bell.lost
  let c : Core := { c with bell := { c.bell with tiles := [], kids := lost.map (fun (x : Nat × Nat) => x.1) } }
  let c := ((c.wr R.CH_BELLSTAT_TPOSTS 0).wr R.CH_BELLSTAT_CPOSTS n).wr R.CH_BELLSTAT_UPSENT 0
  (c.wr R.CH_BELLTMO_PACE 0).wr R.CH_BELLSTAT_JSTAT (lost.foldl (fun (st : Nat) (x : Nat × Nat) => joinStatus st x.2) stOK)

/-- Every queue of a unit is IDLE: nothing to fetch, nothing past fetch, not halted. -/
def Core.unitIdle (c : Core) (u : Nat) : Bool :=
  (List.range (queuesOf u)).all (fun q => decide (c.toFetch u q = 0) && !c.halted u q)
    && !c.queues.cmds.any (fun x => decide (x.unit = u))

/-- Every queue of the chiplet is IDLE. -/
def Core.allIdle (c : Core) : Bool := (List.range 1060).all c.unitIdle

/-- The tiles of dark row pairs, which a change of role takes out of the participant set. -/
def Core.darkPart (c : Core) : List Nat :=
  (List.range 960).filter (fun t => decide (c.trd t R.SEQ_BELL_PART = 1) && c.tileDark t)

/-- A tile no longer a participant. -/
def Core.dropPart (c : Core) (t : Nat) : Core :=
  if c.trd t R.SEQ_BELL_PART = 1 then
    let c := { c with bell := { c.bell with tiles := c.bell.tiles.filter (fun x => decide (x ≠ t)) } }
    (c.twr t R.SEQ_BELL_PART 0).wr R.CH_BELLCFG_NTILES (c.rd R.CH_BELLCFG_NTILES - 1)
  else c

/-- Row pairs not disabled by hallmark. -/
def Core.enabledPairs (c : Core) : List Nat := (List.range 24).filter (fun d => decide (c.rd (R.LDG_FP_ROW_DISABLED (2 * d)) = 0))

/-- A row pair ordered dark: the windows its tiles hold close first (Table 14.4). -/
def Core.darken (c : Core) (d : Nat) : Core :=
  ((List.range 40).foldl (fun (c : Core) i => c.closeWinsOf (40 * d + i)) c).order d 1

/-- The lit row pairs that a change to decode at a ring darkens: which they are is free, within half of those enabled (R305,
R322, Table 13.5; log entry 82). -/
def Core.ringDark (c : Core) (role : Nat) : List Nat × Core :=
  if role ≠ 2 then ([], c)
  else
    let x := c.draw
    let dark := (c.enabledPairs.filter (fun d => !c.pairLit d)).length
    ((c.enabledPairs.filter (fun d => c.pairLit d && bit x.1.toNat d)).take (c.enabledPairs.length / 2 - dark), x.2)

/-- A role taken on: the tiles `leave` are no longer participants, and in a role whose row pairs are all lit, dark pairs not
held dark by hallmark are ordered lit (Tables 13.5 and 14.4; log entry 28). -/
def Core.takeRoleAs (c : Core) (role : Nat) (leave : List Nat) : Core :=
  let c := (leave.foldl Core.dropPart c).wr R.CH_BELLCFG_ROLE role
  let held := fun d => decide (c.rd (R.LDG_FP_ROW_DISABLED (2 * d)) = 1) || c.reduced
  let c : Core := if role = 2 then c
    else (List.range 24).foldl (fun c d => if c.rd (R.WGH_DOMST_MODE d) = 2 ∧ held d = false then c.order d 3 else c) c
  c.paceStart
/-- A role taken on at once, while the bell is IDLE or in HOLD. -/
def Core.takeRole (c : Core) (role : Nat) : Core := c.takeRoleAs role c.darkPart

/-- ROLE_CHANGE at its ring: applied, with the row pairs it darkens, where every queue of the tiles that leave is IDLE;
otherwise FAILED joins the ring. -/
def Core.ringRole (c : Core) (step st : Nat) : Core × Nat :=
  match c.bell.change with
  | none => (c, st)
  | some (s, role) =>
    if s ≠ step then (c, st)
    else
      let r := Core.ringDark { c with bell := { c.bell with change := none } } role
      let leave := (List.range 960).filter (fun t =>
        decide (r.2.trd t R.SEQ_BELL_PART = 1) && (r.2.tileDark t || r.1.contains (t / 40)))
      if leave.all r.2.unitIdle then (((r.1.foldl Core.darken r.2).takeRoleAs role leave), st) else (r.2, joinStatus st stFAILED)

/-- HOLD entered by a ring: posted POSTs wait for its copies. -/
def Core.ringHold (c : Core) (st : Nat) : Core :=
  let c := (c.wr R.CH_BELLSTEP_STATE 2).wr R.CH_BELLSTAT_HSTAT st
  let at' := fun (x : Cmd) => decide (x.unit < 960) && decide (x.opcode = 0x0B) && decide (x.q = 7) && !x.committed
    && (decide (x.phase = .waitTally) || decide (x.phase = .ready) || decide (x.phase = .run))
  c.mapCmds (fun x => if at' x then x.finish st else x)

/-- Ring `step` formed or received with a status (R298, R300). -/
def Core.ring (c : Core) (step st : Nat) : Core :=
  let c := c.pace
  let c := ((c.wr R.CH_BELLSTEP_STEP step).wr R.CH_BELLTIME_RINGAT (c.now % 2 ^ 32))
  let c := { c with bell := { c.bell with armed := some c.now } }
  let c := (c.wr (R.CH_SEAL_LO_SEAL (step % 2)) 0).wr (R.CH_SEAL_HI_SEAL (step % 2)) 0
  let r := c.ringRole step st
  let c := r.1.startStep
  let st := r.2
  let kids := (List.range (c.rd R.CH_BELLCFG_NCHILD)).filter (fun k => !bit (c.rd R.CH_BELLSTAT_LOST) k)
  let c : Core := kids.foldl (fun c k =>
    c.sendBell (c.bellPacket 3 st step (c.rd (R.CH_BELLCHILD_CHILD k))) (bit (c.rd R.CH_BELLCFG_CHDIR) k)) c
  let c := c.ringTiles st step
  if st = stOK then c.checkStep else (c.jobFatal 0x03 0).ringHold st

/-- RING: the root forms the next ring once every post is in; any other bell unit takes its parent's. -/
def Core.ringEvent (c : Core) : Option Nat → Core
  | none =>
    if c.rd R.CH_BELLSTEP_STATE = 1 ∧ c.rd R.CH_BELLCFG_ROOT = 1 ∧ c.allIn = true then
      c.upSent.ring ((c.rd R.CH_BELLSTEP_STEP + 1) % 2 ^ 32) (c.rd R.CH_BELLSTAT_JSTAT)
    else c
  | some i => match c.bellArr i 3 with
    | none => c
    | some a =>
      let c := c.dropArr a
      if c.rd R.CH_BELLSTEP_STATE = 1 ∧ c.rd R.CH_BELLCFG_ROOT = 0 ∧ a.pkt.src = c.rd R.CH_BELLPAR_PARENT then
        c.ring a.pkt.bellStep (joinNorm a.pkt.bstat)
      else c
/-- RING. -/
def execRing (i : Option Nat) (s : State) : Host.Outcome State Fault Refusal := s.onCore (fun c => c.ringEvent i)

/-- RING_AT_TILE: a ring copy in a tile's bell port (R298). -/
def Core.ringAtTile (c : Core) (t : Nat) : Core :=
  match c.net.arr.find? (fun a => decide (a.unit = t) && decide (a.pkt.typ = 7)) with
  | none => c
  | some a =>
    let c := c.dropArr a
    if a.pkt.bellKind = 3 ∧ c.trd t R.SEQ_BELL_PEND = 1 then
      let c := c.twr t R.SEQ_BELL_PEND 0
      c.mapCmds (fun x =>
        if x.unit = t ∧ x.q = 7 ∧ x.opcode = 0x0B ∧ x.running = true ∧ x.committed = true then x.finish a.pkt.bstat else x)
    else c
/-- RING_AT_TILE. -/
def execRingAtTile (t : Nat) (s : State) : Host.Outcome State Fault Refusal :=
  onlyIf (isTile t) (s.onCore (fun c => c.ringAtTile t))

/-- BELL_WATCHDOG (R301): the TIMEOUT ring carries the current step (log entry 29). -/
def Core.bellWatchdog (c : Core) : Core :=
  match c.bell.armed with
  | none => c
  | some t0 =>
    if c.rd R.CH_BELLSTEP_STATE = 1 ∧ c.rd R.CH_BELLTMO_WDOG ≤ c.now - t0 then
      let c := { c with bell := { c.bell with armed := none } }
      let c := (c.wr R.CH_BELLSTAT_WDOG 1).jobFatal 0x04 0
      (c.ringTiles stTIMEOUT (c.rd R.CH_BELLSTEP_STEP)).ringHold stTIMEOUT
    else c
/-- BELL_WATCHDOG. -/
def execBellWatchdog (s : State) : Host.Outcome State Fault Refusal := s.onCore Core.bellWatchdog

/-! ## Loss notices sent by the link domain (R302) -/

/-- A loss notice to the parent, on VC1 (R299): by the ring port PRT_BELLDIR names or a hub port of R277, straight from the
port logic, whose ports are HELD by then; none without a parent (Table 16.4). -/
def Core.sendLoss (c : Core) (st : Nat) : Core :=
  let par := c.rd R.PRT_BELLPAR_PARENT
  if par = 0 then c
  else
    let p : Packet := { c.bellPacket 2 st 0 par with epoch := c.rd R.NET_RTCTL_ACTIVE, vc := 1 }
    if c.sameAssembly par then c.sendOut (if c.rd R.PRT_BELLDIR_RINGDIR = 1 then 4 else 5) p false
    else match c.exitAmong [2, 3] par c.seamRouter with
      | some q => c.sendOut q p false
      | none => c

/-! ## The exchange of seals at the seal unit (R308) -/

/-- A SEALX compared, or answered from the stored result, or refused for another step. -/
def Core.sealxAt (c : Core) (a : Arrival) : Core :=
  let step := leAt a.pkt.payload 0 4
  let done := fun (c : Core) st => (c.dropArr a).answer unitSeam a.pkt st
  match c.bell.compared.find? (fun r => decide (r.1 = step)) with
  | some r => done c r.2
  | none =>
    if (step + 1) % 2 ^ 32 = c.rd R.CH_BELLSTEP_STEP then
      let st := if leAt a.pkt.payload 16 16 = c.sealOf step then stOK else stFAILED
      let c := { c with bell := { c.bell with compared := c.bell.compared ++ [(step, st)] } }
      let c := done c st
      (if st = stOK then c else c.jobFatal 0x05 0).sealxSettle step
    else (done c stFAILED).jobFatal 0x05 0

/-- A SEALX for the current step is held. -/
def Core.sealxHeld (c : Core) (a : Arrival) : Bool := decide (leAt a.pkt.payload 0 4 = c.rd R.CH_BELLSTEP_STEP)

/-- SEALX_PACKET. -/
def execSealxPacket (i : Nat) (s : State) : Host.Outcome State Fault Refusal :=
  s.onCore (fun c => match c.arrOf i 10 unitSeam with
    | some a => if a.accepted then c else if c.sealxHeld a then c.putArr { a with accepted := true } else c.sealxAt a
    | none => c)

/-- SEALX_COMPARE: a held SEALX once its step's seal is final. -/
def execSealxCompare (i : Nat) (s : State) : Host.Outcome State Fault Refusal :=
  s.onCore (fun c => match c.arrOf i 10 unitSeam with
    | some a => if a.accepted && !c.sealxHeld a then c.sealxAt a else c
    | none => c)

end Sys2Proof.Machine
end

