-- ==== Sys2Proof/Machine/Holder.lean ====
section
/-! DEFINITION. Holding units: their streams (R288), and the control page as it reads (R273, R274). -/

namespace Sys2Proof.Machine

/-! ## Streams at a holding unit (R288) -/

/-- A holding unit's entry for a packet's stream. -/
def Core.hstream? (c : Core) (u : Nat) (p : Packet) : Option HStream :=
  c.net.held.find? (fun h => decide (h.unit = u) && decide (h.src = srcUnit p.src) && decide (h.dst = streamDst p.dst))

/-- A SEQ below the base, or marked. -/
def HStream.dup (h : HStream) (seq : Nat) : Bool :=
  decide (0x8000 ≤ (seq + 65536 - h.base) % 65536) || h.map.contains seq

/-- A SEQ marked; the base moves up so that the newest SEQ is the last of the 64. -/
def HStream.mark (h : HStream) (seq : Nat) : HStream :=
  let d := (seq + 65536 - h.base) % 65536
  if 0x8000 ≤ d then h
  else
    let base := if 63 < d then (seq + 65536 - 63) % 65536 else h.base
    { h with base := base, map := (seq :: h.map).filter (fun x => decide ((x + 65536 - base) % 65536 < 64)) }

/-- Whether the unit has an entry for the stream, or room for one among 512. -/
def Core.holdRoom (c : Core) (u : Nat) (p : Packet) : Bool :=
  (c.hstream? u p).isSome || decide ((c.net.held.filter (fun h => decide (h.unit = u))).length < 512)

/-- The traffic of a part noted on its stream, a new one with every SEQ below its first part's open. -/
def Core.touchStream (c : Core) (u : Nat) (p : Packet) : Core :=
  match c.hstream? u p with
  | some h => { c with net := { c.net with held := c.net.held.map (fun x => if x = h then { h with last := c.now } else x) } }
  | none =>
    let h : HStream := ⟨u, srcUnit p.src, streamDst p.dst, (p.seq + 65536 - 63) % 65536, [], c.now⟩
    { c with net := { c.net with held := c.net.held ++ [h] } }

/-- Whether a part is a duplicate. -/
def Core.isDup (c : Core) (u : Nat) (p : Packet) : Bool := ((c.hstream? u p).map (fun h => h.dup p.seq)).getD false

/-- A part that landed, or was served, marked. -/
def Core.markStream (c : Core) (u : Nat) (p : Packet) : Core :=
  match c.hstream? u p with
  | some h => { c with net := { c.net with held := c.net.held.map (fun x => if x = h then h.mark p.seq else x) } }
  | none => c

/-- Whether an earlier copy of an arrival's part is being served (R288). -/
def Core.inService (c : Core) (a : Arrival) : Bool :=
  (c.net.arr ++ c.net.mstore).any (fun b => decide (b.id ≠ a.id) && b.accepted && decide (b.unit = a.unit)
    && decide (srcUnit b.pkt.src = srcUnit a.pkt.src) && decide (streamDst b.pkt.dst = streamDst a.pkt.dst)
    && decide (b.pkt.seq = a.pkt.seq))

/-- An arrival ended: its ACK with a status, and its place freed. -/
def Core.endArr (c : Core) (a : Arrival) (st : Nat) : Core := (c.dropArr a).answer a.unit a.pkt st

/-- A duplicate WRITE or TINC: discarded, counted, answered with OK (R288). -/
def Core.discardDup (c : Core) (a : Arrival) : Core := (c.bump R.NET_E2E_DUPS 1).endArr a stOK

/-- STREAM_RELEASE: an entry without traffic for LOSS ticks, of the sources' tables, then of the holding units' (R288). -/
def Core.releaseStream (c : Core) (i : Nat) : Core :=
  let loss := c.rd R.NET_E2E_LOSS
  let n := c.net.src.length
  if i < n then
    match c.net.src[i]? with
    | some s =>
      let busy := c.queues.cmds.any (fun x => decide (x.unit = s.unit) && x.running
        && x.parts.any (fun k => k.status.isNone && decide (streamDst k.pkt.dst = s.dst)))
      if loss ≤ c.now - s.last ∧ busy = false then { c with net := { c.net with src := c.net.src.eraseIdx i } } else c
    | none => c
  else match c.net.held[i - n]? with
    | some h => if loss ≤ c.now - h.last then { c with net := { c.net with held := c.net.held.eraseIdx (i - n) } } else c
    | none => c
/-- STREAM_RELEASE. -/
def execStreamRelease (i : Nat) (s : State) : Host.Outcome State Fault Refusal := s.onCore (fun c => c.releaseStream i)

/-! ## The control page (R273, R274) -/

/-- STATE and INFLIGHT of SEQ_QSTAT (Table 9.9): HALTED is held, the rest follows from the queue's commands. -/
def Core.qstatWord (c : Core) (u q stored : Nat) : Nat :=
  let cs := c.queueCmds u q
  let st := if bits stored 16 3 = 4 then 4
    else if cs.any (fun x => decide (x.phase = .waitTally)) then 1
    else if cs.any (fun x => decide (x.phase = .ready)) then 2
    else if cs ≠ [] then 3 else 0
  setBits (setBits stored 16 3 st) 23 5 (cs.filter Cmd.started).length

/-- LOOM_STATUS of an array (Table 5.7): the phases in which its commands wait (log entry 21). A product phase waits in its
first sweep. -/
def Core.loomStatus (c : Core) (t a : Nat) : Nat :=
  let at' := fun (n : Nat) => (c.queueCmds t a).find? (fun x => x.running && decide (x.loom.stage = n))
  b2n (at' 1).isSome + 2 * (if (at' 3).isSome then 1 else if (at' 4).isSome then 2 else 0) + 8 * b2n (at' 5).isSome
    + 256 * ((at' 3).map (fun x => x.loom.kpos)).getD 0

/-- CHN_STATUS (Table 7.7): a row whose stores wait is still the running one. -/
def Core.chnStatus (c : Core) (t : Nat) : Nat :=
  match (c.queueCmds t 4).find? Cmd.running with
  | none => 0
  | some x => 1 + 2 * b2n (decide (x.opcode = 0x21)) + 256 * ((x.rows.length - b2n (decide (x.out ≠ []))) % 4096)

/-- A tile page's register as it reads; CAP of SEQ_ALLOW is TCAP at every moment (R315). -/
def Core.tileView (c : Core) (t off : Nat) : Nat :=
  let w := (c.tword t off).toNat
  if 0x40 ≤ off ∧ off < 0x80 then c.qstatWord t ((off - 0x40) / 8) w
  else if off = 0x208 then (c.tword t 0x200).toNat
  else if 0x2000 ≤ off ∧ off < 0x2080 ∧ off % 32 = 0 then c.loomStatus t ((off - 0x2000) / 32)
  else if off = 0x3000 then c.chnStatus t
  else if off = 0xC0 then setBits w 32 32 (c.rd R.WGH_CTL_TCAP)
  else w

/-- A chiplet-level group's register as it reads (R275). -/
def Core.groupView (c : Core) (off : Nat) : Nat :=
  let g := (off - 0x100000) / 0x800
  let r := (off - 0x100000) % 0x800
  let q := r % 0x100 / 8
  let w := (c.cword off).toNat
  if 100 ≤ g then 0
  else if r < 0x100 then (if q < queuesOf (960 + g) then w else 0)
  else if r < 0x200 then (if q < queuesOf (960 + g) then c.qstatWord (960 + g) q w else 0)
  else if 0x400 ≤ r ∧ r < 0x600 then w else 0

/-- A rebuild that has begun, or a retirement, is in progress (LDG_STATUS.BUILD, Table 17.10). -/
def Core.building (c : Core) : Bool :=
  !c.led.retiring.isEmpty || c.mb.reqs.any (fun r => r.started && decide (r.cmd = 0x6A) && decide (r.body.headD 0 = 1))

/-- A chiplet-scope register as it reads; `ext` holds those that stand in the supplies, the fuses and the test port. -/
def Core.chipView (c : Core) (ext : Nat → Option Nat) (off : Nat) : Nat :=
  match ext off with
  | some v => v
  | none =>
    let w := (c.cword off).toNat
    if 0x100000 ≤ off ∧ off < 0x200000 then c.groupView off
    else if 0x500000 ≤ off ∧ off < 0x500000 + 0x800 * 1104 ∧ off % 0x40 = 0x20 ∧ off % 0x800 < 0x600 ∧ off % 0x200 / 0x40 < 6 then
      setBits w 0 2 (c.linkState ((off - 0x500000) / 0x800) (off % 0x800 / 0x200) (off % 0x200 / 0x40))
    else if off = R.LDG_STATUS_BUILD.off then setBits w 49 1 (b2n c.building)
    else if off = R.LDG_ALERT_NOSPARE.off then
      setBits (setBits w 3 1 (c.rd (R.PRT_STATE_VRLOW 4))) 4 1 (b2n (decide (c.rd R.CH_CORES_SPARE = 3)))
    else w

/-- What a read leaves of a tile's register: SEQ_NFLAGS_RC clears the flags (R86). -/
def Core.afterTileRead (c : Core) (t off : Nat) : Core := if off = 0x208 then c.setTword t 0x200 0 else c

/-- What a read leaves of a chiplet's register: DRIFT_ERR and MAXD clear (R38, R243). -/
def Core.afterChipRead (c : Core) (off : Nat) : Core :=
  if off = R.TMB_STATUS_DRIFT_ERR.off then c.wr R.TMB_STATUS_DRIFT_ERR 0
  else if 0x500000 ≤ off ∧ off < 0x500000 + 0x800 * 1104 ∧ off % 0x40 = 0x18 ∧ off % 0x800 < 0x600 ∧ off % 0x200 / 0x40 < 6 then
    c.wr (R.NET_QDEPTH_MAXD ((off - 0x500000) / 0x800) (off % 0x800 / 0x200) (off % 0x200 / 0x40)) 0
  else c

/-- `n` registers read one after another from an offset of a tile's page, or of the chiplet's. -/
def Core.readPage (c : Core) (ext : Nat → Option Nat) (tile : Option Nat) (off : Nat) : Nat → Core × List Byte
  | 0 => (c, [])
  | n + 1 =>
    let v := match tile with
      | some t => c.tileView t off
      | none => c.chipView ext off
    let c := match tile with
      | some t => c.afterTileRead t off
      | none => c.afterChipRead off
    let r := c.readPage ext tile (off + 8) n
    (r.1, toBytes 8 v ++ r.2)

/-- NFLAGS_RC_READ: a tile's flags read and cleared (R86). -/
def execNflagsRcRead (t : Nat) (s : State) : Host.Outcome State Fault Refusal :=
  onlyIf (isTile t) (s.onCore (fun c => { (c.afterTileRead t 0x208) with lastRead := c.tileView t 0x208 }))

/-- TMB_STATUS_READ: TMB_STATUS read, and DRIFT_ERR cleared (R38). -/
def execTmbStatusRead (s : State) : Host.Outcome State Fault Refusal :=
  s.onCore (fun c => { (c.afterChipRead R.TMB_STATUS_DRIFT_ERR.off) with lastRead := (c.cword R.TMB_STATUS_DRIFT_ERR.off).toNat })

/-- NET_QDEPTH_READ: the depth of an input read, and MAXD cleared (R243). -/
def execNetQdepthRead (n k p : Nat) (s : State) : Host.Outcome State Fault Refusal :=
  onlyIf (decide (n < 1104) && decide (k < 3) && decide (p < 6)) (s.onCore (fun c =>
    let off := (R.NET_QDEPTH_MAXD n k p).off
    { (c.afterChipRead off) with lastRead := (c.cword off).toNat }))

end Sys2Proof.Machine
end

