-- ==== Sys2Proof/Machine/Larder.lean ====
section
/-! DEFINITION. The larder's cache (R176 to R182, R278): lines, requests to the hubs, LARDER_REQUEST, and the commands
LWB, LINV and LPF (R286). A part of several lines is taken at the slice of its first line, each line in the slice that
R178 names (log entry 22). -/

namespace Sys2Proof.Machine

/-! ## Lines (R177, R178) -/

/-- Bits 62 to 6 of an address, by which a line is tagged. -/
def lineTag (a : Nat) : Nat := bits a 6 57
/-- The address of a line of this chiplet's plane. -/
def Core.lineAddr (c : Core) (tag : Nat) : Nat := c.rd R.PRT_SELF_PLANE * 2 ^ 63 + tag * 64
/-- The set a line falls in. -/
def lineSet (tag : Nat) : Nat := tag % 4096
/-- The lines that `n` bytes at an address touch. -/
def lineAddrs (a n : Nat) : List Nat := (touched 6 (a % 2 ^ 42) n).map (fun l => a / 2 ^ 42 * 2 ^ 42 + 64 * l)
/-- A line's place among those of its slice. -/
def CLine.place (l : CLine) : Nat := l.set * 16 + l.way

/-- The line a slice holds for a tag. -/
def Core.cline? (c : Core) (s tag : Nat) : Option CLine := c.lar.lines.find? (fun l => decide (l.slice = s) && decide (l.tag = tag))
/-- A far-memory line of a slice with FARNC set (R177). -/
def Core.noAlloc (c : Core) (s a : Nat) : Bool := decide (adClass a = 5) && decide (c.rd (R.LAR_CTL_FARNC s) = 1)

/-- A line used, or written: it is the last used, and dirty where `d`. -/
def Core.touchLine (c : Core) (l : CLine) (d : Bool) : Core :=
  { c with lar := { c.lar with
      nextTag := c.lar.nextTag + 1
      lines := c.lar.lines.map (fun x => if x = l then { l with dirty := l.dirty || d, used := c.lar.nextTag } else x) } }
/-- A line no longer held. -/
def Core.dropLine (c : Core) (l : CLine) : Core := { c with lar := { c.lar with lines := c.lar.lines.filter (fun x => decide (x ≠ l)) } }

/-! ## Requests to the hubs -/

/-- A fetch replaced by its changed self. -/
def Core.putFetch (c : Core) (f : Fetch) : Core :=
  { c with lar := { c.lar with fetches := c.lar.fetches.map (fun x => if x.tag = f.tag then f else x) } }
/-- A fetch done with. -/
def Core.dropFetch (c : Core) (f : Fetch) : Core :=
  { c with lar := { c.lar with fetches := c.lar.fetches.filter (fun x => decide (x.tag ≠ f.tag)) } }

/-- A write under way to a line. -/
def Core.writing (c : Core) (a : Nat) : Bool := c.lar.fetches.any (fun f => f.write && decide (f.addr / 64 = a / 64) && !f.done)
/-- A read of a line that later reads may join (R180): at most 64 are served by one. -/
def Core.joinable (c : Core) (a : Nat) : Option Fetch :=
  c.lar.fetches.find? (fun f => !f.write && decide (f.addr = a) && !f.shut && !f.done && decide (f.joined < 64))

/-- Whether a read whose data became available at a tick still merges: MWIN beats of its slice's domain have not passed
(R180). -/
def Core.mergeOpen (c : Core) (s since : Nat) : Bool :=
  let rate := c.rd (R.TMB_DOMRATE_RATE (routerDomain (physSliceRouter (c.physSlice s))))
  decide (c.rd (R.LAR_CTL_MWIN s) ≠ 0) && decide ((c.now - since) * rate ≤ c.rd (R.LAR_CTL_MWIN s) * 1000)

/-- The read of a line that a read may still merge into (R180). -/
def Core.merge? (c : Core) (a : Nat) : Option Merge :=
  c.lar.merges.find? (fun g => decide (g.addr = a) && decide (g.count < 64) && c.mergeOpen g.slice g.since)

/-- A read of a line whose data is available: those open to merging kept, this one in place of an older one of its line. -/
def Core.noteMerge (c : Core) (s a n : Nat) (bs : List Byte) : Core :=
  if c.rd (R.LAR_CTL_MWIN s) = 0 then c
  else
    let open' := c.lar.merges.filter (fun g => decide (g.addr ≠ a) && c.mergeOpen g.slice g.since)
    { c with lar := { c.lar with merges := open' ++ [⟨s, a, c.now, n, bs⟩] } }

/-- The packet of a line request: its SRC is the slice, its PART the request's tag (log entry 22). -/
def Core.fetchPacket (c : Core) (f : Fetch) : Packet :=
  { typ := if f.write then 1 else 2, ackreq := true, len := if f.write then f.data.length else 64, dst := f.addr,
    src := c.selfAddr 1 (f.slice * 2 ^ 35), part := f.tag % 65536, payload := f.data }

/-- The status a command over lines ends with: the first refused by line order. -/
def Cmd.noteLine (x : Cmd) (k st : Nat) : Cmd :=
  match x.lineBad with
  | some b => if k < b.1 then { x with lineBad := some (k, st) } else x
  | none => { x with lineBad := some (k, st) }

/-- A line refused given to the command it belongs to. -/
def Core.ownerBad (c : Core) (f : Fetch) (st : Nat) : Core :=
  match f.owner with
  | none => c
  | some (o, k) => c.mapCmds (fun y => if y.owner = o then y.noteLine k st else y)

/-- A line request sent by the hub port of R277; where no port is ACTIVE, or PRT_SELF is not valid (R272), it is done with
TARGET_LOST. -/
def Core.sendFetch (c : Core) (f : Fetch) : Core :=
  let f := { f with tag := c.lar.nextTag }
  let c := { c with lar := { c.lar with nextTag := c.lar.nextTag + 1 } }
  match c.wayOut f.addr (c.unitRouter (960 + f.slice)) with
  | none =>
    let c := (if f.evict then c.jobFatal 0x06 (faultUnit (960 + f.slice)) else c).ownerBad f stLOST
    if f.waiters = [] then c
    else { c with lar := { c.lar with fetches := c.lar.fetches ++ [{ f with done := true, status := stLOST, owner := none }] } }
  | some p =>
    let x := c.nextSeq (960 + f.slice) f.addr
    let c := { x.2 with lar := { x.2.lar with fetches := x.2.lar.fetches ++ [f] } }
    c.injectTo { (c.fetchPacket f) with seq := x.1 } (960 + f.slice) p

/-- A read of a line for an arrival or a command line: joined to one under way, put off while a write of the line is
under way, else sent. -/
def Core.fetchLine (c : Core) (s a : Nat) (waiters : List Nat) (owner : Option (Nat × Nat)) : Core :=
  match c.joinable a with
  | some f =>
    if owner.isSome then c
    else
      let new := waiters.filter (fun w => !f.waiters.contains w)
      c.putFetch { f with waiters := f.waiters ++ new, joined := f.joined + new.length }
  | none =>
    if c.writing a then c
    else c.sendFetch { tag := 0, slice := s, addr := a, write := false, waiters := waiters, owner := owner }

/-- A write to a line closes the merge of its reads (R180). -/
def Core.shutReads (c : Core) (a : Nat) : Core :=
  { c with lar := { c.lar with
      merges := c.lar.merges.filter (fun g => decide (g.addr ≠ a))
      fetches := c.lar.fetches.map (fun f => if f.write = false ∧ f.addr = a then { f with shut := true } else f) } }

/-- A dirty line leaving its slice: written back, or dropped where it is uncorrectable (R390). -/
def Mach.writeBack (m : Mach) (l : CLine) (owner : Option (Nat × Nat)) (inval : Bool := false) : Mach :=
  match m.sliceLine l.slice l.place false with
  | (m, none) => m.onCore (fun c => (c.dropLine l).jobFatal 0x06 (faultUnit (960 + l.slice)))
  | (m, some bs) => m.onCore (fun c =>
      c.sendFetch { tag := 0, slice := l.slice, addr := c.lineAddr l.tag, write := true, data := bs, owner := owner,
                    inval := inval, evict := owner.isNone })

/-- A way for a new line: a free one, or that of the line used longest ago, which leaves. -/
def Mach.freeWay (m : Mach) (s tag : Nat) : Mach × Nat :=
  let inSet : List CLine := m.core.lar.lines.filter (fun l => decide (l.slice = s) && decide (l.set = lineSet tag))
  match (List.range 16).find? (fun w => inSet.all (fun l => decide (l.way ≠ w))) with
  | some w => (m, w)
  | none =>
    match inSet.find? (fun l => inSet.all (fun k => decide (l.used ≤ k.used))) with
    | none => (m, 0)
    | some v => ((if v.dirty then m.writeBack v none else m).onCore (fun c => c.dropLine v), v.way)

/-- A line allocated with its bytes. -/
def Mach.allocate (m : Mach) (s a : Nat) (bs : List Byte) (dirty : Bool) : Mach :=
  let tag := lineTag a
  let r := m.freeWay s tag
  let l : CLine := ⟨s, lineSet tag, r.2, tag, dirty, r.1.core.lar.nextTag⟩
  let m := (r.1.write (sliceBase s + 64 * l.place) bs).clearErrs (sliceLineId s l.place)
  m.onCore (fun c => { c with lar := { c.lar with lines := c.lar.lines ++ [l], nextTag := c.lar.nextTag + 1 } })

/-! ## LARDER_REQUEST (R180, R182) -/

/-- How a line stands for an arrival: held, fetched for it without allocation, failed, or wanting. -/
inductive LineAns where
  | held (l : CLine)
  | fetched (f : Fetch)
  | bad (st : Nat)
  | want
  deriving DecidableEq, Repr

/-- A line as it stands for an arrival. -/
def Core.lineFor (c : Core) (a : Arrival) (addr : Nat) : LineAns :=
  match c.lar.fetches.find? (fun f => f.done && decide (f.addr / 64 = addr / 64) && f.waiters.contains a.id) with
  | some f => if f.status ≠ stOK then .bad f.status else .fetched f
  | none => match c.cline? (c.sliceFor addr) (lineTag addr) with
    | some l => .held l
    | none => .want

/-- The bytes of a part that fall in a line: where in the line, where in the part, how many. -/
def lineSpan (p : Packet) (addr : Nat) : Nat × Nat × Nat :=
  let lo := max p.dst addr
  (lo - addr, lo - p.dst, min (p.dst + p.len) (addr + 64) - lo)

/-- Whether a line of a part needs nothing more before the part is served: for a read, its bytes; for a write, the line
where it is covered in part, or the hub's answer where it is not allocated. -/
def Core.lineReady (c : Core) (a : Arrival) (addr : Nat) : Bool :=
  match c.lineFor a addr with
  | .fetched _ => true
  | .held _ => a.pkt.typ = 2 || !c.noAlloc (c.sliceFor addr) addr
  | .bad _ => true
  | .want => a.pkt.typ = 1 && !c.noAlloc (c.sliceFor addr) addr && decide ((lineSpan a.pkt addr).2.2 = 64)

/-- What a line not ready asks of its hub: its bytes, or a write passed straight on (R177). -/
def Core.askHub (c : Core) (a : Arrival) (addr : Nat) : Core :=
  let s := c.sliceFor addr
  if a.pkt.typ = 1 ∧ c.noAlloc s addr = true then
    if c.lar.fetches.any (fun f => f.write && f.waiters.contains a.id && decide (f.addr / 64 = addr / 64)) then c
    else
      let sp := lineSpan a.pkt addr
      c.sendFetch { tag := 0, slice := s, addr := addr + sp.1, write := true, data := (a.pkt.payload.drop sp.2.1).take sp.2.2,
                    waiters := [a.id] }
  else c.fetchLine s addr [a.id] none

/-- An arrival no longer waited for by any fetch. -/
def Core.release (c : Core) (a : Arrival) : Core :=
  let fs := c.lar.fetches.map (fun f => { f with waiters := f.waiters.filter (fun w => decide (w ≠ a.id)) })
  { c with lar := { c.lar with fetches := fs.filter (fun f => !(f.done && decide (f.waiters = []) && decide (f.owner = none))) } }

/-- The bytes of a line for a read; none where it is uncorrectable. -/
def Mach.lineBytes (m : Mach) (a : Arrival) (addr : Nat) : Mach × Option (List Byte) :=
  match m.core.lineFor a addr with
  | .held l =>
    let r := m.sliceLine l.slice l.place false
    (r.1.onCore (fun c =>
      let c := c.touchLine l false
      match r.2 with
      | some bs => if (c.merge? (c.lineAddr l.tag)).isSome then c else c.noteMerge l.slice (c.lineAddr l.tag) 1 bs
      | none => c), r.2)
  | .fetched f => (m, some f.data)
  | _ => (m, none)

/-- A line written by a part: in its slice, or as a new line. -/
def Mach.lineWrite (m : Mach) (a : Arrival) (addr : Nat) : Mach × Bool :=
  let sp := lineSpan a.pkt addr
  let bs := (a.pkt.payload.drop sp.2.1).take sp.2.2
  let m := m.onCore (fun c => c.shutReads addr)
  let s := m.core.sliceFor addr
  match m.core.cline? s (lineTag addr) with
  | some l =>
    match m.writeSliceLine s l.place false sp.1 bs with
    | (m, ok) => (m.onCore (fun c => c.touchLine l (!c.noAlloc s addr)), ok)
  | none => if m.core.noAlloc s addr then (m, true) else (m.allocate s addr bs true, true)

/-- A request served: its bytes returned, or written, its tally incremented (R286, R287), and acknowledged. -/
def Mach.serveLines (m : Mach) (a : Arrival) : Mach :=
  let addrs := lineAddrs a.pkt.dst a.pkt.len
  if a.pkt.typ = 2 then
    let r := addrs.foldl (fun (acc : Mach × Option (List Byte)) x =>
      match acc.2 with
      | none => acc
      | some bs => let y := acc.1.lineBytes a x; (y.1, y.2.map (fun l => bs ++ l))) (m, some [])
    match r.2 with
    | none => r.1.onCore (fun c => (c.release a).endArr a stUNCORR)
    | some bs => r.1.onCore (fun c =>
        ((c.release a).markStream a.unit a.pkt |>.dropArr a).reply a.unit a.pkt ((bs.drop (a.pkt.dst % 64)).take a.pkt.len))
  else
    let r := addrs.foldl (fun (acc : Mach × Bool) x => if acc.2 then acc.1.lineWrite a x else acc) (m, true)
    r.1.onCore (fun c =>
      if r.2 then
        let c := if bit a.pkt.arg 0 then c.tallyAdd a.unit a.pkt.tally 1 false else c
        ((c.release a).markStream a.unit a.pkt).endArr a stOK
      else (c.release a).endArr a stUNCORR)

/-- A request looked at: refused, served, or its lines asked for. -/
def Mach.workLines (m : Mach) (a : Arrival) : Mach :=
  let addrs := lineAddrs a.pkt.dst a.pkt.len
  match addrs.findSome? (fun x => match m.core.lineFor a x with | .bad st => some st | _ => none) with
  | some st => m.onCore (fun c => (c.release a).endArr a st)
  | none =>
    if addrs.all (m.core.lineReady a) then m.serveLines a
    else m.onCore (fun c => addrs.foldl (fun c x => if c.lineReady a x then c else c.askHub a x) c)

/-- A read merged into one whose data is available: it is served that data (R180). -/
def Core.mergeInto (c : Core) (a : Arrival) (g : Merge) : Core :=
  let f : Fetch :=
    { tag := c.lar.nextTag, slice := g.slice, addr := g.addr, write := false, data := g.data, done := true, waiters := [a.id] }
  { c with lar := { c.lar with
      nextTag := c.lar.nextTag + 1
      fetches := c.lar.fetches ++ [f]
      merges := c.lar.merges.map (fun x => if x = g then { g with count := g.count + 1 } else x) } }

/-- The counters of a request's lines (Table 8.10), and the merge of a read that comes within the window of another. -/
def Core.countLine (c : Core) (a : Arrival) (addr : Nat) : Core :=
  let s := c.sliceFor addr
  match (if a.pkt.typ = 2 then c.merge? addr else none) with
  | some g => (c.mergeInto a g).bumpWrap (R.LAR_MERGED_MERGED s) 1
  | none =>
    if (c.cline? s (lineTag addr)).isSome then c.bumpWrap (R.LAR_HIT_HITS s) 1
    else if a.pkt.typ = 2 ∧ (c.joinable addr).isSome then c.bumpWrap (R.LAR_MERGED_MERGED s) 1
    else c.bumpWrap (R.LAR_MISS_MISSES s) 1

/-- LARDER_REQUEST: a read or write of near or far memory at a slice. -/
def Mach.larderRequest (m : Mach) (a : Arrival) : Mach :=
  let c := m.core
  let s := a.unit - 960
  if a.unit < 960 ∨ 1056 ≤ a.unit ∨ adClass a.pkt.dst < 4 ∨ 5 < adClass a.pkt.dst ∨ (a.pkt.typ ≠ 1 ∧ a.pkt.typ ≠ 2) then m
  else if a.accepted then m.workLines a
  else if c.rd (R.LAR_CTL_STATE s) = 1 ∨ c.holdRoom a.unit a.pkt = false ∨ c.inService a = true then m
  else if !c.unitThere a.unit then m.onCore (fun c => c.endArr a stLOST)
  else if 2 ^ 42 < a.pkt.dst % 2 ^ 42 + a.pkt.len then m.onCore (fun c => c.endArr a stBOUND)
  else if a.pkt.typ = 1 ∧ c.isDup a.unit a.pkt = true then m.onCore (fun c => (c.touchStream a.unit a.pkt).discardDup a)
  else
    let a := { a with accepted := true }
    let m := m.onCore (fun c =>
      (lineAddrs a.pkt.dst a.pkt.len).foldl (fun c x => c.countLine a x) ((c.touchStream a.unit a.pkt).putArr a))
    m.workLines a
/-- LARDER_REQUEST. -/
def execLarderRequest (i : Nat) (s : State) : Host.Outcome State Fault Refusal :=
  s.onMach (fun m => match m.core.net.arr[i]? with | some a => m.larderRequest a | none => m)

/-! ## LWB, LINV and LPF (R286) -/

/-- A command over lines ends once every line has been dealt with. -/
def Core.endLines (c : Core) (x : Cmd) : Core :=
  if c.lar.fetches.any (fun f => decide (f.owner.map Prod.fst = some x.owner)) then c.putCmd x
  else c.putCmd (x.finish ((x.lineBad.map Prod.snd).getD stOK))

/-- The number of a held line within a command's range. -/
def Core.lineIn (c : Core) (x : Cmd) (l : CLine) : Option Nat :=
  let a := c.lineAddr l.tag
  let b := rmRemote x.word
  if a / 2 ^ 42 = b / 2 ^ 42 ∧ b ≤ a ∧ a < b + 64 * lnLines x.word then some ((a - b) / 64) else none

/-- Reads under way of a range allocate no line that LINV has passed. -/
def Core.shutRange (c : Core) (x : Cmd) : Core :=
  let b := rmRemote x.word
  { c with lar := { c.lar with
      fetches := c.lar.fetches.map (fun f =>
        if f.write = false ∧ b ≤ f.addr ∧ f.addr < b + 64 * lnLines x.word then { f with shut := true } else f) } }

/-- LWB and LINV: every dirty line of the range is written back, where a port takes it; LINV drops every line of it, a dirty
one once its hub has taken it. A range that leaves its memory space has no line there. -/
def Mach.backLines (m : Mach) (x : Cmd) (inval : Bool) : Mach :=
  if m.core.rd R.LAR_ILVCTL_BYPASS = 1 then m.onCore (fun c => c.finishCmd x stOK)
  else if x.committed then m.onCore (fun c => c.endLines x)
  else
    let m := m.onCore (fun c => c.putCmd { x with committed := true })
    let m := if inval then m.onCore (fun c => c.shutRange x) else m
    let m := m.core.lar.lines.foldl (fun (m : Mach) l =>
      match m.core.lineIn x l with
      | none => m
      | some k =>
        if l.dirty then
          let sent := (m.core.wayOut (m.core.lineAddr l.tag) (m.core.unitRouter (960 + l.slice))).isSome
          (m.writeBack l (some (x.owner, k)) inval).onCore (fun c =>
            { c with lar := { c.lar with lines := c.lar.lines.map (fun y => if y = l then { l with dirty := !sent } else y) } })
        else m.onCore (fun c => if inval then c.dropLine l else c)) m
    m.onCore (fun c => c.endLines ((c.queues.cmds.find? (fun y => decide (y.id = x.id))).getD x))

/-- LWB. -/
def execLwb (u q f : Nat) (s : State) : Host.Outcome State Fault Refusal :=
  onlyIf (isQueue u q) (s.onMach (fun m => m.withCmd u q f 0x3C (fun m x => m.backLines x false)))
/-- LINV. -/
def execLinv (u q f : Nat) (s : State) : Host.Outcome State Fault Refusal :=
  onlyIf (isQueue u q) (s.onMach (fun m => m.withCmd u q f 0x3D (fun m x => m.backLines x true)))

/-- LPF: its next line fetched where it is not held; a line of an absent slice is refused (R22). -/
def Core.lpf (c : Core) (x : Cmd) : Core :=
  if c.rd R.LAR_ILVCTL_BYPASS = 1 then c.finishCmd x stOK
  else if lnLines x.word ≤ x.cursor then c.endLines x
  else
    let k := x.cursor
    let x := { x with cursor := k + 1, committed := true }
    match partAddr (rmRemote x.word) (64 * k) with
    | none => c.putCmd (x.noteLine k stBOUND)
    | some a =>
      let s := c.sliceFor a
      if !c.unitThere (960 + s) then c.putCmd (x.noteLine k stLOST)
      else if (c.cline? s (lineTag a)).isSome ∨ c.noAlloc s a = true then c.putCmd x
      else if c.writing a ∨ (c.joinable a).isSome then c
      else (c.putCmd x).fetchLine s a [] (some (x.owner, k))
/-- LPF. -/
def execLpf (u q f : Nat) (s : State) : Host.Outcome State Fault Refusal :=
  onlyIf (isQueue u q) (s.onMach (fun m => m.withCmd u q f 0x3E (fun m x => m.onCore (fun c => c.lpf x))))

/-! ## The hub's answers -/

/-- The fetch a hub's answer belongs to: its slice and tag. -/
def Core.fetchOf (c : Core) (p : Packet) : Option Fetch :=
  c.lar.fetches.find? (fun f => !f.done && decide (f.slice = adSlice p.dst) && decide (f.tag % 65536 = p.part))

/-- The arrivals a fetch served are looked at again. -/
def Mach.wakeWaiters (m : Mach) (ids : List Nat) : Mach :=
  ids.foldl (fun (m : Mach) i => match m.core.net.arr.find? (fun a => decide (a.id = i)) with
    | some a => m.workLines a
    | none => m) m

/-- READDATA to a slice: the line is allocated, unless it was written meanwhile or is not to be, and its waiters go on. -/
def Mach.larderData (m : Mach) (a : Arrival) : Mach :=
  let m' := m.onCore (fun c => c.dropArr a)
  match m.core.fetchOf a.pkt with
  | none => m'
  | some f =>
    if f.write then m'
    else
      let keep := f.shut || m'.core.noAlloc f.slice f.addr
      let held := (m'.core.cline? f.slice (lineTag f.addr)).isSome
      let m := if keep || held then m' else m'.allocate f.slice f.addr a.pkt.payload false
      let m := m.onCore (fun c =>
        let c := if f.shut then c else c.noteMerge f.slice f.addr f.joined a.pkt.payload
        if (keep && decide (f.waiters ≠ [])) then c.putFetch { f with done := true, data := a.pkt.payload, owner := none }
        else c.dropFetch f)
      m.wakeWaiters f.waiters

/-- ACK to a slice: a write taken or refused, or a read refused. -/
def Mach.larderAck (m : Mach) (a : Arrival) : Mach :=
  let m' := m.onCore (fun c => c.dropArr a)
  let st := a.pkt.status
  match m.core.fetchOf a.pkt with
  | none => m'
  | some f =>
    if f.write = false ∧ st = stOK then m'
    else
      let m := m'.onCore (fun c =>
        let c := if st ≠ stOK then c.ownerBad f st else c
        let c := if st ≠ stOK ∧ f.evict = true then c.jobFatal 0x06 (faultUnit (960 + f.slice)) else c
        let c := if st ≠ stOK ∧ f.write = true ∧ f.owner.isSome = true then
            match c.cline? f.slice (lineTag f.addr) with
            | some l => c.touchLine l true
            | none => c
          else if f.inval then
            match c.cline? f.slice (lineTag f.addr) with
            | some l => if l.dirty then c else c.dropLine l
            | none => c
          else c
        if f.waiters = [] then c.dropFetch f else c.putFetch { f with done := true, status := st, owner := none })
      m.wakeWaiters f.waiters

end Sys2Proof.Machine
end

