-- ==== Sys2Proof/Machine/Remote.lean ====
section
/-! DEFINITION. Packets at their holding units (R282 rows 7 to 11, R285 to R288): WRITE, READREQ, READDATA, ACK, TINC,
SUBMIT, multicast copies and the remote tag wait. -/

namespace Sys2Proof.Machine

/-! ## Checks (Table 12.6, rows 8 to 11) -/

/-- Rows 8 to 10: the window. -/
def Core.windowStatus (c : Core) (a : Arrival) : Option Nat :=
  let p := a.pkt
  let w := adWin p.dst
  if adClass p.dst ≠ 3 then none
  else if !c.winOpen w ∨ c.rd (R.LAR_WIN_GEN w) ≠ adGen p.dst ∨ c.winUnit w ≠ a.unit then some stCLOSED
  else if (c.rd (R.LAR_WIN_LOCALONLY w) = 1 ∧ a.port.isSome = true)
      ∨ (if p.typ = 2 then c.rd (R.LAR_WIN_RD w) = 0 else c.rd (R.LAR_WIN_WR w) = 0) then some stDENIED
  else if c.rd (R.LAR_WIN_LENGTH w) < adWinOff p.dst + (if p.typ = 5 then 0 else p.len) then some stBOUND
  else none

/-- The byte of its unit's memory a part starts at. -/
def Core.partBase (c : Core) (p : Packet) : Nat :=
  match adClass p.dst with
  | 0 => adTileOff p.dst
  | 1 => adSliceOff p.dst
  | _ => c.winBase (adWin p.dst) + adWinOff p.dst

/-- A unit that holds memory: absent or parked ones answer TARGET_LOST. -/
def Core.holderStatus (c : Core) (a : Arrival) : Option Nat :=
  if a.unit < 960 ∧ c.present a.unit = false then some (if adClass a.pkt.dst = 3 then stCLOSED else stLOST)
  else if 960 ≤ a.unit ∧ c.unitThere a.unit = false then some (if adClass a.pkt.dst = 3 then stCLOSED else stLOST)
  else none

/-- Whether a part meets a segment that takes it (R169, R171): `late` for one already accepted. -/
def Core.segTakes (c : Core) (t : Nat) (p : Packet) (late : Bool) (g : Nat) : Bool :=
  !c.bankRetired t (g / 4) && match c.regionOf t g with
  | some n =>
    c.rgnLit t n || (decide (c.trd t (R.MEM_RGN_STATE n) = 1)
      && (late || (decide (p.typ = 1) && c.tiles.accSrc.contains (16 * t + n, p.src))))
  | none => c.segTested t g

/-- Row 11 at a tile, but for tags and the merge: bank class, reduced service, region. -/
def Core.tileStatus (c : Core) (t : Nat) (p : Packet) (base n : Nat) : Option Nat :=
  if !(touched 16 base n).all (fun b => decide (c.servedClass t b = clsMover)) then some stBANK
  else if c.reduced && (touched 16 base n).any (fun b => decide (8 ≤ b)) then some stDENIED
  else if !(touched 14 base n).all (c.segTakes t p false) then some stDARK
  else none

/-- A slice's own refusals (R181). -/
def Core.sliceStatus (c : Core) (s base n : Nat) : Option Nat :=
  if c.rd (R.LAR_CTL_MODE s) = 0 ∨ c.reduced = true then some stDENIED
  else if 2 ^ 22 < base + n then some stBOUND
  else if c.crierZone s base n then some stDENIED else none

/-- The first refusal of a WRITE or READREQ at a tile or slice. -/
def Core.holdStatus (c : Core) (a : Arrival) : Option Nat :=
  (c.holderStatus a).or ((c.windowStatus a).or (
    if a.unit < 960 then c.tileStatus a.unit a.pkt (c.partBase a.pkt) a.pkt.len
    else c.sliceStatus (a.unit - 960) (c.partBase a.pkt) a.pkt.len))

/-- A part refused: its ACK, and REFUSED for a region refusal (R169). -/
def Core.refuse (c : Core) (a : Arrival) (st : Nat) : Core :=
  let c := if st = stDARK ∧ a.unit < 960 then c.tbump a.unit R.MEM_STATUS_REFUSED 1 else c
  c.endArr a st

/-! ## Acceptance and end (R171, R280) -/

/-- An accepted part counts in INBOUND of its window, and a write in that of its regions. -/
def Core.acceptPart (c : Core) (a : Arrival) : Arrival × Core :=
  let w := if adClass a.pkt.dst = 3 then some (adWin a.pkt.dst) else none
  let rs := if a.unit < 960 ∧ a.pkt.typ = 1 then
      ((touched 14 (c.partBase a.pkt) a.pkt.len).filterMap (c.regionOf a.unit)).dedup else []
  let a := { a with accepted := true, rgns := rs, win := w }
  let c := match w with
    | some w => c.bump (R.LAR_WIN_INBOUND w) 1
    | none => c
  let c : Core := rs.foldl (fun c n => c.tbump a.unit (R.MEM_RGN_INBOUND n) 1) c
  let marks := (rs.map (fun n => (16 * a.unit + n, a.pkt.src))).filter (fun m => !c.tiles.accSrc.contains m)
  (a, { c with tiles := { c.tiles with accSrc := c.tiles.accSrc ++ marks } }.putArr a)

/-- What an accepted part counted in is uncounted; a closing window may then be CLOSED. -/
def Core.uncount (c : Core) (a : Arrival) : Core :=
  let c : Core := a.rgns.foldl (fun c n => c.twr a.unit (R.MEM_RGN_INBOUND n) (c.trd a.unit (R.MEM_RGN_INBOUND n) - 1)) c
  match a.win with
  | some w => (c.wr (R.LAR_WIN_INBOUND w) (c.rd (R.LAR_WIN_INBOUND w) - 1)).settleWin w
  | none => c

/-- A write that failed after its acceptance (R166). -/
def Core.failWrite (c : Core) (a : Arrival) (st : Nat) : Core :=
  let c := if a.unit < 960 then c.endClaims a.unit a.claims a.wrote false else c
  (c.uncount a).refuse a st

/-- A write that landed whole: its slots FULL, its tally, its mark, its ACK (R287, R288). -/
def Core.landed (c : Core) (a : Arrival) : Core :=
  let c := if a.unit < 960 then c.endClaims a.unit a.claims a.wrote true else c
  let c := if bit a.pkt.arg 0 then c.tallyAdd a.unit a.pkt.tally 1 false else c
  ((c.uncount a).markStream a.unit a.pkt).endArr a stOK

/-! ## WRITE (R287) -/

/-- A part's bytes that fall in one slot, line by line: false at the first line whose merge fails, with whether any
line was written. -/
def Mach.slotWrite (m : Mach) (t p : Nat) (bs : List Byte) : Mach × Bool × Bool :=
  (lineChunks p bs).foldl (fun (acc : Mach × Bool × Bool) ch =>
    if acc.2.2 then
      let r := acc.1.writeLine t (lineId t ch.1) (tileBase t + 64 * ch.1) ch.1 (acc.1.core.weightLine t ch.1) ch.2.1 ch.2.2
      (r.1, acc.2.1 || r.2, r.2)
    else acc) (m, false, true)

/-- One slot of an accepted write: claimed where it is tagged and written, or left waiting (R165). The flag says whether
the write has failed. -/
def Mach.landSlot (m : Mach) (a : Arrival) (base s : Nat) : Mach × Arrival × Bool :=
  let t := a.unit
  if a.wrote.contains s ∨ m.core.claimable t s a.owner = false then (m, a, false)
  else
    let tagged := (m.core.taggedRegion t s).isSome
    let m := if tagged then m.onCore (fun c => c.setTag t s (.claimed a.owner)) else m
    let a := if tagged && !a.claims.contains s then { a with claims := a.claims ++ [s] } else a
    let lo := max base (256 * s)
    let bs := (a.pkt.payload.drop (lo - base)).take (256 * (s + 1) - lo)
    let r := m.slotWrite t lo bs
    (r.1, if r.2.1 then { a with wrote := a.wrote ++ [s] } else a, !r.2.2)

/-- An accepted write at a tile: every slot it can have, until all have landed or one fails. -/
def Mach.landTile (m : Mach) (a : Arrival) : Mach :=
  let base := m.core.partBase a.pkt
  let slots := touched 8 base a.pkt.len
  if !(touched 14 base a.pkt.len).all (m.core.segTakes a.unit a.pkt true) then m.onCore (fun c => c.failWrite a stDARK)
  else
    let r := slots.foldl (fun (acc : Mach × Arrival × Bool) s =>
      if acc.2.2 then acc else acc.1.landSlot acc.2.1 base s) (m, a, false)
    if r.2.2 then r.1.onCore (fun c => c.failWrite r.2.1 stUNCORR)
    else if slots.all r.2.1.wrote.contains then r.1.onCore (fun c => c.landed r.2.1)
    else r.1.onCore (fun c => c.putArr { r.2.1 with since := r.2.1.since.or (some c.now) })

/-- An accepted write at a slice. -/
def Mach.landSlice (m : Mach) (a : Arrival) : Mach :=
  match m.sliceWrite (a.unit - 960) (m.core.partBase a.pkt) a.pkt.payload with
  | (m, true) => m.onCore (fun c => c.landed a)
  | (m, false) => m.onCore (fun c => c.failWrite a stUNCORR)

/-- A WRITE at its holding unit: accepted where the checks pass, then landed as far as its slots allow. -/
def Mach.writeAt (m : Mach) (a : Arrival) : Mach :=
  let c := m.core
  if a.accepted then (if a.unit < 960 then m.landTile a else m.landSlice a)
  else if 960 ≤ a.unit ∧ (1056 ≤ a.unit ∨ adClass a.pkt.dst = 2 ∨ adClass a.pkt.dst = 6) then m.onCore (fun c => c.endArr a stDENIED)
  else if adClass a.pkt.dst = 2 then m.onCore (fun c => c.endArr a stDENIED)
  else if c.holdRoom a.unit a.pkt = false ∨ c.inService a = true
      ∨ (960 ≤ a.unit ∧ c.rd (R.LAR_CTL_STATE (a.unit - 960)) = 1) then m
  else
    let m := m.onCore (fun c => c.touchStream a.unit a.pkt)
    if m.core.isDup a.unit a.pkt then m.onCore (fun c => c.discardDup a)
    else match m.core.holdStatus a with
      | some st => m.onCore (fun c => c.refuse a st)
      | none =>
        let r := m.core.acceptPart a
        let m := { m with core := r.2 }
        if a.unit < 960 then m.landTile r.1 else m.landSlice r.1

/-- A WRITE to near or far memory at a slice is LARDER_REQUEST's. -/
def Arrival.memory (a : Arrival) : Bool := decide (adClass a.pkt.dst = 4) || decide (adClass a.pkt.dst = 5)

/-- WRITE. -/
def execWrite (i : Nat) (s : State) : Host.Outcome State Fault Refusal :=
  s.onMach (fun m => match m.core.net.arr[i]? with
    | some a => if a.pkt.typ = 1 ∧ a.memory = false then m.writeAt a else m
    | none => m)

/-! ## The tile loader (R338, R343) -/

/-- Chunks of a manifest, and the packets of its CSEAL table. -/
def manChunks (man : List Byte) : Nat := leAt man 2 2
def tablePackets (man : List Byte) : List Nat := (List.range (ceilDiv (16 * manChunks man) 512)).map (fun i => 512 + i)

/-- The 512-byte packets a loader has taken for the broadcast. -/
def Core.loads (c : Core) (t : Nat) : List Nat := SMap.get [] c.cry.loads t

/-- Where a loader holds the image it is taking, laid out as its store: a LOADING tile keeps its old image until the new one
verifies (R342; log entry 49). -/
def incomingBase (t : Nat) : Nat := 2 ^ 37 + t * 2 ^ 19

/-- A chunk stands whole in what a loader takes, and its seal is the one of its CSEAL table (R340, R343). -/
def Mach.chunkSealed (m : Mach) (t c : Nat) : Bool :=
  (List.range 8).all (fun i => (m.core.loads t).contains (8 * c + i))
    && decide (sealContrib (leAt m.core.cry.manifest 16 8) 0 c (m.read (incomingBase t + 4096 * c) 4096)
      = ofBytes (m.read (incomingBase t + 0x40000 + 16 * c) 16))

/-- A verified image put into the store in place of the old one, with zeros past its end. -/
def Mach.takeImage (m : Mach) (t : Nat) : Mach :=
  let cells := m.mem.filter (fun x => decide (incomingBase t ≤ x.1) && decide (x.1 < incomingBase (t + 1)))
  (m.zero (loaderBase t) (loaderBase (t + 1))).writeAll (cells.map (fun x => (x.1 - incomingBase t + loaderBase t, x.2)))

/-- SEALT once the table is whole, and the bit of every chunk held and sealed; with all of them the image verifies. -/
def Mach.sealLoader (m : Mach) (t : Nat) : Mach :=
  let man := m.core.cry.manifest
  if (tablePackets man).all (m.core.loads t).contains then
    let map := (List.range (manChunks man)).foldl (fun x c => if m.chunkSealed t c then setBit x c true else x)
      (m.core.trd t R.SEQ_FWMAP_CHUNKS)
    let m := m.onCore (fun c => (c.twr t R.SEQ_LOADER_SEALT 1).twr t R.SEQ_FWMAP_CHUNKS map)
    if (List.range (manChunks man)).all (bit map) then m.takeImage t else m
  else m

/-- Bytes taken by a loader: packet `n` of 512. -/
def Mach.loadPacket (m : Mach) (t n : Nat) (bs : List Byte) : Mach :=
  let l := (m.core.loads t).filter (fun x => decide (x ≠ n)) ++ [n]
  (m.write (incomingBase t + 512 * n) bs).onCore (fun c => { c with cry := { c.cry with loads := SMap.set [] c.cry.loads t l } })

/-- A packet of the broadcast at a tile's loader. -/
def Mach.loaderTake (m : Mach) (a : Arrival) : Mach :=
  let off := adTileOff a.pkt.dst
  if 0x40400 ≤ off then m.onCore (fun c => c.endArr a stBOUND)
  else ((m.loadPacket a.unit (off / 512) a.pkt.payload).sealLoader a.unit).onCore (fun c => c.endArr a stOK)

/-- MULTICAST_COPY_LANDING: the copy at the head of a tile's store (R222), in tile memory or, a CHMSG of the crier, at the
tile's loader. -/
def execMulticastCopyLanding (t : Nat) (s : State) : Host.Outcome State Fault Refusal :=
  onlyIf (isTile t) (s.onMach (fun m =>
    match m.core.net.mstore.find? (fun a => decide (a.unit = t)) with
    | some a => if a.pkt.typ = 1 then m.writeAt a else if a.pkt.typ = 8 then m.loaderTake a else m
    | none => m))

/-- TAGWAIT_EXPIRY: a remote access has waited TAGWAIT on slots; those it has claimed become FAILED (R167). -/
def Core.tagwaitExpiry (c : Core) (i : Nat) : Core :=
  match (c.net.arr ++ c.net.mstore)[i]? with
  | none => c
  | some a => match a.since with
    | none => c
    | some t0 =>
      if a.unit < 960 ∧ c.trd a.unit R.MEM_TIMERS_TAGWAIT ≤ c.now - t0 then c.failWrite { a with wrote := a.claims } stTIMEOUT else c
/-- TAGWAIT_EXPIRY. -/
def execTagwaitExpiry (i : Nat) (s : State) : Host.Outcome State Fault Refusal := s.onCore (fun c => c.tagwaitExpiry i)

/-! ## READREQ (R274, R285, R288) -/

/-- A read that ended with a status. -/
def Core.failRead (c : Core) (a : Arrival) (st : Nat) : Core := (c.uncount a).refuse a st

/-- A read served: its reply leaves, then the slots it read are consumed (R166). -/
def Core.served (c : Core) (a : Arrival) (bs : List Byte) : Core :=
  let c := ((((c.uncount a).markStream a.unit a.pkt).dropArr a).reply a.unit a.pkt bs)
  if a.unit < 960 then c.consume a.unit (touched 8 (c.partBase a.pkt) a.pkt.len) else c

/-- One slot's share of an accepted read: read where it can be and has not been yet (R165). The status is that of a read
that fails. -/
def Mach.readShare (m : Mach) (a : Arrival) (p n : Nat) : Mach × Arrival × Option Nat :=
  if a.seen.any (fun e => decide (e.1 = p)) then (m, a, none)
  else match m.core.readTags a.unit p n with
    | .fail => (m, a, some stFAILED)
    | .wait _ => (m, a, none)
    | .go => match m.tileRead a.unit p n with
      | (m, some bs) => (m, { a with seen := a.seen ++ [(p, bs)] }, none)
      | (m, none) => (m, a, some stUNCORR)

/-- An accepted read at a tile, slot by slot: FAILED slots fail it, slots not FULL make it wait. -/
def Mach.readTile (m : Mach) (a : Arrival) : Mach :=
  let base := m.core.partBase a.pkt
  let chunks := slotChunks base a.pkt.len
  if !(touched 14 base a.pkt.len).all (m.core.segTakes a.unit a.pkt true) then m.onCore (fun c => c.failRead a stDARK)
  else
    let r := chunks.foldl (fun (acc : Mach × Arrival × Option Nat) k =>
      if acc.2.2.isSome then acc else acc.1.readShare acc.2.1 k.1 k.2) (m, a, none)
    let got := chunks.map (fun k => (r.2.1.seen.find? (fun e => decide (e.1 = k.1))).map Prod.snd)
    match r.2.2 with
    | some st => r.1.onCore (fun c => c.failRead a st)
    | none =>
      if got.all Option.isSome then r.1.onCore (fun c => c.served a (got.flatMap (fun g => g.getD [])))
      else r.1.onCore (fun c => c.putArr { r.2.1 with since := r.2.1.since.or (some c.now) })

/-- An accepted read at a slice. -/
def Mach.readSlice (m : Mach) (a : Arrival) : Mach :=
  match m.sliceRead (a.unit - 960) (m.core.partBase a.pkt) a.pkt.len with
  | (m, some bs) => m.onCore (fun c => c.served a bs)
  | (m, none) => m.onCore (fun c => c.failRead a stUNCORR)

/-- A read of the control page (R274). -/
def Core.pageRead (c : Core) (ext : Nat → Option Nat) (a : Arrival) : Core :=
  let p := a.pkt
  let off := adPageOff p.dst
  if a.port.any (fun q => decide (4 ≤ q)) then c.endArr a stDENIED
  else if off % 8 ≠ 0 ∨ p.len % 8 ≠ 0 ∨ p.len = 0 ∨ 512 < p.len then c.endArr a stFORMAT
  else if adT p.dst = 1 ∧ c.present a.unit = false then c.endArr a stLOST
  else
    let r := c.readPage ext (if adT p.dst = 1 then some a.unit else none) off (p.len / 8)
    (r.1.dropArr a).reply a.unit p r.2

/-- A READREQ at its holding unit. -/
def Mach.readAt (m : Mach) (ext : Nat → Option Nat) (a : Arrival) : Mach :=
  let c := m.core
  if a.accepted then (if a.unit < 960 then m.readTile a else m.readSlice a)
  else if adClass a.pkt.dst = 2 then m.onCore (fun c => c.pageRead ext a)
  else if 1056 ≤ a.unit then m.onCore (fun c => c.endArr a stDENIED)
  else if c.holdRoom a.unit a.pkt = false ∨ c.inService a = true
      ∨ (960 ≤ a.unit ∧ c.rd (R.LAR_CTL_STATE (a.unit - 960)) = 1) then m
  else
    let m := m.onCore (fun c => c.touchStream a.unit a.pkt)
    match m.core.holdStatus a with
    | some st => m.onCore (fun c => c.refuse a st)
    | none =>
      if m.core.isDup a.unit a.pkt = true ∧ a.unit < 960
          ∧ (touched 8 (m.core.partBase a.pkt) a.pkt.len).any (m.core.consuming a.unit) = true then
        m.onCore (fun c => c.endArr a stTIMEOUT)
      else
        let r := m.core.acceptPart a
        let m := { m with core := r.2 }
        if a.unit < 960 then m.readTile r.1 else m.readSlice r.1

/-- READREQ; `ext` gives the registers that stand outside the logic. -/
def Mach.readreq (m : Mach) (ext : Nat → Option Nat) (i : Nat) : Mach :=
  match m.core.net.arr[i]? with
  | some a => if a.pkt.typ = 2 ∧ a.memory = false then m.readAt ext a else m
  | none => m

/-! ## TINC and SUBMIT -/

/-- A TINC at its holding unit (R286, R194, R195); one that names a SWITCHING slice waits (R176), and reduced service denies
those to slices (R362). -/
def Core.tincAt (c : Core) (a : Arrival) : Core :=
  let p := a.pkt
  if 1056 ≤ a.unit ∨ adClass p.dst = 2 then c.endArr a stDENIED
  else if c.holdRoom a.unit p = false ∨ c.inService a = true ∨ (960 ≤ a.unit ∧ c.rd (R.LAR_CTL_STATE (a.unit - 960)) = 1) then c
  else
    let c := c.touchStream a.unit p
    if c.isDup a.unit p then c.discardDup a
    else match (c.holderStatus a).or ((c.windowStatus a).or
        (if 960 ≤ a.unit ∧ ((adClass p.dst = 1 ∧ c.rd (R.LAR_CTL_MODE (a.unit - 960)) = 0) ∨ c.reduced = true) then some stDENIED
         else none)) with
      | some st => c.endArr a st
      | none =>
        if bits p.arg 0 20 = 0 then c.endArr a stFORMAT
        else ((c.tallyAdd a.unit p.tally (bits p.arg 0 20) (bit p.arg 20)).markStream a.unit p).endArr a stOK
/-- TINC_PACKET. -/
def execTincPacket (i : Nat) (s : State) : Host.Outcome State Fault Refusal :=
  s.onCore (fun c => match c.net.arr[i]? with
    | some a => if a.pkt.typ = 5 then (if a.memory then c.endArr a stDENIED else c.tincAt a) else c
    | none => c)

/-- The group and queue a submission address names (R275); a queue the group does not have is none. -/
def submitQueue (a : Nat) : Option (Nat × Nat) :=
  let off := adPageOff a
  let g := (off - 0x180000) / 0x800
  let q := off % 0x800 / 0x40
  if adClass a = 2 ∧ adT a = 0 ∧ 0x180000 ≤ off ∧ off % 0x40 = 0 ∧ g < 100 ∧ q < queuesOf (960 + g) then some (960 + g, q) else none

/-- Whether a port's authority covers a submission (Table 15.5): the warden port any group, another hub port the slices
and its own group; a ring port none. -/
def Core.maySubmit (c : Core) (port : Option Nat) (u : Nat) : Bool :=
  match port with
  | none => true
  | some p => decide (p < 4) && (decide (c.rd (R.PRT_STATE_WARDEN p) = 1) || decide (u < 1056) || decide (u = 1056 + p))

/-- A SUBMIT at the queue store (R186, R275). -/
def Mach.submitAt (m : Mach) (a : Arrival) : Mach :=
  let p := a.pkt
  let c := m.core
  match submitQueue p.dst with
  | none => m.onCore (fun c => c.endArr a stDENIED)
  | some (u, q) =>
    if c.holdRoom unitSeam p = false ∨ c.inService a = true then m
    else
      let m := m.onCore (fun c => c.touchStream unitSeam p)
      if m.core.isDup unitSeam p then m.onCore (fun c => c.discardDup a)
      else if p.payload.length ≠ 64 ∨ leAt p.payload 40 24 ≠ 0 then m.onCore (fun c => c.endArr a stFORMAT)
      else if !c.maySubmit a.port u then m.onCore (fun c => c.endArr a stDENIED)
      else if !c.unitThere u then m.onCore (fun c => c.endArr a stLOST)
      else if 64 ≤ countFrom (c.ringPI u q) (c.ringCI u q) then m.onCore (fun c => c.endArr a stBOUND)
      else
        let m := m.write (storeBase (u - 960) q (c.ringPI u q % 64)) p.payload
        m.onCore (fun c => ((c.qset u q 0 (R.SEQ_QRING_PI 0) (c.ringPI u q + 1)).markStream unitSeam p).endArr a stOK)
/-- SUBMIT. -/
def execSubmit (i : Nat) (s : State) : Host.Outcome State Fault Refusal :=
  s.onMach (fun m => match m.core.net.arr[i]? with | some a => if a.pkt.typ = 6 then m.submitAt a else m | none => m)

/-! ## Answers at the source (R276, R285, R289) -/

/-- The unit, queue and in-flight slot a SRC names (R276). -/
def srcOwner (a : Nat) : Nat × Nat × Nat :=
  if adClass a = 0 then (20 * adRow a + adCol a, bits a 28 3, bits a 24 4)
  else
    let o := adPageOff a - 0x180000
    (960 + o / 0x800, o % 0x800 / 0x40, o % 0x40 / 4)

/-- The open part an answer belongs to; one whose data is still landing has its answer (R289). -/
def Core.answered (c : Core) (p : Packet) : Option (Cmd × Part) :=
  let o := srcOwner p.dst
  match c.running? o.1 o.2.1 o.2.2 with
  | none => none
  | some x => (x.parts.find? (fun k => decide (k.k = p.part) && k.status.isNone && decide (k.pkt.seq = p.seq)
      && !c.landing x.id k.k)).map (fun k => (x, k))

/-- One slot of a GET's landing, as a local write of its command (R285). -/
def Mach.landGetSlot (m : Mach) (x : Cmd) (loc : Nat) (bs : List Byte) (s : Nat) : Ans Cmd :=
  let lo := max loc (256 * s)
  m.localWrite x lo ((bs.drop (lo - loc)).take (256 * (s + 1) - lo))

/-- A GET's bytes landing in tile memory, slot by slot: the command as it stands, with the claim of a slot whose merge
failed, what has landed, and the failure. -/
def Mach.landGet (m : Mach) (x : Cmd) (a : Arrival) (loc : Nat) : Mach × Cmd × Arrival × Option Nat :=
  (touched 8 loc a.pkt.payload.length).foldl (fun (acc : Mach × Cmd × Arrival × Option Nat) s =>
    if acc.2.2.2.isSome || acc.2.2.1.wrote.contains s then acc
    else match acc.1.landGetSlot acc.2.1 loc a.pkt.payload s with
      | .ok m y => (m, y, { acc.2.2.1 with wrote := acc.2.2.1.wrote ++ [s] }, none)
      | .wait _ _ => acc
      | .held => acc
      | .fail m st => (m, ((m.core.queueCmds x.unit x.q).find? (fun z => decide (z.id = x.id))).getD acc.2.1, acc.2.2.1, some st))
    (m, x, a, none)

/-- READDATA of a GET or GATHER; it waits at a SWITCHING slice (R176). -/
def Mach.getData (m : Mach) (x : Cmd) (k : Part) (a : Arrival) : Mach :=
  if x.unit < 960 then
    let r := m.landGet x a k.loc
    let m := r.1.onCore (fun c => c.putCmd r.2.1)
    match r.2.2.2 with
    | some st => m.onCore (fun c => (c.dropArr a).partDone r.2.1 k.k st)
    | none =>
      if (touched 8 k.loc a.pkt.payload.length).all r.2.2.1.wrote.contains then
        m.onCore (fun c => (c.dropArr a).partDone r.2.1 k.k stOK)
      else m.onCore (fun c => c.putArr { r.2.2.1 with land := some (x.id, k.k, k.loc) })
  else if m.core.rd (R.LAR_CTL_STATE (k.loc / 2 ^ 22)) = 1 then m.onCore (fun c => c.putArr { a with land := some (x.id, k.k, k.loc) })
  else
    let s := k.loc / 2 ^ 22
    let st := if !m.core.unitThere (960 + s) then some stLOST else if m.core.rd (R.LAR_CTL_MODE s) = 0 then some stDENIED else none
    match st with
    | some st => m.onCore (fun c => (c.dropArr a).partDone x k.k st)
    | none =>
      let r := m.sliceWrite s (k.loc % 2 ^ 22) a.pkt.payload
      r.1.onCore (fun c => (c.dropArr a).partDone x k.k (if r.2 then stOK else stUNCORR))

/-- The WRITE of a COPY's part. -/
def Core.copyPacket (c : Core) (x : Cmd) (k : Part) (bs : List Byte) : Packet :=
  { typ := 1, ackreq := true, len := bs.length, tally := bits x.word 212 6, part := k.k, arg := b2n (bit x.word 218),
    dst := cpDst x.word + 512 * k.k, src := c.srcOf x, payload := bs }

/-- READDATA of a COPY: its write is issued (R286). -/
def Core.copyData (c : Core) (x : Cmd) (k : Part) (a : Arrival) : Core :=
  if k.stage = 1 then c.dropArr a
  else match c.partStatus x (cpDst x.word) (512 * k.k) a.pkt.payload.length with
    | some st => (c.dropArr a).partDone x k.k st
    | none =>
      if !c.streamRoom x.unit (cpDst x.word) 1 then c.putArr { a with land := some (x.id, k.k, 0) }
      else
        let r := (c.dropArr a).sendNew (c.copyPacket x k a.pkt.payload) x.unit
        r.2.putCmd { x with parts := x.parts.map (fun y =>
          if y.k = k.k then { y with stage := 1, pkt := r.1, first := c.now, tries := 0 } else y) }

/-- The open part whose data an arrival is still landing. -/
def Core.landingPart (c : Core) (a : Arrival) : Option (Cmd × Part) :=
  a.land.bind (fun g => (c.queues.cmds.find? (fun x => decide (x.id = g.1) && x.running)).bind
    (fun x => (x.parts.find? (fun k => decide (k.k = g.2.1) && k.status.isNone)).map (fun k => (x, k))))

/-- READDATA at its source; one that no open part awaits is discarded (R289). -/
def Mach.dataAt (m : Mach) (a : Arrival) : Mach :=
  if adClass a.pkt.dst = 1 then m.larderData a
  else match (if a.land.isSome then m.core.landingPart a else m.core.answered a.pkt) with
    | none => m.onCore (fun c => c.dropArr a)
    | some (x, k) =>
      if k.pkt.typ ≠ 2 then m.onCore (fun c => c.dropArr a)
      else if x.opcode = 0x33 then m.onCore (fun c => c.copyData x k a)
      else m.getData x k a
/-- READDATA. -/
def execReaddata (i : Nat) (s : State) : Host.Outcome State Fault Refusal :=
  s.onMach (fun m => match m.core.net.arr[i]? with | some a => if a.pkt.typ = 3 then m.dataAt a else m | none => m)

/-- The relay of a broadcast ended, with the status it met (R346). -/
def Core.relayEnd (c : Core) (st : Nat) : Core :=
  let c := c.wr R.CH_CRSTAT_STATE (if c.rd R.CH_CRSTAT_VERIFIED = 0 then 6 else 0)
  { c with cry := { c.cry with relay := [], waiting := none, relayStatus := st, ended := true } }

/-- An ACK that no open part awaits: one that refuses a piece of the relay ends it. -/
def Core.strayAck (c : Core) (a : Arrival) : Core :=
  if a.unit = unitSeam ∧ c.cry.waiting.isSome = true ∧ a.pkt.status ≠ stOK then c.relayEnd a.pkt.status else c

/-- ACK at its source: STALE_EPOCH has the part reissued at once, any other status ends it (R289). -/
def Mach.ackAt (m : Mach) (a : Arrival) : Mach :=
  if adClass a.pkt.dst = 1 then m.larderAck a
  else m.onCore (fun c =>
    let c := c.dropArr a
    match c.answered a.pkt with
    | none => c.strayAck a
    | some (x, k) => if a.pkt.status = stEPOCH then c.resend x k else c.partDone x k.k a.pkt.status)
/-- ACK. -/
def execAck (i : Nat) (s : State) : Host.Outcome State Fault Refusal :=
  s.onMach (fun m => match m.core.net.arr[i]? with | some a => if a.pkt.typ = 4 then m.ackAt a else m | none => m)

end Sys2Proof.Machine
end

