-- ==== Sys2Proof/Machine/Strands.lean ====
section
/-! DEFINITION. Strands and port states (R255 to R262): training, degradation, retirement, loss. -/

namespace Sys2Proof.Machine

/-! ## Lanes -/

/-- The lanes a new mask excludes that no register did. -/
def Core.newBad (c : Core) (p d s bad : Nat) : List Nat := (List.range 72).filter (fun l => bit bad l && !bit (c.excluded p d s) l)
/-- The ledger has room for the lanes newly excluded; with none no spare counts as free (R380). -/
def Core.laneRoom (c : Core) (p d s bad : Nat) : Bool :=
  decide (c.led.entries.length + (c.newBad p d s bad).length ≤ 65535)

/-- Lanes excluded: the registers, and a ledger entry for each new one (R259, Table 17.4). -/
def Core.exclude (c : Core) (p d s bad : Nat) : Core :=
  let c : Core := (c.newBad p d s bad).foldl (fun c l => c.ledgerAdd ⟨6, strandUnit p d s, l, 0⟩) c
  (c.wr (R.PRT_LANEBAD_BADLO p d s) (bad % 2 ^ 64)).wr (R.PRT_STRAND_BADHI p d s) (bad / 2 ^ 64)

/-- The spare lanes in use at a width (2 FULL, 3 HALF). -/
def spareLanes (bad v : Nat) : List Nat := (goodLanes bad (laneCount (decide (v = 3)))).filter (fun l => decide (64 ≤ l))

/-- The chiplet's own descriptor (Table 11.6): CLASS 1h, QUALID 0, silicon revision A1 coded 1h, the SLOT strap, and the
credits it advertises on every inbound strand (R251, R256). -/
def Core.ownDesc (c : Core) : Nat :=
  packBits [(4, 1), (16, 0), (8, 1), (4, c.rd R.STG_STRAP_SLOT), (8, 9), (8, 18), (8, 48), (8, 48)]

/-! ## Port states (Table 11.8) -/

/-- Whether a hub port lies in a parked half. -/
def Core.portParked (c : Core) (p : Nat) : Bool := decide (p < 4) && c.halfParked (decide (p % 2 = 1))

/-- The state of a port with a usable strand each way. -/
def Core.readyState (c : Core) (p : Nat) : Nat := if c.ports.hold then 3 else if c.portParked p then 4 else 2

/-- Some strand of a direction is in one of some states. -/
def Core.anyStrand (c : Core) (p d : Nat) (vs : List Nat) : Bool :=
  (List.range (nStrands p)).any (fun s => vs.contains (c.sst p d s))

/-- A usable strand each way. -/
def Core.bothWays (c : Core) (p : Nat) : Bool := c.anyStrand p 0 [2, 3] && c.anyStrand p 1 [2, 3]

/-- The stacks of the hubs a hub port reached count as HOT (R321). -/
def Core.heatStacks (c : Core) (p : Nat) : Core :=
  let reached := fun s => bit (if c.rd (R.WGH_STACK_HUB s) = 1 then c.rd R.PRT_HUBMAP_PORTS1 else c.rd R.PRT_HUBMAP_PORTS0) p
  let ss := (List.range 24).filter (fun s => reached s && !c.wgh.hot.contains s)
  { c with wgh := { c.wgh with hot := c.wgh.hot ++ ss } }

/-- A hub port lost: its event, and the warden's authority with the warden port (R262). -/
def Core.hubLost (c : Core) (p : Nat) : Core :=
  let c := c.heatStacks p
  if c.rd (R.PRT_STATE_WARDEN p) = 1 then
    ({ c with ports := { c.ports with wardenLost := true } }).deviceFatal 0x82 p
  else c.jobFatal 0x07 p

/-- Strands not retired or OFF return to row 2 of Table 11.5. -/
def Core.backToTraining (c : Core) (p : Nat) : Core :=
  (List.range (nStrands p)).foldl (fun (c : Core) s =>
    let f := fun (c : Core) d => if c.sst p d s = 2 ∨ c.sst p d s = 3 ∨ c.sst p d s = 5 then c.setSst p d s 1 else c
    let c := c.putLink p s { c.link p s with since := c.now, want := [1, 1] }
    f (f c 0) 1) c

/-- A port set FAILED; a hub port not already counted lost is lost by it. -/
def Core.failPort (c : Core) (p cause : Nat) : Core :=
  let c := (c.wr (R.PRT_STATE_STATE p) 5).wr (R.PRT_STATE_CAUSE p) cause
  if p < 4 ∧ c.ports.absent.contains p = false then
    ({ c with ports := { c.ports with absent := c.ports.absent ++ [p] } }).hubLost p
  else c

/-- A port become usable. -/
def Core.openPort (c : Core) (p : Nat) : Core :=
  let c := (c.wr (R.PRT_STATE_STATE p) (c.readyState p)).wr (R.PRT_STATE_CAUSE p) 0
  { c with ports := { c.ports with absent := c.ports.absent.filter (fun q => decide (q ≠ p)) } }.pump p

/-- A port in TRAINING whose links have all settled (Table 11.5); a ring port needs one inserted position (R267). A FAILED
port opens once a link trained anew leaves it a usable strand each way (R262; log entry 80). -/
def Core.settlePort (c : Core) (p : Nat) : Core :=
  if c.rd (R.PRT_STATE_STATE p) = 5 ∧ c.bothWays p = true then c.openPort p
  else if c.rd (R.PRT_STATE_STATE p) ≠ 1 then c
  else if c.anyStrand p 0 [1, 5] || c.anyStrand p 1 [1, 5] then
    (if 4 ≤ p ∧ c.bothWays p = true then c.openPort p else c)
  else if c.bothWays p then c.openPort p
  else c.failPort p (if c.rd (R.PRT_STATE_CAUSE p) = 2 ∨ c.rd (R.PRT_STATE_CAUSE p) = 3 then c.rd (R.PRT_STATE_CAUSE p)
    else if c.anyStrand p 0 [4] || c.anyStrand p 1 [4] then 4 else 1)

/-- No by-pass position is inserted: a ring port then presents FAILED (R267). -/
def Core.ringOut (c : Core) (p : Nat) : Bool := decide (4 ≤ p) && decide (c.rd (R.PRT_STATE_BYPOS p) = 15)

/-- The partner counted ABSENT (R261, R262): the strands return to training, and the port presents TRAINING, or FAILED
where no position is left inserted. -/
def Core.partnerAbsent (c : Core) (p : Nat) : Core :=
  let new := !c.ports.absent.contains p
  let c := if c.ringOut p then c.failPort p 4 else (c.backToTraining p).wr (R.PRT_STATE_STATE p) 1
  let c := if new then { c with ports := { c.ports with absent := c.ports.absent ++ [p] } } else c
  let c := if new && decide (p < 4) then c.hubLost p else c
  c.settlePort p

/-- What the strands left make of a trained port: FAILED when a direction has none that is not RETIRED or OFF, its
partner ABSENT when every strand is LOST (R259, R261). -/
def Core.checkPort (c : Core) (p : Nat) : Core :=
  let st := c.rd (R.PRT_STATE_STATE p)
  if st = 2 ∨ st = 3 ∨ st = 4 then
    if !(c.anyStrand p 0 [1, 2, 3, 5] && c.anyStrand p 1 [1, 2, 3, 5]) then c.failPort p 4
    else if !(c.anyStrand p 0 [1, 2, 3] || c.anyStrand p 1 [1, 2, 3]) then c.partnerAbsent p
    else c
  else c.settlePort p

/-- A port one of whose strands has been RETIRED: FAILED when that leaves no usable strand in a direction (R259). -/
def Core.checkRetired (c : Core) (p : Nat) : Core :=
  let st := c.rd (R.PRT_STATE_STATE p)
  if (st = 2 ∨ st = 3 ∨ st = 4) ∧ c.bothWays p = false then c.failPort p 4 else c.checkPort p

/-! ## Retirement (R252, R259) -/

/-- The DEDUP messages of an inbound strand: the LSEQs it accepted, in pieces of 30; the last piece is shorter (log
entry 24). -/
def Core.sendDedup (c : Core) (p s : Nat) : Core :=
  let l := (c.link p s).accepted
  (List.range (l.length / 30 + 1)).foldl (fun (c : Core) i =>
    c.sendLctl { port := p, ltype := 4, link := s, dir := 1, width := 0, entries := (l.drop (30 * i)).take 30 }) c

/-- A strand RETIRED: recorded, noticed, and a snapshot made (R259, R382). -/
def Core.retireStrand (c : Core) (p d s : Nat) : Core :=
  if c.sst p d s = 4 then c
  else
    let c := c.setSst p d s 4
    ((c.ledgerAdd ⟨7, strandUnit p d s, 2, 0⟩).wear (strandUnit p d s)).snapshot

/-- An inbound strand retired by its receiver: DEDUP and RETIRE go first. -/
def Core.retireInbound (c : Core) (p s : Nat) : Core :=
  let c := c.sendDedup p s
  (c.sendLctl { port := p, ltype := 3, link := s, dir := 1, width := 0 }).retireStrand p 1 s

/-! ## Training (R255, R257) -/

/-- What the descriptor test answers: the CAUSE, 0 where it passes (R257). -/
def descCause (p desc : Nat) : Nat :=
  let cls := bits desc 0 4
  if !(if p < 4 then decide (cls = 2) || decide (cls = 3) else decide (cls = 1)) then 2
  else if bits desc 32 8 < 9 ∨ bits desc 40 8 < 18 ∨ bits desc 48 8 < 9 ∨ bits desc 56 8 < 9 then 3 else 0

/-- The lanes excluded after a lane test. -/
def Core.badAfter (c : Core) (p d s : Nat) (o : DirObs) : Nat := c.excluded p d s ||| ((2 ^ 72 - 1) ^^^ (o.good % 2 ^ 72))

/-- The state a direction trains to: by its good lanes, the width asked for, and its confirmation (R255). -/
def Core.trainState (c : Core) (p d s : Nat) (o : DirObs) : Nat :=
  let bad := c.badAfter p d s o
  let n := 72 - popCount bad 72
  if n < 32 ∨ 4 ≤ o.attempts ∨ o.rate < (if p < 4 then 3400 else 280) then 4
  else if n < 64 ∨ (c.link p s).want.getD d 1 = 2 ∨ (c.laneRoom p d s bad = false ∧ spareLanes bad 2 ≠ []) then 3 else 2

/-- A direction's trained width and spare lanes kept, and a change of either recorded and noticed (R259). A return to FULL
is recorded with a WIDTH of 0, which Table 17.4 does not name (DESIGN CHOICE, log entry 78). -/
def Core.noteWidth (c : Core) (p d s v : Nat) (lanes : List Nat) : Core :=
  let l := c.link p s
  let was := l.was.getD d (0, [])
  let unit := strandUnit p d s
  let c := c.putLink p s { l with was := l.was.set d (v, lanes) }
  let c := if lanes.all was.2.contains then c else c.spareUsed unit
  if v = was.1 ∨ (v = 2 ∧ was.1 = 0) then c else (c.ledgerAdd ⟨7, unit, b2n (decide (v = 3)), 0⟩).wear unit

/-- One direction trained. A direction RETIRED by its receiver sends DEDUP and RETIRE; what an outbound one holds waits for
the partner's DEDUP (R252). -/
def Core.trainDir (c : Core) (p d s : Nat) (o : DirObs) : Core :=
  if c.sst p d s = 4 then c
  else
    let v := c.trainState p d s o
    let bad := c.badAfter p d s o
    let c := c.exclude p d s bad
    let c := (c.bump (R.PRT_STRAND_ATTEMPTS p d s) (max 1 (min o.attempts 3))).wr (R.PRT_STRAND_RATE p d s) (min o.rate 8191)
    if v = 4 then (if d = 1 then c.retireInbound p s else c.retireStrand p 0 s)
    else ((c.wr (R.PRT_STRAND_SPARES p d s) (spareLanes bad v).length).setSst p d s v).noteWidth p d s v (spareLanes bad v)

/-- A link trained: the results message sent, the partner's descriptor recorded and tested, both directions settled, credits
loaded, what it holds due again. The sequence numbers and the LSEQs accepted go on from before (DESIGN CHOICE, log entry
79: R252 does not say that training restarts them). -/
def Core.trainLink (c : Core) (p s : Nat) (o : TrainObs) : Core :=
  let c := c.putLink p s { c.link p s with told := resultsMessage o.inDir.good c.ownDesc }
  let c := c.wr (R.PRT_PARTNER_DESC p) o.desc
  let cause := descCause p o.desc
  if cause ≠ 0 then
    ((c.wr (R.PRT_STATE_CAUSE p) cause).retireStrand p 0 s).retireInbound p s
  else
    let c := (c.trainDir p 0 s o.outDir).trainDir p 1 s o.inDir
    let cr := (List.range 4).map (fun i => bits o.desc (32 + 8 * i) 8)
    let c := c.putLink p s { c.link p s with
      credits := cr, lastIn := c.now, lastOut := c.now, want := [1, 1] }
    let f := fun (h : Held) => if h.port = p ∧ h.strand = some s then { h with again := true } else h
    Core.pump { c with ports := { c.ports with held := c.ports.held.map f } } p

/-- Whether a link may train: a ring port's at an open by-pass position alone (R267). -/
def Core.linkOpen (c : Core) (p s : Nat) : Bool := decide (p < 4) || !bit (c.rd (R.PRT_STATE_BYPOS p)) s

/-- LINK_TRAINING. -/
def execLinkTraining (p l : Nat) (obs : TrainObs) (st : State) : Host.Outcome State Fault Refusal :=
  onlyIf (isStrand p l) (st.onCore (fun c =>
    if (c.sst p 0 l = 1 ∨ c.sst p 1 l = 1) ∧ c.linkOpen p l = true then 
      let retired := fun (c : Core) => decide (c.sst p 0 l = 4) || decide (c.sst p 1 l = 4)
      let c' := c.trainLink p l obs
      if retired c' = retired c then c'.checkPort p else c'.checkRetired p
    else c))

/-- Both directions of a link that are not RETIRED put into a state. -/
def Core.setLink (c : Core) (p s v : Nat) : Core :=
  let f := fun (c : Core) d => if c.sst p d s = 4 then c else c.setSst p d s v
  f (f (c.putLink p s { c.link p s with since := c.now }) 0) 1

/-- PARTNER_TIMEOUT: no partner within 1,000,000 ticks; the link is OFF (R255). -/
def execPartnerTimeout (p l : Nat) (st : State) : Host.Outcome State Fault Refusal :=
  onlyIf (isStrand p l) (st.onCore (fun c =>
    if (c.sst p 0 l ∈ [1, 5] ∨ c.sst p 1 l ∈ [1, 5]) ∧ 1000000 ≤ c.now - (c.link p l).since then
      (c.setLink p l 0).checkPort p
    else c))

/-- PARTNER_PRESENT: an OFF or LOST link trains from row 3 (R255). -/
def execPartnerPresent (p l : Nat) (st : State) : Host.Outcome State Fault Refusal :=
  onlyIf (isStrand p l) (st.onCore (fun c =>
    if (c.sst p 0 l ∈ [0, 5] ∨ c.sst p 1 l ∈ [0, 5]) ∧ c.linkOpen p l = true ∧ c.rd (R.PRT_STATE_STATE p) ≠ 0 then
      let c := c.setLink p l 1
      if c.rd (R.PRT_STATE_STATE p) = 5 then c.wr (R.PRT_STATE_STATE p) 1 else c
    else c))

/-! ## Degradation (R248, R258, Table 11.7) -/

/-- A link sent into a retrain for a direction at a width (1 full, 2 half); rows 4 to 8 run as LINK_TRAINING. Meanwhile its
packets go on other usable strands, where there are any (R258; log entry 75). -/
def Core.retrain (c : Core) (p s d w : Nat) : Core :=
  let l := c.link p s
  let c := (c.putLink p s { l with want := l.want.set d w }).setLink p s 1
  if c.usables p 0 = [] then c else c.reissueFrom p s

/-- The receiving end asks for a retrain of its inbound direction. -/
def Core.askRetrain (c : Core) (p s w : Nat) : Core :=
  (c.sendLctl { port := p, ltype := 2, link := s, dir := 1, width := w }).retrain p s 1 w

/-- A lane of an inbound strand has failed, by code violations or by a stall. -/
def Core.laneFails (c : Core) (p s lane : Nat) (stall : Bool) : Core :=
  let bad := setBit (c.excluded p 1 s) lane true
  if 72 ≤ lane ∨ bit (c.excluded p 1 s) lane = true then c
  else if c.sst p 1 s = 2 then
    if 64 ≤ 72 - popCount bad 72 ∧ c.laneRoom p 1 s bad = true then (c.exclude p 1 s bad).askRetrain p s 1
    else if stall then (c.exclude p 1 s bad).askRetrain p s 2
    else c
  else if c.sst p 1 s = 3 then (c.exclude p 1 s bad).askRetrain p s 2
  else c

/-- LANE_FAIL: CVLIM code violations within one window. -/
def execLaneFail (p s lane : Nat) (st : State) : Host.Outcome State Fault Refusal :=
  onlyIf (isStrand p s) (st.onCore (fun c =>
    if c.rd R.PRT_THRESH_CVLIM ≤ SMap.get 0 (c.link p s).lanes lane then c.laneFails p s lane false else c))

/-- LANE_STALL: nothing for LSTALL ticks while another active lane holds a symbol waiting. -/
def execLaneStall (p s lane : Nat) (st : State) : Host.Outcome State Fault Refusal :=
  onlyIf (isStrand p s) (st.onCore (fun c => c.laneFails p s lane true))

/-- A direction of a link has the hard events that degrade it at its width: HDEG at FULL, HRET at HALF (Table 11.7). -/
def Core.hardLimit (c : Core) (p d s : Nat) : Bool :=
  let n := c.rd (R.PRT_CNT_HARD p d s)
  (decide (c.sst p d s = 2) && decide (c.rd R.PRT_THRESH_HDEG ≤ n)) || (decide (c.sst p d s = 3) && decide (c.rd R.PRT_THRESH_HRET ≤ n))

/-- HARD_EVENT_LIMIT: HDEG hard events in a window send a FULL strand to HALF; HRET send a HALF one to a retrain that
retires it unless it finds 32 good lanes. -/
def execHardEventLimit (p s : Nat) (st : State) : Host.Outcome State Fault Refusal :=
  onlyIf (isStrand p s) (st.onCore (fun c => if c.hardLimit p 1 s then c.askRetrain p s 2 else c))

/-- The wires whose count is more than 16 behind the other's, as a mask (R248). -/
def wiresBehind (k0 k1 : Nat) : Nat := b2n (decide (k0 + 16 < k1)) + 2 * b2n (decide (k1 + 16 < k0))

/-- The transitions counted on ACK0 and ACK1: the larger acknowledges that many of the symbols sent; a wire more than 16
behind is marked failed, and with both, the strand is retired (R248). What it holds waits for the receiver's DEDUP. -/
def Core.ackWires (c : Core) (p s k0 k1 : Nat) : Core :=
  let l := c.link p s
  let c := c.putLink p s { l with acked := max l.acked (min l.sent (max k0 k1)) }
  let c := c.wr (R.PRT_STRAND_ACKF p 0 s) (c.rd (R.PRT_STRAND_ACKF p 0 s) ||| wiresBehind k0 k1)
  if c.rd (R.PRT_STRAND_ACKF p 0 s) = 3 ∧ c.sst p 0 s ≠ 4 then
    ((c.retireStrand p 0 s).sendLctl { port := p, ltype := 3, link := s, dir := 0, width := 0 }).checkRetired p
  else c
/-- ACK_WIRE_FAIL. -/
def execAckWireFail (p s : Nat) (seen : AckSeen) (st : State) : Host.Outcome State Fault Refusal :=
  onlyIf (isStrand p s && decide (wiresBehind seen.k0 seen.k1 ≠ 0)) (st.onCore (fun c => c.ackWires p s seen.k0 seen.k1))

/-- STRAND_LOST: no acknowledge transition while symbols are outstanding (`ackSilent`), or no frame, for STRTMO ticks. -/
def execStrandLost (p s : Nat) (ackSilent : Bool) (st : State) : Host.Outcome State Fault Refusal :=
  onlyIf (isStrand p s) (st.onCore (fun c =>
    if (c.usable p 0 s = true ∨ c.usable p 1 s = true)
        ∧ (ackSilent = true ∨ c.rd R.PRT_TIMERS_STRTMO ≤ c.now - (c.link p s).lastIn) then
      (c.setLink p s 5).checkPort p
    else c))

end Sys2Proof.Machine
end

