-- ==== Sys2Proof/Machine/Spares.lean ====
section
/-! DEFINITION. Spares and retirement (chapter 17): the floor plan, tiles and banks out of service, slices, rows and
columns, scrubbing, wear, and the ends of ramps and of slice switches. -/

namespace Sys2Proof.Machine

/-! ## Floor plan (R16, R17, R20 to R24) -/

/-- BAD and OOS of a row. -/
def Core.bad (c : Core) (r : Nat) : Nat := c.rd (R.LDG_FP_ROW_BAD r)
def Core.oos (c : Core) (r : Nat) : Nat := c.rd (R.LDG_FP_ROW_OOS r)
/-- A row disabled by hallmark. -/
def Core.disabled (c : Core) (r : Nat) : Bool := decide (c.rd (R.LDG_FP_ROW_DISABLED r) = 1)
/-- The physical column of a logical tile. -/
def Core.pcol (c : Core) (t : Nat) : Nat := physCol (c.bad (t / 20)) (t % 20)

/-- ABSENT of a row: unmapped columns and those mapped onto a column out of service. -/
def rowAbsent (bad oos : Nat) : Nat :=
  (List.range 20).foldl (fun m l => if physCol bad l = 21 ∨ bit oos (physCol bad l) = true then setBit m l true else m) 0

/-- A row's register written whole (Table 1.5). -/
def Core.setRow (c : Core) (r bad oos : Nat) (dis : Bool) : Core :=
  let c := (c.wr (R.LDG_FP_ROW_BAD r) bad).wr (R.LDG_FP_ROW_OOS r) oos
  (c.wr (R.LDG_FP_ROW_ABSENT r) (if dis then 0xFFFFF else rowAbsent bad oos)).wr (R.LDG_FP_ROW_DISABLED r) (b2n dis)

/-- Physical slices the ledger records as failed. -/
def Core.failedSlices (c : Core) : List Nat := (c.led.entries.filter (fun e => decide (e.kind = 5))).map (fun e => e.unit % 128)
/-- The seam-corner slices neither in use nor failed. -/
def Core.freeSpares (c : Core) : List Nat :=
  [96, 97, 98, 99].filter (fun p => !c.failedSlices.contains p
    && (List.range 96).all (fun s => decide (c.rd (R.LDG_FP_SLICEMAP_ABSENT (s / 8) (s % 8)) = 1) || decide (c.physSlice s ≠ p)))

/-- A physical slice recorded as failed. -/
def Core.slipSlice (c : Core) (p : Nat) : Core :=
  if c.failedSlices.contains p then c else c.ledgerAdd ⟨5, sliceUnit p, 0xFF, 0⟩

/-- The physical tiles in which a pass finds a fault. -/
def faultyTiles (o : TestObs) : List (Nat × Nat) := o.tiles ++ o.banks.map (fun x => (x.1, x.2.1))

/-- LO_OK and HI_OK shown: on every tile whose banks pass the pass that covers them (R356). -/
def Core.showTested (c : Core) : Core :=
  let ok := fun (p : Option (List (Nat × Nat))) t => b2n (p.any (fun l => !l.contains (t / 20, c.pcol t)))
  (List.range 960).foldl (fun (c' : Core) t =>
    (c'.twr t R.MEM_STATUS_LO_OK (ok c.led.passLow t)).twr t R.MEM_STATUS_HI_OK (ok c.led.passHigh t)) c

/-- The counts of LDG_FP_SUMMARY (Table 1.4). -/
def Core.summarise (c : Core) : Core :=
  let rows := (List.range 48).filter (fun r => !c.disabled r)
  let absent := (rows.map (fun r => popCount (c.rd (R.LDG_FP_ROW_ABSENT r)) 20)).sum
  let subset := rows.all (fun r => decide (c.rd (R.LDG_FP_ROW_ABSENT r) % 2 ^ 19 = 0))
  let mapped := decide (c.rd R.STG_STATUS_PASSU = 1)
  let slices := ((List.range 96).filter (fun s => mapped && decide (c.rd (R.LDG_FP_SLICEMAP_ABSENT (s / 8) (s % 8)) = 0))).length
  let c := (c.wr R.LDG_FP_SUMMARY_PRESENT (20 * rows.length - absent)).wr R.LDG_FP_SUMMARY_HOLES (min 127 absent)
  let c := (c.wr R.LDG_FP_SUMMARY_SUBSET_OK (b2n subset)).wr R.LDG_FP_SUMMARY_SLICES slices
  c.wr R.LDG_FP_SUMMARY_SPARES_FREE (if mapped then c.freeSpares.length else 0)

/-- A change of the floor plan brought into force (R24). -/
def Core.fpChanged (c : Core) : Core := c.summarise.fpChange

/-- The ledger UNIT of a logical tile or slice, at the place it stands. -/
def Core.ledUnit (c : Core) (u : Nat) : Nat :=
  if u < 960 then tileUnit (u / 20) (c.pcol u) else sliceUnit (c.physSlice (u - 960))

/-! ## Tiles out of service (R17, R375) -/

/-- A target tile of a broadcast that goes absent leaves it (R345, R347). -/
def Core.leaveCry (c : Core) (t : Nat) : Core :=
  if c.cry.targets.contains t ∧ c.cry.settled.all (fun x => decide (x.1 ≠ t)) = true then
    { c with cry := { c.cry with settled := c.cry.settled ++ [(t, .left)] } }
  else c

/-- A tile taken out of service, but for its GEN change. -/
def Core.removeTile (c : Core) (t cause : Nat) : Core :=
  let r := t / 20
  let p := c.pcol t
  let c := ((c.abortQueues t (List.range 8) none).1).closeWinsOf t
  let part := decide (c.rd R.CH_BELLSTEP_STATE = 1) && decide (c.trd t R.SEQ_BELL_PART = 1)
  let c := c.setRow r (c.bad r) (setBit (c.oos r) p true) (c.disabled r)
  let c := (c.leaveCry t).ledgerAdd ⟨1, tileUnit r p, cause, 0⟩
  if part then (((c.join stLOST).dropPart t).jobFatal 0x08 (faultUnit t)).checkStep else c

/-- A present tile taken out of service (R375). -/
def Core.takeOut (c : Core) (t cause : Nat) : Core := if c.present t then (c.removeTile t cause).fpChanged else c

/-! ## Banks (R374) -/

/-- A valid region of one of some modes covers a segment of a bank. -/
def Core.bankUnder (c : Core) (t b : Nat) (modes : List Nat) : Bool :=
  (List.range 16).any (fun n => decide (c.trd t (R.MEM_RGN_VALID n) = 1) && modes.contains (c.trd t (R.MEM_RGN_MODE n))
    && decide (c.trd t (R.MEM_RGN_START n) < 4 * b + 4)
    && decide (4 * b < c.trd t (R.MEM_RGN_START n) + c.trd t (R.MEM_RGN_COUNT n)))

/-- UNIT of a tile or slice in the record of a spare or of wear: a tile's logical place, or else the ledger's UNIT of the
physical slice (Table 17.8). -/
def Core.spareUnit (c : Core) (u : Nat) : Nat := if u < 960 then faultUnit u else c.ledUnit u

/-- One line of a rescued bank written to the rescue slot. -/
def Core.rescueLine (c : Core) (slot i : Nat) (bs : List Byte) : Core :=
  (c.sendNew { typ := 1, ackreq := true, len := 64, dst := c.rd R.LDG_RESCUE_ADDR + 65536 * slot + 64 * i, src := c.pageAddr 0, payload := bs }
    unitSeam).2

/-- The rescue of a bank under a RETAIN region: the lines that could not be. -/
def Mach.rescue (m : Mach) (t b : Nat) : Mach × Nat :=
  let slot := m.core.rd R.LDG_STATUS_RUSED
  if m.core.bankUnder t b [1] = false ∨ m.core.rd R.LDG_RESCUE_ADDR = 0 ∨ 16 ≤ slot then (m, 0)
  else
    let r := (List.range 1024).foldl (fun (acc : Mach × Nat) i =>
      let line := 1024 * b + i
      match acc.1.readLine t (lineId t line) (tileBase t + 64 * line) line (acc.1.core.weightLine t line) with
      | (m, some bs) => (m.onCore (fun c => c.rescueLine slot i bs), acc.2)
      | (m, none) => (m, acc.2 + 1)) (m, 0)
    (r.1.onCore (fun c => c.wr R.LDG_STATUS_RUSED (slot + 1)), r.2)

/-- Retired banks of a tile. -/
def Core.retiredBanks (c : Core) (t : Nat) : Nat := popCount (c.rd (R.LDG_TBANK_RETIRED (t / 20) (c.pcol t))) 16

/-- A bank retired: steps 3 and 4 of R374, with the lines its rescue could not write, and the tile with its third one. -/
def Core.retireBank (c : Core) (t b lost : Nat) : Core :=
  if c.bankRetired t b then c
  else
    let f := R.LDG_TBANK_RETIRED (t / 20) (c.pcol t)
    let under := c.bankUnder t b [0, 1]
    let c := ((c.wr f (setBit (c.rd f) b true)).ledgerAdd ⟨2, c.ledUnit t, b, 0⟩).fpChanged
    let c := if under then c.jobFatal 0x09 (faultUnit t) (65536 * lost) else c
    if 3 ≤ c.retiredBanks t then c.takeOut t 1 else c

/-- A bank rescued and retired at once, where nothing runs at it (R367). -/
def Mach.rescueRetire (m : Mach) (t b : Nat) : Mach :=
  if m.core.bankRetired t b then m
  else
    let r := m.rescue t b
    r.1.onCore (fun c => c.retireBank t b r.2)

/-- No accepted part and no running command stands at a bank. -/
def Core.bankQuiet (c : Core) (t b : Nat) : Bool :=
  (c.acceptedAt t 16 b).isEmpty && c.queues.cmds.all (fun x => !(decide (x.unit = t) && x.running
    && (x.wait.any (fun w => decide (w.slot / 256 = b)) || x.out.any (fun o => decide (o.1 / 65536 = b))
      || x.claims.any (fun s => decide (s / 256 = b)))))

/-- A bank's retirement begun with its rescue (step 1), or carried on: it ends once the bank is quiet, or after DARKTMO. -/
def Mach.retireStep (m : Mach) (t b : Nat) : Mach :=
  match m.core.led.retiring.find? (fun x => decide (x.tile = t) && decide (x.bank = b)) with
  | none =>
    let r := m.rescue t b
    r.1.onCore (fun c => { c with led := { c.led with retiring := c.led.retiring ++ [⟨t, b, c.now, r.2⟩] } })
  | some x =>
    if m.core.bankQuiet t b = true ∨ m.core.trd t R.MEM_TIMERS_DARKTMO ≤ m.core.now - x.since then
      m.onCore (fun c =>
        ({ c with led := { c.led with retiring := c.led.retiring.filter (fun y => decide (y ≠ x)) } } : Core).retireBank t b x.lost)
    else m

/-! ## Slices (R22, R176, R178, R341, R376) -/

/-- The spare a logical slice takes from those free (R22). -/
def chooseSpare (s : Nat) (free : List Nat) : Option Nat :=
  let edge := s % 2
  let south := if s / 2 < 24 then 0 else 1
  let a := 96 + edge + 2 * south
  let b := 96 + edge + 2 * (1 - south)
  if free.contains a then some a else if free.contains b then some b else free.head?

/-- A logical slice put on a physical one, or made absent. -/
def Core.putSlice (c : Core) (s : Nat) : Option Nat → Core
  | some p =>
    let c := (c.wr (R.LDG_FP_SLICEMAP_PHYS (s / 8) (s % 8)) p).wr (R.LDG_FP_SLICEMAP_ABSENT (s / 8) (s % 8)) 0
    if c.rd (R.LAR_CTL_STATE s) = 2 then c.wr (R.LAR_CTL_STATE s) 0 else c
  | none => ((c.wr (R.LDG_FP_SLICEMAP_PHYS (s / 8) (s % 8)) 0x7F).wr (R.LDG_FP_SLICEMAP_ABSENT (s / 8) (s % 8)) 1).wr
      (R.LAR_CTL_STATE s) 2

/-- A spread of the 128 indices over `n` slices: each serves floor(128/n) or ceil(128/n) of them (R183). -/
def spreadOk (ss l : List Nat) : Bool :=
  decide (l.length = 128) && l.all ss.contains
    && ss.all (fun s => decide (128 / ss.length ≤ l.count s) && decide (l.count s ≤ ceilDiv 128 ss.length))

/-- LAR_ILV filled over slices; which index each takes is free within R183 (log entry 30). With no cache-mode slice left
BYPASS is set, since no slice caches (Table 8.10). -/
def Core.spreadIlv (c : Core) (ss : List Nat) : Core :=
  if ss = [] then c.wr R.LAR_ILVCTL_BYPASS 1
  else
    let l := Config.ilvSpread ss
    let l := if spreadOk ss l then l else (List.range 128).map (fun h => ss.getD (h % ss.length) 0)
    l.zipIdx.foldl (fun (c : Core) x => c.wr (R.LAR_ILV_SLICE (x.2 / 8) (x.2 % 8)) x.1) c

/-- LAR_ILV filled at the end of a ledger build, and BYPASS cleared (R183) but in reduced service (R362). -/
def Core.fillIlvOver (c : Core) (ss : List Nat) : Core :=
  if ss = [] then c.spreadIlv ss else (c.spreadIlv ss).wr R.LAR_ILVCTL_BYPASS (b2n c.reduced)

/-- A half is being parked by a mailbox request: what has been taken out of the interleave stays out (Table 14.5). -/
def Core.parkingHalf (c : Core) (south : Bool) : Bool :=
  c.mb.reqs.any (fun r => decide (r.cmd = 0x53) && r.started && decide (leAt r.body 0 2 = b2n south))

/-- Whether a slice lies in a half that is being parked. -/
def Core.sliceParking (c : Core) (s : Nat) : Bool := c.parkingHalf (decide (24 ≤ physSliceRouter (c.physSlice s) / 23))

/-- The cache-mode slices present. -/
def Core.cacheSlices (c : Core) : List Nat :=
  (List.range 96).filter (fun s => c.unitThere (960 + s) && decide (c.rd (R.LAR_CTL_MODE s) = 0) && !c.sliceParking s)
/-- LAR_ILV filled over the cache-mode slices present. -/
def Core.fillIlv (c : Core) : Core := c.fillIlvOver c.cacheSlices

/-- Every cache line written back where it is dirty, and dropped: what a write of LAR_ILV needs (R178). -/
def Mach.flushCaches (m : Mach) : Mach :=
  (m.core.lar.lines.foldl (fun (m : Mach) l =>
    (if l.dirty then m.writeBack l none else m).onCore (fun c => c.dropLine l)) m).onCore (fun c =>
      { c with lar := { c.lar with merges := [] } })

/-- The interleave written anew. -/
def Mach.refill (m : Mach) : Mach := m.flushCaches.onCore Core.fillIlv

/-- The interleave written anew outside a ledger build, which leaves BYPASS as it is (R178); where no slice cached before
the first that does clears it. -/
def Mach.respread (m : Mach) (were : List Nat) : Mach :=
  m.flushCaches.onCore (fun c => if were = [] then c.fillIlv else c.spreadIlv c.cacheSlices)

/-- A slice's scratchpad zeroed with valid check bytes. -/
def Mach.blankSlice (m : Mach) (s : Nat) : Mach :=
  let lo := sliceLineId s 0
  let inS := fun k => decide (lo ≤ k) && decide (k < lo + 2 ^ 16)
  let m := m.zero (sliceBase s) (sliceBase (s + 1))
  { m with errs := SMap.keep (fun k => !inS k) m.errs, corr := m.corr.filter (fun k => !inS k) }

/-- The crier slice reserved: logical slice 95, or the highest present, in scratchpad mode (R341). -/
def Core.reserveCrier (c : Core) : Core :=
  match ((List.range 96).reverse).find? c.slicePresent with
  | some s => (c.wr R.CH_CRCTL_SLICE s).wr (R.LAR_CTL_MODE s) 1
  | none => c

/-- A scratchpad copied to a spare with corrected reads (R376): a corrected line loses its errors, an uncorrectable one is
logged and stays uncorrectable (R390; log entry 31). -/
def Mach.copyScratch (m : Mach) (s : Nat) : Mach :=
  let w := decide (m.core.rd (R.LAR_CTL_WCLASS s) = 1)
  let lo := sliceLineId s 0
  (m.errs.filter (fun e => decide (lo ≤ e.1) && decide (e.1 < lo + 2 ^ 16))).foldl (fun (m : Mach) e =>
    match m.sliceLine s (e.1 - lo) w with
    | (m, some bs) => (m.write (sliceBase s + 64 * (e.1 - lo)) bs).clearErrs e.1
    | (m, none) => m) m

/-- A slice failed (R376); with no room for its entry no spare counts as free (R380). -/
def Mach.failSlice (m : Mach) (s : Nat) : Mach :=
  if m.core.slicePresent s = false then m
  else
    let scratch := decide (m.core.rd (R.LAR_CTL_MODE s) = 1)
    let crier := decide (m.core.rd R.CH_CRCTL_SLICE = s) && scratch
    let were := m.core.cacheSlices
    let m := m.flushCaches
    let old := m.core.physSlice s
    let spare := if m.core.ledgerFull ⟨5, sliceUnit old, 0, 0⟩ then none else chooseSpare s m.core.freeSpares
    let m := if spare.isSome && scratch then m.copyScratch s else m
    let m := m.onCore (fun c =>
      ((c.putSlice s spare).ledgerAdd ⟨5, sliceUnit old, (spare.getD 0xFF), 0⟩))
    let m := m.onCore (fun c =>
      if spare.isSome then c.spareUsed (sliceUnit old)
      else if scratch then (c.closeWinsOf (960 + s)).jobFatal 0x0A (sliceUnit old) else c.closeWinsOf (960 + s))
    let m := if spare.isNone then m.blankSlice s else m
    let m := m.onCore (fun c => if crier then c.reserveCrier else c)
    let m := if crier then m.blankSlice (m.core.rd R.CH_CRCTL_SLICE) else m
    (m.respread were).onCore Core.fpChanged

/-- SLICE_SWITCH_DONE (R176): every write-back of the slice is done with; it starts zeroed, with every line invalid. A
slice that now caches joins an interleave written anew (R178). -/
def Mach.sliceSwitchDone (m : Mach) (s : Nat) : Mach :=
  if m.core.rd (R.LAR_CTL_STATE s) = 1 ∧ m.core.lar.fetches.all (fun f => !((decide (f.slice = s) || f.evict) && f.write && !f.done)) = true then
    let m := m.blankSlice s
    let m := m.onCore (fun c =>
      ({ c with lar := { c.lar with lines := c.lar.lines.filter (fun l => decide (l.slice ≠ s)) } } : Core).wr (R.LAR_CTL_STATE s) 0)
    if m.core.rd (R.LAR_CTL_MODE s) = 0 then m.respread (m.core.cacheSlices.filter (fun x => decide (x ≠ s))) else m
  else m
/-- SLICE_SWITCH_DONE. -/
def execSliceSwitchDone (s : Nat) (st : State) : Host.Outcome State Fault Refusal :=
  onlyIf (decide (s < 96)) (st.onMach (fun m => m.sliceSwitchDone s))

/-! ## Rows and columns (R372, R373) -/

/-- The ROW_SPARE entries of an array, and the remap count of one (Table 17.4). -/
def Core.rowEntries (c : Core) (unit b : Nat) : List LEntry :=
  c.led.entries.filter (fun e => decide (e.kind = 3) && decide (e.unit = unit) && decide (e.arg % 64 = b))
def rowMoves (e : LEntry) : Nat := e.arg / 2 ^ 19 % 4
/-- The remap count of a row (R372). -/
def Core.rowCount (c : Core) (unit b r : Nat) : Nat :=
  ((c.led.entries.find? (fun e => decide (e.place = (3, unit, b + 64 * r)))).map rowMoves).getD 0
/-- The next free spare row of an array, 8 where none is: of those no entry names, the lowest have served a row that moved
on, one for each move past an entry's first (DESIGN CHOICE, log entry 64). -/
def Core.nextRow (c : Core) (unit b : Nat) : Nat :=
  let es := c.rowEntries unit b
  let unnamed := (List.range 8).filter (fun k => es.all (fun e => decide (e.arg / 2 ^ 16 % 8 ≠ k)))
  ((unnamed.drop (es.map (fun e => rowMoves e - 1)).sum).head?).getD 8
/-- Spare columns of an array in use. -/
def Core.columnsUsed (c : Core) (unit b : Nat) : Nat :=
  (c.led.entries.filter (fun e => decide (e.kind = 4) && decide (e.unit = unit) && decide (e.arg % 64 = b))).length

/-- A called row done with: what was noted of it was of the row it stood in. -/
def Core.uncall (c : Core) (x : Nat × Nat × Nat) : Core :=
  { c with led := { c.led with
      called := c.led.called.filter (fun y => decide (y ≠ x))
      stuck := c.led.stuck.filter (fun y => decide (y ≠ x))
      noted := c.led.noted.filter (fun n => decide ((n.unit, n.bank, n.row) ≠ x)) } }

/-- A row of a tile or slice read with correction and rewritten; false where it is uncorrectable. -/
def Mach.rewriteRow (m : Mach) (u line : Nat) : Mach × Bool :=
  if u < 960 then
    match m.readLine u (lineId u line) (tileBase u + 64 * line) line (m.core.weightLine u line) with
    | (m, some bs) => ((m.write (tileBase u + 64 * line) bs).clearErrs (lineId u line), true)
    | (m, none) => (m, false)
  else
    match m.sliceLine (u - 960) line (decide (m.core.rd (R.LAR_CTL_WCLASS (u - 960)) = 1)) with
    | (m, some bs) => ((m.write (sliceBase (u - 960) + 64 * line) bs).clearErrs (sliceLineId (u - 960) line), true)
    | (m, none) => (m, false)

/-- Whether a row stands uncorrectable: it waits for a whole-line write or a relighting (R373). -/
def Mach.rowStuck (m : Mach) (u line : Nat) : Bool :=
  let weight := if u < 960 then m.core.weightLine u line else decide (m.core.rd (R.LAR_CTL_WCLASS (u - 960)) = 1)
  decodeLine weight (m.lineErrs (if u < 960 then lineId u line else sliceLineId (u - 960) line)) == .uncorrectable

/-- A remap that finds its row uncorrectable: logged once, and put off (R373, R390). -/
def Mach.remapStuck (m : Mach) (x : Nat × Nat × Nat) (line : Nat) : Mach :=
  if m.core.led.stuck.contains x then m
  else (m.rewriteRow x.1 line).1.onCore (fun c => { c with led := { c.led with stuck := c.led.stuck ++ [x] } })

/-- ROW_REMAP: a called row moved to a spare; with none left, or at count 3, its bank is retired or its slice fails. -/
def Mach.rowRemap (m : Mach) (i : Nat) : Mach :=
  match m.core.led.called[i]? with
  | none => m
  | some x =>
    let u := x.1
    let line := 1024 * x.2.1 + x.2.2
    let c := m.core
    let unit := c.ledUnit u
    let n := c.rowCount unit x.2.1 x.2.2
    let k := c.nextRow unit x.2.1
    let e : LEntry := ⟨3, unit, x.2.1 + 64 * x.2.2 + 2 ^ 16 * k + 2 ^ 19 * (n + 1), 0⟩
    if (if u < 960 then !c.present u || c.bankRetired u x.2.1 else !c.slicePresent (u - 960)) then m.onCore (fun c => c.uncall x)
    else if n = 3 ∨ 8 ≤ k ∨ c.ledgerFull e = true then
      (if u < 960 then m.retireStep u x.2.1 else (m.failSlice (u - 960)).onCore (fun c => c.uncall x))
    else if m.rowStuck u line then m.remapStuck x line
    else (m.rewriteRow u line).1.onCore (fun c => ((c.uncall x).ledgerAdd e).spareUsed (c.spareUnit u))
/-- ROW_REMAP. -/
def execRowRemap (i : Nat) (s : State) : Host.Outcome State Fault Refusal := s.onMach (fun m => m.rowRemap i)

/-! ## Scrubbing and write-back (R174, R175) -/

/-- SCRUB: one line of a tile's weight-class region, RETAIN or LIT. -/
def Mach.scrub (m : Mach) (t line : Nat) : Mach :=
  match m.core.regionOf t (line / 256) with
  | none => m
  | some n =>
    let c := m.core
    if c.present t = true ∧ c.trd t (R.MEM_RGN_WCLASS n) = 1 ∧ c.trd t (R.MEM_RGN_MODE n) ≤ 1 ∧ c.bankRetired t (line / 1024) = false
        ∧ (c.trd t (R.MEM_RGN_MODE n) = 1 ∨ c.tileDark t = false) then m.visitLine t line
    else m

/-- SCRUB: one line of a weight-class scratchpad (R181). -/
def Mach.scrubSlice (m : Mach) (s line : Nat) : Mach :=
  let c := m.core
  if c.unitThere (960 + s) = true ∧ c.rd (R.LAR_CTL_MODE s) = 1 ∧ c.rd (R.LAR_CTL_STATE s) = 0 ∧ c.rd (R.LAR_CTL_WCLASS s) = 1 then
    if m.lineErrs (sliceLineId s line) = [] then m else (m.rewriteRow (960 + s) line).1
  else m
/-- SCRUB: `t` a tile, or 960 + a slice. -/
def execScrub (t line : Nat) (s : State) : Host.Outcome State Fault Refusal :=
  onlyIf (decide (t < 1056) && decide (line < if t < 960 then 16384 else 65536))
    (s.onMach (fun m => if t < 960 then m.scrub t line else m.scrubSlice (t - 960) line))

/-- CORRECTION_WRITEBACK: a corrected line rewritten; a line no longer correctable is left as it is. -/
def Mach.writeCorrected (m : Mach) (i : Nat) : Mach :=
  match m.corr[i]? with
  | none => m
  | some id =>
    let drop := fun (m : Mach) => { m with corr := m.corr.filter (fun x => decide (x ≠ id)) }
    let es := m.lineErrs id
    let base := if id < 2 ^ 24 then tileBase 0 + 64 * id else if id < 2 ^ 25 then cacheBase 0 + 64 * (id - 2 ^ 24)
      else sliceBase 0 + 64 * (id - 2 ^ 25)
    let weight := if id < 2 ^ 24 then m.core.weightLine (id / 2 ^ 14) (id % 2 ^ 14)
      else if id < 2 ^ 25 then false else decide (m.core.rd (R.LAR_CTL_WCLASS ((id - 2 ^ 25) / 2 ^ 16)) = 1)
    match decodeLine weight es with
    | .uncorrectable => drop m
    | .word l _ => (m.write base (withErrors (m.read base 64) l)).clearErrs id
/-- CORRECTION_WRITEBACK. -/
def execCorrectionWriteback (i : Nat) (s : State) : Host.Outcome State Fault Refusal := s.onMach (fun m => m.writeCorrected i)

/-! ## Wear (R378) -/

/-- The ledger's COUNTS of a unit. -/
def Core.counted (c : Core) (unit : Nat) : Nat :=
  ((c.led.entries.find? (fun e => decide (e.place = (13, unit, 0)))).map LEntry.val).getD 0

/-- A tile's or slice's correction counts added to its COUNTS entry, and then cleared (R378). -/
def Core.accountCounts (c : Core) (u : Nat) : Core :=
  let unit := c.ledUnit u
  let old := c.counted unit
  let new := if u < 960 then (c.tword u 0x1300).toNat else SMap.get 0 c.lar.counts (u - 960)
  let v := if u < 960 then addCounts old (c.trd u R.MEM_ERRCNT_CORR1) (c.trd u R.MEM_ERRCNT_CORR2) (c.trd u R.MEM_ERRCNT_UNCORR)
    else addCounts old (bits new 0 32) (bits new 32 16) (bits new 48 16)
  let e : LEntry := ⟨13, unit, 0, v⟩
  if new = 0 ∨ c.ledgerFull e = true then c
  else if u < 960 then (c.ledgerAdd e).setTword u 0x1300 0
  else
    let c := c.ledgerAdd e
    { c with lar := { c.lar with counts := SMap.set 0 c.lar.counts (u - 960) 0 } }

/-- Rows of a unit with ROWCORR corrections noted, not yet called for them. -/
def Core.wornRows (c : Core) (u : Nat) : List (Nat × Nat) :=
  let l := c.led.noted.filter (fun x => decide (x.unit = u) && !x.rowDone)
  ((l.map (fun x => (x.bank, x.row))).dedup).filter (fun r =>
    decide (c.rd R.LDG_THRESH_ROWCORR ≤ (l.filter (fun x => decide ((x.bank, x.row) = r))).length))
/-- Symbol positions of a unit corrected in COLCORR rows of an array, not yet remapped for them. -/
def Core.wornColumns (c : Core) (u : Nat) : List (Nat × Nat) :=
  let l := c.led.noted.filter (fun x => decide (x.unit = u) && !x.colDone)
  ((l.map (fun x => (x.bank, x.sym))).dedup).filter (fun k =>
    decide (c.rd R.LDG_THRESH_COLCORR ≤ (((l.filter (fun x => decide ((x.bank, x.sym) = k))).map Noted.row).dedup).length))

/-- The rows of an array in which errors stand at a symbol: their line numbers. -/
def Mach.errRows (m : Mach) (u b sym : Nat) : List Nat :=
  let lo := if u < 960 then lineId u 0 else sliceLineId (u - 960) 0
  (m.errs.filter (fun e => decide (lo + 1024 * b ≤ e.1) && decide (e.1 < lo + 1024 * (b + 1)) && decide (SMap.get 0 e.2 sym ≠ 0))).map
    (fun e => e.1 - lo)

/-- A worn symbol column (R372): replaced in every row while a spare column is left, each row being rewritten corrected;
with none left its rows are called for remapping instead (Table 17.1). -/
def Mach.remapColumn (m : Mach) (u : Nat) (k : Nat × Nat) : Mach :=
  let c := m.core
  let unit := c.ledUnit u
  let n := c.columnsUsed unit k.1
  let e : LEntry := ⟨4, unit, k.1 + 64 * k.2 + 2 ^ 13 * n, 0⟩
  if 2 ≤ n ∨ c.ledgerFull e = true then
    m.onCore (fun c => ((c.led.noted.filter (fun x => decide ((x.unit, x.bank, x.sym) = (u, k)))).map Noted.row).foldl
      (fun (c : Core) r => c.callRow u (1024 * k.1 + r)) c)
  else
    let m := (m.errRows u k.1 k.2).foldl (fun (m : Mach) line => (m.rewriteRow u line).1) m
    m.onCore (fun c => (c.ledgerAdd e).spareUsed (c.spareUnit u))

/-- Memory corrections past ROWCORR or COLCORR, and the counts added to the ledger. -/
def Mach.wearMemory (m : Mach) (u : Nat) : Mach :=
  let rows := m.core.wornRows u
  let cols := m.core.wornColumns u
  let m := m.onCore (fun c => rows.foldl (fun (c : Core) r => (c.wear (c.spareUnit u)).callRow u (1024 * r.1 + r.2)) c)
  let m := cols.foldl (fun (m : Mach) k => (m.onCore (fun c => c.wear (c.spareUnit u))).remapColumn u k) m
  let mark := fun (x : Noted) =>
    if x.unit = u then { x with
        rowDone := x.rowDone || rows.contains (x.bank, x.row)
        colDone := x.colDone || cols.contains (x.bank, x.sym) }
    else x
  m.onCore (fun c => ({ c with led := { c.led with noted := c.led.noted.map mark } } : Core).accountCounts u)

/-- Mesh-link corrections past LINKCORR within WINDOW: the link is retired by R232. -/
def Core.wearLink (c : Core) (n k p : Nat) : Core :=
  let off := (R.NET_LINK_CORR n k p).off
  let count := c.rd (R.NET_LINK_CORR n k p)
  let t0 := SMap.get 0 c.wgh.corr (2 * off + 1)
  if c.rd R.LDG_THRESH_WINDOW * 1000000 ≤ c.now - t0 then
    { c with wgh := { c.wgh with corr := SMap.set 0 (SMap.set 0 c.wgh.corr (2 * off) count) (2 * off + 1) c.now } }
  else if c.rd R.LDG_THRESH_LINKCORR ≤ count - SMap.get 0 c.wgh.corr (2 * off) ∧ c.rd (R.NET_LINK_STATE n k p) = 0 then
    match neighbour n p with
    | none => c
    | some m =>
      let c := (c.wr (R.NET_LINK_STATE n k p) 1).wr (R.NET_LINK_STATE m k (opposite p)) 1
      let c := (c.bump R.NET_STATUS_RETIRED 1).wear (meshUnit n k p)
      ((c.ledgerAdd ⟨8, meshUnit n k p, 0, 0⟩).snapshot).newTables
  else c

/-- A direction of a strand past its limit of hard events in a window: its wear is recorded once a window, and the receiving
end takes the action of Table 11.7. -/
def Core.wearStrand (c : Core) (p d s : Nat) : Core :=
  let l := c.link p s
  if c.hardLimit p d s = false then c
  else
    let c := if l.worn.contains d then c
      else (c.putLink p s { l with worn := l.worn ++ [d] }).wear (strandUnit p d s)
    if d = 1 then c.askRetrain p s 2 else c

/-- WEAR_THRESHOLD, but for memory. A domain outside its junction range is not evaluated. -/
def Core.wearOther (c : Core) (grade : Nat) : WearObs → Core
  | .memory _ => c
  | .rate d => match c.floorOf grade d with
    | some f => if c.rd (R.TMB_DOMRATE_RATE d) * 256 < f * (256 + c.rd R.LDG_THRESH_DMARGIN) then c.wear d else c
    | none => c
  | .limit d => match c.floorOf grade d with
    | some f =>
      let r := c.rd (R.TMB_DOMRATE_RATE d)
      if 880 ≤ c.rd (R.TMB_DOMRATE_VOLT d) ∧ r < f then (c.wear d).ledgerAdd ⟨12, d, r, 0⟩ else c
    | none => c
  | .link n k p => c.wearLink n k p
  | .strand p s => (c.wearStrand p 0 s).wearStrand p 1 s

/-- WEAR_THRESHOLD. -/
def Mach.wearThreshold (m : Mach) (grade : Nat) : WearObs → Mach
  | .memory u => m.wearMemory u
  | w => m.onCore (fun c => c.wearOther grade w)

/-- The operands of a wear indicator name something that exists. -/
def wearNames : WearObs → Bool
  | .memory u => decide (u < 1056)
  | .rate d => decide (d < 29)
  | .limit d => decide (d < 29)
  | .link n k p => decide (n < 1104) && decide (k < 3) && decide (p < 4)
  | .strand p s => isStrand p s

/-- WEAR_THRESHOLD. -/
def execWearThreshold (w : WearObs) (s : State) : Host.Outcome State Fault Refusal :=
  onlyIf (wearNames w) (s.onMach (fun m => m.wearThreshold s.grade w))

/-! ## Regulator phases (R377) -/

/-- PHASE_FAIL: the spare, then a cap at code 50 or a device-fatal event, then a dark pair without tiles. With no room for
its entry no spare counts as free (R380). The cause a TILE_OOS entry gives for this is free (log entry 7). -/
def Core.phaseFail (c : Core) (d phase : Nat) : Core :=
  let spare : LEntry := ⟨10, d, phase % 16 + 16, 0⟩
  let n := SMap.get 0 c.wgh.phases d
  let n := if n = 0 ∧ c.ledgerFull spare = true then 2 else n + 1
  let c := { c with wgh := { c.wgh with phases := SMap.set 0 c.wgh.phases d n } }
  if n = 1 then (c.ledgerAdd spare).spareUsed d
  else
    let c := c.ledgerAdd ⟨10, d, phase % 16, 0⟩
    if 24 ≤ d then c.deviceFatal 0x85 d
    else if n = 3 then
      let x := c.draw
      let c : Core := (x.2.pairTiles d).foldl (fun (c : Core) t => c.takeOut t (x.1.toNat % 16)) x.2
      if c.pairLit d then c.order d 1 else c
    else c
/-- PHASE_FAIL. -/
def execPhaseFail (d phase : Nat) (s : State) : Host.Outcome State Fault Refusal :=
  onlyIf (decide (d < 30)) (s.onCore (fun c => c.phaseFail d phase))

/-! ## The ends of ramps (R172, R322, R323) -/

/-- A tile's LIT regions and uncovered segments. -/
def Core.litSegs (c : Core) (t : Nat) : List Nat :=
  (List.range 64).filter (fun g => match c.regionOf t g with
    | some n => decide (c.trd t (R.MEM_RGN_MODE n) = 0)
    | none => true)

/-- What a tile's LIT and uncovered segments held is gone. -/
def Mach.blankLit (m : Mach) (t : Nat) : Mach :=
  (m.core.litSegs t).foldl (fun (m : Mach) g => m.blankSegs t g (g + 1)) m

/-- Accepted parts left at a tile end with REGION_DARK. -/
def Core.darkParts (c : Core) (t : Nat) : Core :=
  ((c.net.arr ++ c.net.mstore).filter (fun a => decide (a.unit = t) && a.accepted)).foldl (fun (c : Core) a =>
    if a.pkt.typ = 2 then c.failRead a stDARK else c.failWrite a stDARK) c

/-- No accepted part is left at a row pair. -/
def Core.pairQuiet (c : Core) (d : Nat) : Bool :=
  (c.net.arr ++ c.net.mstore).all (fun a => !(a.accepted && decide (a.unit < 960) && decide (a.unit / 40 = d)))

/-- The longest DARKTMO among a pair's tiles. -/
def Core.pairTmo (c : Core) (d : Nat) : Nat :=
  (List.range 40).foldl (fun m i => max m (c.trd (40 * d + i) R.MEM_TIMERS_DARKTMO)) 0

/-- The slices present in a larder domain. -/
def Core.slicesOf (c : Core) (d : Nat) : List Nat :=
  (List.range 96).filter (fun s => c.slicePresent s && decide (c.groupDomain (960 + s) = d))

/-- Hub ports of a half park and open with it (Table 11.8). -/
def Core.parkPorts (c : Core) : Core :=
  [0, 1, 2, 3].foldl (fun (c : Core) p =>
    let st := c.rd (R.PRT_STATE_STATE p)
    if st = 2 ∨ st = 3 ∨ st = 4 then c.wr (R.PRT_STATE_STATE p) (c.readyState p) else c) c

/-- DOMAIN_RAMP_DONE. A DARKENING pair waits for its accepted parts, for DARKTMO at most. -/
def Mach.rampDone (m : Mach) (d : Nat) : Mach :=
  let mode := m.core.rd (R.WGH_DOMST_MODE d)
  let tiles := (List.range 40).map (fun i => 40 * d + i)
  if mode = 1 then
    if d < 24 then
      if m.core.pairQuiet d = true ∨ m.core.pairTmo d ≤ m.core.now - SMap.get 0 m.core.wgh.ramp d then
        let m := m.onCore (fun c => tiles.foldl (fun (c : Core) t => (c.darkParts t).setCredit t 0) c)
        (tiles.foldl (fun (m : Mach) t => m.blankLit t) m).onCore (fun c => (c.wr (R.WGH_DOMST_MODE d) 2).setVolts)
      else m
    else
      ((m.core.slicesOf d).foldl (fun (m : Mach) s => m.blankSlice s) m).onCore (fun c => ((c.wr (R.WGH_DOMST_MODE d) 2).parkPorts).setVolts)
  else if mode = 3 then
    let m := if d < 24 then tiles.foldl (fun (m : Mach) t => m.blankLit t) m
      else (m.core.slicesOf d).foldl (fun (m : Mach) s => m.blankSlice s) m
    m.onCore (fun c => (c.wr (R.WGH_DOMST_MODE d) 0).setVolts)
  else m
/-- DOMAIN_RAMP_DONE. -/
def execDomainRampDone (d : Nat) (s : State) : Host.Outcome State Fault Refusal :=
  onlyIf (decide (d < 28)) (s.onMach (fun m => m.rampDone d))

end Sys2Proof.Machine
end

