-- ==== Sys2Proof/Machine/Health.lean ====
section
/-! DEFINITION. Notices between units and chiplets (R232, R240, R388): LINK_NOTICE, HEALTH_FORWARD, HEALTH_NOTICE and
EPOCHTMO_EXPIRY. -/

namespace Sys2Proof.Machine

/-- The router, plane and port whose link register an address names. -/
def linkOf (a : Nat) : Nat × Nat × Nat :=
  let o := adPageOff a - 0x500000
  (o / 0x800, o % 0x800 / 0x200, o % 0x200 / 0x40)

/-- LINK_NOTICE: the retirement recorded, and tables wanted that exclude the link: they are loaded as soon as the inactive
epoch is INVALID (Table 10.5). -/
def Core.linkNotice (c : Core) (a : Arrival) : Core :=
  let l := linkOf a.pkt.src
  let unit := meshUnit l.1 l.2.1 l.2.2
  ((((c.dropArr a).ledgerAdd ⟨8, unit, 0, 0⟩).wear unit).snapshot).newTables
/-- LINK_NOTICE. -/
def execLinkNotice (i : Nat) (s : State) : Host.Outcome State Fault Refusal :=
  s.onCore (fun c => match c.arrOf i 9 unitSeam with
    | some a => if a.linkNotice then c.linkNotice a else c
    | none => c)

/-- An address with this chiplet's plane, x, y and z and another slot. -/
def Core.inSlot (c : Core) (a slot : Nat) : Nat := (c.selfTop / 16 * 16 + slot % 16) * 2 ^ 45 + a % 2 ^ 45
/-- The slot of the chiplet downstream, as its descriptor names it (R245, Table 11.6). -/
def Core.downSlot (c : Core) : Nat := bits (c.rd (R.PRT_PARTNER_DESC 5)) 28 4

/-- Some hub port is ACTIVE. -/
def Core.hubActive (c : Core) : Bool := [0, 1, 2, 3].any (fun p => decide (c.rd (R.PRT_STATE_STATE p) = 2))

/-- The D port is ACTIVE, so that a neighbour is known (R245). -/
def Core.downActive (c : Core) : Bool := decide (c.rd (R.PRT_STATE_STATE 5) = 2)

/-- A HEALTH packet sent on towards LDG_NOTIFY: over a hub, or else on the D port to the chiplet downstream (R388); with
neither ACTIVE nothing is sent (R245). -/
def Core.sendHealth (c : Core) (p : Packet) : Core :=
  if c.hubActive then c.inject { p with dst := c.rd R.LDG_NOTIFY_ADDR } unitSeam
  else if c.downActive then c.injectTo { p with dst := c.inSlot (c.pageAddr 0x60800) c.downSlot } unitSeam 5
  else c

/-- HEALTH_FORWARD: an upstream chiplet's notice, SRC unchanged; none where LDG_NOTIFY is 0. -/
def Core.healthForward (c : Core) (a : Arrival) : Core :=
  let c := c.dropArr a
  if c.rd R.LDG_NOTIFY_ADDR = 0 then c
  else c.sendHealth { typ := 9, arg := a.pkt.arg, dst := 0, src := a.pkt.src }
/-- HEALTH_FORWARD. -/
def execHealthForward (i : Nat) (s : State) : Host.Outcome State Fault Refusal :=
  s.onCore (fun c => match c.arrOf i 9 unitSeam with
    | some a => if c.forwarded a then c.healthForward a else c
    | none => c)

/-- The ARG of a notice (R388). -/
def Notice.arg (n : Notice) : Nat := packBits [(4, n.kind), (2, n.cls), (8, n.code), (18, n.index)]

/-- HEALTH_NOTICE: the first notice that is due, at most one every 1,000 ticks; it stays due while no way out is ACTIVE. -/
def Core.healthNotice (c : Core) : Core :=
  match c.log.due with
  | [] => c
  | n :: rest =>
    let left := fun (c : Core) due last => { c with log := { c.log with due := due, lastNotice := last } }
    if c.rd R.LDG_NOTIFY_ADDR = 0 then left c [] c.log.lastNotice
    else if c.noticeSoon || !(c.hubActive || c.downActive) then c
    else (left c rest (some c.now)).sendHealth { typ := 9, arg := n.arg, dst := 0, src := c.pageAddr 0 }
/-- HEALTH_NOTICE. -/
def execHealthNotice (s : State) : Host.Outcome State Fault Refusal := s.onCore Core.healthNotice

/-- One idle step: the counting-house's own epoch change goes one step on (Table 10.5), and the timebase oscillator makes one
cycle (R37; log entry 3). -/
def Core.idle (c : Core) : Core := c.ownTables.tick

/-- EPOCHTMO_EXPIRY: a DRAINING epoch that has not been freed within EPOCHTMO ticks (R240). -/
def Core.epochTmo (c : Core) : Core :=
  match c.net.draining with
  | none => c
  | some t0 =>
    if c.rd R.NET_TIMERS_EPOCHTMO ≤ c.now - t0 then
      Core.jobFatal { c with net := { c.net with draining := none } } 0x02 0
    else c
/-- EPOCHTMO_EXPIRY. -/
def execEpochtmoExpiry (s : State) : Host.Outcome State Fault Refusal := s.onCore Core.epochTmo

end Sys2Proof.Machine
end

