-- ==== Sys2Proof/Machine/Mailbox.lean ====
section
/-! DEFINITION. The mailboxes (R328 to R333, R386): acceptance, authority, the order in which requests start, responses,
and the answers given to a request that is not carried out. -/

namespace Sys2Proof.Machine

/-! ## The catalogue (Table 15.4) -/

/-- The authority classes (R332). -/
inductive MbClass where
  | warden | hub | ring
  deriving DecidableEq, Repr

/-- The class of a command; none for a code this release does not define. -/
def mbClass (cmd : Nat) : Option MbClass :=
  if cmd ∈ [0x01, 0x02, 0x03, 0x34, 0x38, 0x39, 0x69] then some .hub
  else if cmd = 0x22 then some .ring
  else if cmd ∈ [0x10, 0x11, 0x18, 0x19, 0x1A, 0x20, 0x21, 0x30, 0x31, 0x32, 0x33, 0x40, 0x41, 0x42, 0x48, 0x49, 0x50, 0x51,
      0x52, 0x53, 0x60, 0x68, 0x6A] then some .warden
  else none

/-- The commands marked ROM. -/
def romCommands : List Nat := [0x01, 0x10, 0x11, 0x18, 0x19, 0x1A]

/-- A byte of a request's body; an absent one reads as zero (log entry 36). -/
def MbReq.byte (r : MbReq) (i : Nat) : Nat := (r.body.getD i 0).toNat
/-- A little-endian field of a request's body. -/
def MbReq.field (r : MbReq) (lo n : Nat) : Nat := leAt r.body lo n
/-- The data of a request that carries a piece: LEN bytes from byte 16, absent ones zero. -/
def MbReq.data (r : MbReq) (n : Nat) : List Byte := (List.range n).map (fun i => r.body.getD (16 + i) 0)

/-- The objects a command holds (R331): 0 all, 1 the bell, 2 the firmware store, 3 the crier, 4 the configuration
registers, 5 the route epochs, 6 every slice, 16 + w a window, 2000 + s a slice, 3000 + d a row pair, 4000 + h a half. -/
def MbReq.objects (r : MbReq) : List Nat :=
  match r.cmd with
  | 0x10 => [1]
  | 0x18 | 0x19 | 0x1A => [2]
  | 0x20 => [3]
  | 0x21 | 0x22 => [3, 1]
  | 0x30 => [4]
  | 0x31 | 0x32 | 0x33 => [1]
  | 0x38 | 0x39 => [16 + r.field 0 2]
  | 0x40 | 0x41 | 0x42 => [5]
  | 0x48 => [2000 + r.byte 0, 3]
  | 0x49 => [6]
  | 0x50 | 0x51 | 0x60 => [4]
  | 0x52 => [3000 + r.byte 0]
  | 0x53 => [4000 + r.byte 0]
  | 0x68 | 0x6A => [0]
  | _ => []

/-- Two objects that are or contain one another. -/
def objClash (a b : Nat) : Bool :=
  let slice := fun x => decide (2000 ≤ x) && decide (x < 3000)
  decide (a = 0) || decide (b = 0) || decide (a = b) || (decide (a = 6) && slice b) || (decide (b = 6) && slice a)

/-! ## Authority (R332, R350, R352) -/

/-- Whether a command's class is granted to a port. -/
def Core.mayRequest (c : Core) (p cmd target : Nat) : Bool :=
  let ward := decide (p = c.rd R.STG_STRAP_WARD)
  let w := ward && !c.ports.wardenLost
  if c.rd R.CH_FWVER_ROM = 1 then
    ward && romCommands.contains cmd && (decide (cmd = 0x01) || w)
      && (decide (c.rd R.STG_STATUS_STAGE ≠ 0) || decide (cmd = 0x01) || (decide (cmd = 0x10) && decide (target = 1)))
  else match mbClass cmd with
    | some .warden => w
    | some .hub => decide (p < 4)
    | _ => true

/-- The control cores that remain. -/
def Core.coresLeft (c : Core) : Nat := 3 - popCount (c.rd R.CH_CORES_RETIRED) 3

/-! ## Responses (R330) -/

/-- The header and body of a response (Table 15.3). -/
def Core.mbPayload (c : Core) (r : MbReq) (st detail : Nat) (body : List Byte) : List Byte :=
  let rel := c.rd R.CH_FWVER_RELEASE
  toBytes 2 r.cmd ++ toBytes 1 st ++ toBytes 1 (rel / 2 ^ 16) ++ toBytes 4 r.tag ++ toBytes 2 rel ++ toBytes 2 body.length
    ++ toBytes 4 detail ++ toBytes 8 c.now ++ toBytes 8 0 ++ body

/-- The response's packet: from the request's slot to RESP. -/
def Core.mbPacket (c : Core) (r : MbReq) (st detail : Nat) (body : List Byte) : Packet :=
  let pl := c.mbPayload r st detail body
  { typ := 8, len := pl.length, dst := r.resp, src := c.selfAddr 6 (r.port * 2 ^ 39 + 512 * r.slot), payload := pl }

/-- A response sent by its port, or dropped with NORESP. `direct` sends it from the port logic, as a reset does. -/
def Core.mbSend (c : Core) (p : Nat) (pkt : Packet) (direct : Bool) : Core :=
  if c.rd (R.PRT_STATE_STATE p) ≠ 2 then c.wr (R.CH_MBSTAT_NORESP p) 1
  else if direct then c.sendOut p { pkt with epoch := c.rd R.NET_RTCTL_ACTIVE } false
  else c.injectTo pkt unitSeam p

/-- A port's 16 most recent responses with one more. -/
def Core.mbKeep (c : Core) (d : MbDone) : Core :=
  let mine := c.mb.done.filter (fun x => decide (x.port = d.port))
  let rest := c.mb.done.filter (fun x => decide (x.port ≠ d.port))
  { c with mb := { c.mb with done := rest ++ (mine ++ [d]).drop (mine.length + 1 - 16) } }

/-- A request answered: its slot is free, and the response is kept. -/
def Core.mbAnswer (c : Core) (r : MbReq) (st detail : Nat) (body : List Byte) (direct : Bool := false) : Core :=
  let pkt := c.mbPacket r st detail body
  let c : Core := { c with mb := { c.mb with
    reqs := c.mb.reqs.filter (fun x => !(decide (x.port = r.port) && decide (x.slot = r.slot))) } }
  let c := c.wr (R.CH_MBSTAT_BUSY r.port) (setBit (c.rd (R.CH_MBSTAT_BUSY r.port)) r.slot false)
  (c.mbKeep ⟨r.port, r.cmd, r.tag, pkt⟩).mbSend r.port pkt direct

/-! ## Bodies (Table 15.4): the bits each command's body may set -/

/-- The bits of each byte that a body may set; bytes past the list are reserved. -/
def MbReq.allowed (r : MbReq) : List Nat :=
  let full := fun n => List.replicate n 0xFF
  let piece := fun (head : List Nat) (n : Nat) => head ++ List.replicate (16 - head.length) 0 ++ full n
  match r.cmd with
  | 0x02 => full 4 ++ [1]
  | 0x03 => full 36
  | 0x10 => [0xFF, 1]
  | 0x11 => [0xFF]
  | 0x18 => full 2 ++ [0, 0] ++ full 10 ++ [0, 0] ++ full 144
  | 0x19 => piece (full 6) (r.field 4 2)
  | 0x20 => piece ([0xFF, 0, 0, 0] ++ full 6) (r.field 8 2)
  | 0x21 => [0x0F]
  | 0x22 => if r.byte 0 = 2 then [0xFF, 0x0F] else piece ([0xFF, 0x0F, 0, 0] ++ full 6) (r.field 8 2)
  | 0x30 => full 4 ++ [3, 0, 0, 0] ++ full 3
  | 0x31 => full 4 ++ [0x0F, 0, 0, 0] ++ full 8 ++ full (8 * bits (r.field 0 8) 3 5)
  | 0x32 => full 132
  | 0x33 => [3, 0, 0, 0] ++ full 4
  | 0x34 => [1, 0xFF, 0xFF, 0xFF, 1, 0] ++ full 4
  | 0x38 => [0xFF, 3] ++ [0x3F, 0xFF, 3, 0xFF, 0xFF, 3] ++ full 5 ++ [0x1F, 0, 0, 0xFF, 0xFF]
  | 0x39 => [0xFF, 3]
  | 0x48 => [0xFF] ++ List.replicate 7 0 ++ [0xFF, 0x1F]
  | 0x49 => [1]
  | 0x50 => full 2
  | 0x51 => full 4 ++ List.replicate 4 0 ++ full 16
  | 0x52 => [0xFF, 1]
  | 0x53 => [1, 1]
  | 0x60 => full 480
  | 0x68 => piece (full 6 ++ [1]) (r.field 4 2)
  | 0x69 => full 4
  | 0x6A => match r.byte 0 with
    | 0 => [0xFF] ++ List.replicate 7 0 ++ full 24
    | 2 => full 3
    | 3 => full 4
    | 4 => full 4
    | 5 => full 2
    | _ => [0xFF]
  | _ => []

/-- The first byte of a body with a reserved bit set. -/
def MbReq.reserved (r : MbReq) : Option Nat :=
  (List.range r.body.length).find? (fun i => decide ((r.byte i &&& (0xFF ^^^ r.allowed.getD i 0)) ≠ 0))

/-- A field of a body outside the values its command allows, by its byte: reserved codes, lengths, the image's FORMAT
(Table 15.6), the span of an abort (R212). -/
def MbReq.outOfRange (r : MbReq) : Option Nat :=
  let len := fun (i n : Nat) => if n = 0 ∨ 256 < n then some i else none
  match r.cmd with
  | 0x11 => if 1 < r.byte 0 then some 0 else none
  | 0x18 => if r.field 0 2 ≠ 2 then some 0 else if r.field 4 4 = 0 ∨ 2097152 < r.field 4 4 then some 4 else none
  | 0x19 => len 4 (r.field 4 2)
  | 0x20 => if 1 < r.byte 0 then some 0 else len 8 (r.field 8 2)
  | 0x22 => if 2 < r.byte 0 then some 0 else if r.byte 0 = 2 then none else len 8 (r.field 8 2)
  | 0x34 =>
    if r.byte 4 = 0 then (if r.field 6 2 ≠ 0 then some 6 else if r.field 8 2 ≠ 0 then some 8 else none)
    else if 0x8000 ≤ (r.field 8 2 + 65536 - r.field 6 2) % 65536 then some 8 else none
  | 0x68 => len 4 (r.field 4 2)
  | 0x6A => if 5 < r.byte 0 then some 0 else none
  | _ => none

/-- The byte of a request's first offending field: reserved, or out of range (R330, Table 15.3). -/
def MbReq.offending (r : MbReq) : Option Nat := (r.outOfRange.toList ++ r.reserved.toList).min?.map (fun i => 32 + i)

/-- The answer, with its DETAIL, to a request that is not carried out: another major release, a code not defined, a
device-fatal state, a body out of form. -/
def Core.mbPlain (c : Core) (r : MbReq) : Option (Nat × Nat) :=
  let rel := c.rd R.CH_FWVER_RELEASE
  if c.rd R.CH_FWVER_ROM = 0 ∧ r.vmaj ≠ rel / 2 ^ 16 % 256 then some (stFORMAT, rel)
  else if mbClass r.cmd = none then some (stFORMAT, 0)
  else if c.rd R.LDG_ALERT_DEVF = 1 ∧ r.cmd ∉ [0x01, 0x02, 0x03, 0x69, 0x11] then some (stDENIED, 2)
  else r.offending.map (fun i => (stFORMAT, i))

/-! ## Turns (R331) -/

/-- The first accepted request that has not started. -/
def Core.mbHead (c : Core) : Option MbReq := c.mb.reqs.find? (fun r => !r.started)

/-- The objects held: those of started requests, and the crier while a broadcast runs. -/
def Core.mbHeld (c : Core) : List Nat :=
  (c.mb.reqs.filter (fun r => r.started)).flatMap MbReq.objects ++ (if c.cry.ended then [] else [3])

/-- Whether a request may start: no swap is in progress, and what it needs is free. -/
def Core.mbFree (c : Core) (r : MbReq) : Bool :=
  decide (c.rd R.CH_CORES_SWAPPING = 0) && r.objects.all (fun a => c.mbHeld.all (fun b => !objClash a b))

/-- Requests that come to their turn and are not carried out are answered; `n` bounds how many. -/
def Core.mbDrain : Nat → Core → Core
  | 0, c => c
  | n + 1, c => match c.mbHead with
    | none => c
    | some r => match c.mbPlain r with
      | none => c
      | some (st, d) => Core.mbDrain n (c.mbAnswer r st d [])

/-- A request answered, and those that follow it looked at. -/
def Core.mbFinish (c : Core) (r : MbReq) (st detail : Nat) (body : List Byte) : Core :=
  Core.mbDrain c.mb.reqs.length (c.mbAnswer r st detail body)

/-- A request replaced by its changed self. -/
def Core.putReq (c : Core) (r : MbReq) : Core :=
  { c with mb := { c.mb with
    reqs := c.mb.reqs.map (fun x => if x.port = r.port ∧ x.slot = r.slot then r else x) } }

/-- What a command makes of its request: its answer, or what it notes while it waits on hardware. -/
inductive MbAns where
  | done (m : Mach) (st detail : Nat) (body : List Byte)
  | wait (m : Mach) (note : List Nat)
  deriving DecidableEq, Repr

/-- One request carried out, or carried on. -/
def Mach.mbRun (m : Mach) (f : Mach → MbReq → MbAns) (r : MbReq) : Mach :=
  match f m r with
  | .done m st d b => m.onCore (fun c => c.mbFinish r st d b)
  | .wait m n => m.onCore (fun c => c.putReq { r with note := n })

/-- A row of the catalogue: its requests under way are carried on, and the request whose turn it is starts if it is one of
the row's; one that may no longer be carried out is answered (R386). A request has started while `note` is empty only for
its first run. -/
def Mach.mbRow (m : Mach) (mine : MbReq → Bool) (f : Mach → MbReq → MbAns) : Mach :=
  let live := m.core.mb.reqs.filter (fun r => r.started && mine r)
  let m := live.foldl (fun (m : Mach) r => m.mbRun f r) m
  match m.core.mbHead with
  | some r =>
    if mine r = false then m
    else if (m.core.mbPlain r).isSome then m.onCore (fun c => Core.mbDrain c.mb.reqs.length c)
    else if m.core.mbFree r then
      let r := { r with started := true, since := m.core.now }
      (m.onCore (fun c => c.putReq r)).mbRun f r
    else m
  | none => m

/-- The rows of one command code. -/
def mbIs (cmd : Nat) : MbReq → Bool := fun r => decide (r.cmd = cmd)
/-- A row whose command changes control state alone and is answered at once. -/
def Mach.mbAct (m : Mach) (mine : MbReq → Bool) (f : Core → MbReq → Core × Nat × Nat × List Byte) : Mach :=
  m.mbRow mine (fun m r => let x := f m.core r; .done { m with core := x.1 } x.2.1 x.2.2.1 x.2.2.2)
/-- Such an answer: OK with a body, or a status with its DETAIL. -/
def Core.ok (c : Core) (body : List Byte) : Core × Nat × Nat × List Byte := (c, stOK, 0, body)
def Core.no (c : Core) (st detail : Nat) : Core × Nat × Nat × List Byte := (c, st, detail, [])

/-! ## MAILBOX_REQUEST (R329) -/

/-- A request's header is in form: a slot's offset, LEN, and the reserved bytes. -/
def mbHeaderOk (p : Packet) : Bool :=
  let o := adMbOff p.dst
  decide (o % 512 = 0) && decide (o < 0x2000) && decide (leAt p.payload 16 2 ≤ 480)
    && decide (p.payload.length = 32 + leAt p.payload 16 2) && decide (leAt p.payload 3 1 = 0)
    && decide (leAt p.payload 18 14 = 0)

/-- The request of a packet at a port. -/
def mbRequest (port : Nat) (p : Packet) : MbReq :=
  let resp := leAt p.payload 8 8
  { port := port, slot := adMbOff p.dst / 512 % 16, cmd := leAt p.payload 0 2, vmaj := leAt p.payload 2 1,
    tag := leAt p.payload 4 4, resp := if resp = 0 then p.src else resp, body := p.payload.drop 32 }

/-- What the checks of Table 15.2 make of a request. -/
inductive MbCheck where
  | refused (st : Nat)
  | again (d : MbDone)
  | accepted
  deriving DecidableEq, Repr

/-- The checks in their order, for a request at port `port` of the mailbox unit `u`. -/
def Core.mbCheck (c : Core) (port u : Nat) (p : Packet) : MbCheck :=
  let r := mbRequest port p
  if c.rd R.STG_STRAP_STRAPERR = 1 ∨ c.coresLeft < 2 then .refused stDENIED
  else if u ≠ unitMailbox port then .refused stDENIED
  else if !mbHeaderOk p then .refused stFORMAT
  else match c.mb.done.find? (fun d => decide (d.port = port) && decide (d.cmd = r.cmd) && decide (d.tag = r.tag)) with
    | some d => .again d
    | none =>
      if bit (c.rd (R.CH_MBSTAT_BUSY port)) r.slot then .refused stBOUND
      else if c.mayRequest port r.cmd (r.byte 0) then .accepted else .refused stDENIED

/-- A CHMSG from a port taken by the mailboxes. -/
def Core.mbArrive (c : Core) (a : Arrival) (port : Nat) : Core :=
  let u := unitMailbox port
  match c.mbCheck port a.unit a.pkt with
  | .refused st =>
    ((c.bump (R.CH_MBSTAT_REFUSED port) 1).wr (R.CH_MBSTAT_LASTREF port) st).endArr { a with unit := u } st
  | .again d => (c.endArr { a with unit := u } stOK).mbSend port d.pkt false
  | .accepted =>
    let r := mbRequest port a.pkt
    let c := c.wr (R.CH_MBSTAT_BUSY port) (setBit (c.rd (R.CH_MBSTAT_BUSY port)) r.slot true)
    let c := (c.bump (R.CH_MBSTAT_ACCEPTED port) 1).endArr { a with unit := u } stOK
    Core.mbDrain (c.mb.reqs.length + 1) { c with mb := { c.mb with reqs := c.mb.reqs ++ [r] } }

/-- MAILBOX_REQUEST: a CHMSG that came in by a port, for anything but the counting-house itself (R346). -/
def execMailboxRequest (i : Nat) (s : State) : Host.Outcome State Fault Refusal :=
  s.onCore (fun c => match c.net.arr[i]? with
    | some a => match a.port with
      | some p => if a.pkt.typ = 8 ∧ a.unit ≠ unitSeam ∧ p < 6 then c.mbArrive a p else c
      | none => c
    | none => c)

end Sys2Proof.Machine
end

