-- ==== Sys2Proof/Machine/Security.lean ====
section
/-! DEFINITION. Identity, hallmarks and attestation (chapter 18), and the ledger record (R379 to R382). -/

namespace Sys2Proof.Machine

/-! ## Fuses (R393, R394, R403) -/

/-- Bytes cut or padded with zeros to a length. -/
def padTo (n : Nat) (bs : List Byte) : List Byte := (bs ++ List.replicate n 0).take n

/-- The device certificate, 208 bytes (Table 18.2). -/
def Fuses.certificate (f : Fuses) : List Byte := padTo 208 f.cert
/-- IDHASH: the SHA-384 of certificate bytes 16 to 111. -/
def Fuses.idHash (f : Fuses) : List Byte := sha384 ((f.certificate.drop 16).take 96)

/-- The key generation in use: the lowest one not revoked; none where all four are (log entry 32). -/
def keyGen (rev : Nat) : Option Nat := (List.range 4).find? (fun g => !bit rev g)
/-- A generation as CH_SECFUSE shows it. -/
def genField (rev : Nat) : Nat := (keyGen rev).getD Config.spentGen.toNat

/-- CH_SECFUSE (Table 18.8). -/
def Fuses.word (f : Fuses) : Nat :=
  packBits [(6, f.hmepoch), (6, f.fwsvn), (6, f.tsvn), (2, genField f.fwrev), (2, genField f.trev), (2, genField f.hmrev),
    (4, f.fwrev), (4, f.trev), (4, f.hmrev)]

/-- A signature checked under the key generation in use; with every generation revoked none is good. -/
def sigUnder (purpose rev : Nat) (msg sig : List Byte) : Bool :=
  match keyGen rev with
  | some g => Config.sigGood purpose g msg sig
  | none => false

/-- What signs for the chiplet: its certificate's key, or nothing known once a test has erased it (R422, log entry 32). -/
def Fuses.signer (f : Fuses) (erased : Bool) : List Byte := if erased then [] else f.certificate
/-- Bytes followed by the chiplet's signature over them (R392). -/
def signedBy (key bs : List Byte) : List Byte := bs ++ padTo 96 (Config.identitySign key bs)

/-! ## The ledger record (Table 17.3) -/

/-- An entry's 16 bytes. -/
def LEntry.bytes (e : LEntry) : List Byte := toBytes 1 e.kind ++ [0] ++ toBytes 2 e.unit ++ toBytes 4 e.arg ++ toBytes 8 e.val
/-- The entry that 16 bytes spell. -/
def LEntry.ofBytes (bs : List Byte) : LEntry := ⟨leAt bs 0 1, leAt bs 2 2, leAt bs 4 4, leAt bs 8 8⟩

/-- The signed part of a snapshot. -/
def Fuses.snapBody (f : Fuses) (s : Snap) : List Byte :=
  toBytes 2 4 ++ toBytes 2 s.entries.length ++ toBytes 4 s.lgen ++ f.idHash ++ toBytes 8 s.time ++ s.entries.flatMap LEntry.bytes
/-- A snapshot as the host reads it. -/
def Fuses.snapRecord (f : Fuses) (key : List Byte) (s : Snap) : List Byte := signedBy key (f.snapBody s)

/-- A presented record passes: FORMAT, IDHASH, and a signature this chiplet made (R381). -/
def Fuses.historyGood (f : Fuses) (bs : List Byte) : Bool :=
  let n := 64 + 16 * leAt bs 2 2
  decide (leAt bs 0 2 = 4) && decide (bs.length = n + 96) && decide ((bs.drop 8).take 48 = f.idHash)
    && Config.identityGood f.certificate (bs.take n) (bs.drop n)
/-- Its entries. -/
def historyEntries (bs : List Byte) : List LEntry :=
  (List.range (leAt bs 2 2)).map (fun i => LEntry.ofBytes ((bs.drop (64 + 16 * i)).take 16))

/-! ## Attestation (R402, Table 18.6) -/

/-- The report but for its signature. -/
def Core.reportBody (c : Core) (f : Fuses) (nonce : List Byte) : List Byte :=
  let cert := f.certificate
  let head := SMap.get [] c.fw.heads (c.rd R.CH_FWVER_BANK)
  let serial := fun n => if c.rd (R.CH_HMSLOT_RESULT n) = 1 then c.rd (R.CH_HMSLOT_SERIAL n) else 0
  let led := match c.led.snap with
    | some s => sha384 (f.snapBody s)
    | none => padTo 48 []
  toBytes 2 6 ++ toBytes 2 0x280 ++ toBytes 4 (c.rd R.CH_FWVER_RELEASE) ++ toBytes 2 (c.rd R.CH_FWVER_SVN)
    ++ (cert.drop 13).take 1 ++ (cert.drop 12).take 1 ++ toBytes 1 (c.cword 0).toNat ++ toBytes 3 0 ++ padTo 32 nonce
    ++ f.idHash ++ padTo 48 (head.drop 16) ++ padTo 48 c.cry.measured ++ led
    ++ toBytes 4 ((c.led.snap.map Snap.lgen).getD 0) ++ toBytes 2 (c.rd R.LDG_FP_SUMMARY_ENABLED) ++ toBytes 2 0
    ++ toBytes 4 (c.cword R.CH_HMSTAT_PRESENTED.off).toNat ++ toBytes 4 f.word
    ++ (List.range 4).flatMap (fun n => toBytes 4 (serial n))
    ++ (List.range 6).flatMap (fun p => toBytes 8 (c.rd (R.PRT_PARTNER_DESC p)))
    ++ toBytes 8 c.now ++ toBytes 8 0 ++ cert

/-- A long record's response: its length, four bytes of its own, and up to 464 bytes from an offset. -/
def pieceOf (bs : List Byte) (extra off : Nat) : List Byte :=
  toBytes 4 bs.length ++ toBytes 4 extra ++ toBytes 8 0 ++ (bs.drop off).take 464

/-- MB_ATTEST. -/
def Core.attest (c : Core) (f : Fuses) (key : List Byte) (r : MbReq) : Core × Nat × Nat × List Byte :=
  let nonce := padTo 32 r.body
  let off := r.field 32 4
  if off = 0 then
    let rep := signedBy key (c.reportBody f nonce)
    ({ c with hm := { c.hm with report := rep } }).ok (pieceOf rep 0 0)
  else if c.hm.report ≠ [] ∧ (c.hm.report.drop 16).take 32 = nonce then c.ok (pieceOf c.hm.report 0 off)
  else c.no stFAILED 0
/-- MB_ATTEST. -/
def execMbAttest (s : State) : Host.Outcome State Fault Refusal :=
  s.onMach (fun m => m.mbAct (mbIs 0x03) (fun c r => c.attest s.fuses (s.fuses.signer s.pwr.erased) r))

/-! ## Ledger reads and history (R381, R382) -/

/-- MB_LDG_READ: a snapshot of its own at OFFSET 0, else a piece of the one in force. -/
def Core.ldgRead (c : Core) (f : Fuses) (key : List Byte) (r : MbReq) : Core × Nat × Nat × List Byte :=
  let off := r.field 0 4
  let c := if off = 0 then c.snapshot else c
  match c.led.snap with
  | some s => c.ok (pieceOf (f.snapRecord key s) s.lgen off)
  | none => c.ok (pieceOf [] 0 off)
/-- MB_LDG_READ. -/
def execMbLdgRead (s : State) : Host.Outcome State Fault Refusal :=
  s.onMach (fun m => m.mbAct (mbIs 0x69) (fun c r => c.ldgRead s.fuses (s.fuses.signer s.pwr.erased) r))

/-- Where the presented history stands in memory: the counting-house state store. -/
def historyBase : Nat := 2 ^ 36

/-- The bytes a presentation has covered, from offset 0 without a gap. -/
def coveredTo (ps : List (Nat × Nat)) : Nat → Nat → Nat
  | 0, n => n
  | k + 1, n => match ps.find? (fun p => decide (p.1 ≤ n) && decide (n < p.1 + p.2)) with
    | some p => coveredTo ps k (p.1 + p.2)
    | none => n
/-- The length of a presentation: the end of its furthest piece. -/
def presentedEnd (ps : List (Nat × Nat)) : Nat := ps.foldl (fun m p => max m (p.1 + p.2)) 0

/-- MB_LDG_HISTORY: a piece kept; with LAST the whole is checked. -/
def Mach.ldgHistory (m : Mach) (f : Fuses) (r : MbReq) : MbAns :=
  let c := m.core
  if c.rd R.STG_STATUS_PASSL = 1 ∨ c.rd R.LDG_FP_SUMMARY_VALID = 1 then .done m stDENIED 2 []
  else
    let off := r.field 0 4
    let n := r.field 4 2
    let m := m.write (historyBase + off) (r.data n)
    let got := c.led.got ++ [(off, n)]
    if r.byte 6 = 0 then .done (m.onCore (fun c => { c with led := { c.led with got := got } })) stOK 0 []
    else
      let len := presentedEnd got
      let bs := m.read historyBase len
      let good := decide (coveredTo got got.length 0 = len) && f.historyGood bs
      let m := m.onCore (fun c =>
        let c : Core := { c with led := { c.led with got := [], hist := if good then historyEntries bs else [] } }
        let c := c.wr R.LDG_STATUS_HIST (b2n good)
        if good then c.wr R.LDG_STATUS_LGEN (leAt bs 4 4) else c)
      if good then .done m stOK 0 [] else .done m stDENIED 3 []
/-- MB_LDG_HISTORY. -/
def execMbLdgHistory (s : State) : Host.Outcome State Fault Refusal :=
  s.onMach (fun m => m.mbRow (mbIs 0x68) (fun m r => m.ldgHistory s.fuses r))

/-! ## Hallmarks (R395 to R400) -/

/-- The fields of a hallmark blob (Table 18.3). -/
def hmFeature (b : List Byte) : Nat := leAt b 2 1
def hmTier (b : List Byte) : Nat := leAt b 3 1
def hmSerial (b : List Byte) : Nat := leAt b 4 4
def hmEpoch (b : List Byte) : Nat := leAt b 8 1
def hmFwsvn (b : List Byte) : Nat := leAt b 10 1
def hmTsvn (b : List Byte) : Nat := leAt b 11 1

/-- The highest tier code of a feature (Table 18.4). -/
def topTier (feature : Nat) : Nat := if feature = 1 ∨ feature = 4 then 2 else 1
/-- The bytes both kinds of blob leave zero. -/
def blobZeros (b : List Byte) : Bool := decide (leAt b 9 1 = 0) && decide (leAt b 12 4 = 0) && decide (leAt b 64 32 = 0)
/-- A blob is bound to this chiplet. -/
def Fuses.boundTo (f : Fuses) (b : List Byte) : Bool := decide ((b.drop 16).take 48 = f.idHash)
/-- A blob's signature is good. -/
def Fuses.blobSigned (f : Fuses) (b : List Byte) : Bool := sigUnder 2 f.hmrev (b.take 96) ((b.drop 96).take 96)

/-- The RESULT of a filled slot at stage 7 (Table 18.5). -/
def Fuses.hmResult (f : Fuses) (b : List Byte) : Nat :=
  if !(decide (hmTier b ≤ topTier (hmFeature b)) && decide (hmSerial b ≠ 0) && decide (hmEpoch b ≤ 63) && blobZeros b
      && decide (leAt b 10 2 = 0)) then 2
  else if !f.boundTo b then 3
  else if hmEpoch b < f.hmepoch then 4
  else if !f.blobSigned b then 5 else 1

/-- An epoch notice passes checks 1, 2 and 4 (R400). -/
def Fuses.noticeGood (f : Fuses) (b : List Byte) : Bool :=
  decide (hmTier b = 0) && decide (hmSerial b ≠ 0) && decide (hmEpoch b ≤ 63) && decide (hmFwsvn b ≤ 63) && decide (hmTsvn b ≤ 63)
    && blobZeros b && f.boundTo b && f.blobSigned b

/-- The counters raised by a notice; none is lowered. -/
def Fuses.raised (f : Fuses) (b : List Byte) : Fuses :=
  { f with hmepoch := max f.hmepoch (hmEpoch b), fwsvn := max f.fwsvn (hmFwsvn b), tsvn := max f.tsvn (hmTsvn b) }

/-- The blob of a request. -/
def MbReq.blob (r : MbReq) : List Byte := padTo 192 (r.body.drop 16)

/-- The FORMAT checks of R396, with the offset in the request of the field. -/
def MbReq.hallmarkForm (r : MbReq) : Option Nat :=
  let op := r.byte 0
  if 2 < op then some 32
  else if r.body.length ≠ (if op = 1 then 16 else 208) then some 16
  else match (List.range 15).find? (fun i => decide (r.byte (i + 1) ≠ 0)) with
    | some i => some (33 + i)
    | none =>
      if op = 1 then none
      else if leAt r.blob 0 2 ≠ 5 then some 48
      else if (op = 0 ∧ (hmFeature r.blob = 0 ∨ 4 < hmFeature r.blob)) ∨ (op = 2 ∧ hmFeature r.blob ≠ 0) then some 50
      else none

/-- The rows of MB_HALLMARK, by OP; an OP that is none of them falls to the first. -/
def mbHallmark (op : Nat) : MbReq → Bool := fun r =>
  decide (r.cmd = 0x60) && (decide (r.byte 0 = op) || (decide (op = 0) && decide (2 < r.byte 0)))

/-- Filled slots counted. -/
def Core.countSlots (c : Core) : Core := c.wr R.CH_HMSTAT_PRESENTED c.hm.slots.length

/-- PRESENT. -/
def Core.hmPresent (c : Core) (r : MbReq) : Core × Nat × Nat × List Byte :=
  match r.hallmarkForm with
  | some i => c.no stFORMAT i
  | none =>
    if c.rd R.CH_HMSTAT_APPLIED = 1 then c.no stDENIED 2
    else
      let n := hmFeature r.blob - 1
      let c : Core := { c with hm := { c.hm with slots := SMap.set [] c.hm.slots n r.blob } }
      let c := (c.wr (R.CH_HMSLOT_RESULT n) 6).wr (R.CH_HMSLOT_TIER n) (hmTier r.blob)
      ((c.wr (R.CH_HMSLOT_SERIAL n) (hmSerial r.blob)).countSlots).ok (toBytes 1 n)
/-- MB_HALLMARK_PRESENT. -/
def execMbHallmarkPresent (s : State) : Host.Outcome State Fault Refusal :=
  s.onMach (fun m => m.mbAct (mbHallmark 0) Core.hmPresent)

/-- Every slot empty. -/
def Core.emptySlots (c : Core) : Core :=
  let c : Core := { c with hm := { c.hm with slots := [] } }
  ((List.range 4).foldl (fun (c : Core) n => c.setCword (0x60310 + 8 * n) 0) c).countSlots
/-- CLEAR. -/
def Core.hmClear (c : Core) (r : MbReq) : Core × Nat × Nat × List Byte :=
  match r.hallmarkForm with
  | some i => c.no stFORMAT i
  | none => if c.rd R.CH_HMSTAT_APPLIED = 1 then c.no stDENIED 2 else c.emptySlots.ok []
/-- MB_HALLMARK_CLEAR. -/
def execMbHallmarkClear (s : State) : Host.Outcome State Fault Refusal :=
  s.onMach (fun m => m.mbAct (mbHallmark 1) Core.hmClear)

/-- The answer to an ADVANCE under fuses `f`, which become `f.advance r`. -/
def Fuses.advance (f : Fuses) (r : MbReq) : Fuses :=
  if r.hallmarkForm.isNone && f.noticeGood r.blob then f.raised r.blob else f
/-- ADVANCE's answer. -/
def Core.hmAdvance (c : Core) (f : Fuses) (r : MbReq) : Core × Nat × Nat × List Byte :=
  match r.hallmarkForm with
  | some i => c.no stFORMAT i
  | none => if f.noticeGood r.blob then c.ok (toBytes 4 (f.advance r).word) else c.no stDENIED 3

/-- The request a row would start. -/
def Core.mbTurn (c : Core) (mine : MbReq → Bool) : Option MbReq := c.mbHead.filter (fun r => mine r && c.mbFree r)

/-- MB_HALLMARK_ADVANCE: the fuses are blown and the request answered. -/
def execMbHallmarkAdvance (s : State) : Host.Outcome State Fault Refusal :=
  let f := s.fuses
  .next (if s.live then
    { s with
      fuses := ((s.mach.core.mbTurn (mbHallmark 2)).map f.advance).getD f
      mach := s.mach.mbAct (mbHallmark 2) (fun c r => c.hmAdvance f r) }
  else s)

end Sys2Proof.Machine
end

