-- ==== Sys2Proof/Machine/MbCmds.lean ====
section
/-! DEFINITION. Mailbox commands (R334, R335, R387): identification, the fault log, firmware, coordinates, the bell, jobs,
aborts, windows, route tables, the larder, and settings. -/

namespace Sys2Proof.Machine

/-! ## MB_INFO and MB_FAULTLOG -/

/-- MB_INFO. -/
def Core.mbInfo (c : Core) (f : Fuses) : List Byte :=
  toBytes 4 (c.rd R.CH_FWVER_RELEASE) ++ toBytes 2 (c.rd R.CH_FWVER_SVN) ++ (f.certificate.drop 13).take 1
    ++ (f.certificate.drop 12).take 1 ++ toBytes 1 (c.rd R.STG_STATUS_STAGE) ++ toBytes 1 (c.rd R.STG_STRAP_WARD)
    ++ toBytes 1 (c.cword R.CH_CORES_ACTA.off).toNat ++ toBytes 5 0
/-- MB_INFO. -/
def execMbInfo (s : State) : Host.Outcome State Fault Refusal :=
  s.onMach (fun m => m.mbAct (mbIs 0x01) (fun c _ => c.ok (c.mbInfo s.fuses)))

/-- A fault record's 32 bytes (Table 17.8). -/
def FaultRec.bytes (r : FaultRec) : List Byte :=
  toBytes 1 r.cls ++ toBytes 1 r.source ++ toBytes 2 r.unit ++ toBytes 1 r.status ++ toBytes 1 r.code ++ toBytes 2 0
    ++ toBytes 8 r.info ++ toBytes 8 r.time ++ toBytes 4 r.index ++ toBytes 4 0

/-- MB_FAULTLOG (R387). -/
def Core.faultlog (c : Core) (r : MbReq) : Core × Nat × Nat × List Byte :=
  let wi := c.rd R.LDG_FLOG_WI
  let lo := max (r.field 0 4) (wi - 1024)
  let rs := (c.log.flog.filter (fun x => decide (lo ≤ x.index))).take 14
  let hi := lo + rs.length
  let body := toBytes 4 wi ++ toBytes 4 lo ++ toBytes 1 rs.length ++ toBytes 7 0 ++ rs.flatMap FaultRec.bytes
  let c := if r.byte 4 = 1 then
      (let c := c.wr R.LDG_FLOG_AI hi
       if c.log.flog.any (fun x => decide (x.cls = 2) && decide (hi ≤ x.index)) then c else c.wr R.LDG_ALERT_JOBF 0)
    else c
  c.ok body
/-- MB_FAULTLOG. -/
def execMbFaultlog (s : State) : Host.Outcome State Fault Refusal := s.onMach (fun m => m.mbAct (mbIs 0x02) Core.faultlog)

/-! ## Counting-house firmware (R336, R337) -/

/-- The bank an update goes to: A before the firmware runs, else the one not running. -/
def Core.nextBank (c : Core) : Nat := if c.rd R.CH_FWVER_ROM = 1 then 0 else 1 - c.rd R.CH_FWVER_BANK

/-- The staged image abandoned. -/
def Core.unstage (c : Core) : Core := { c with fw := { c.fw with staged := none, written := [] } }

/-- MB_FW_BEGIN; one that meets a staged image abandons it (log entry 36). -/
def Core.fwBegin (c : Core) (r : MbReq) : Core × Nat × Nat × List Byte :=
  let h := padTo 160 r.body
  if c.fw.staged.isSome then c.unstage.no stDENIED 2
  else
    let b := c.nextBank
    Core.ok { c with fw := { c.fw with staged := some (b, h), written := [], heads := SMap.set [] c.fw.heads b [] } } (toBytes 1 b)
/-- MB_FW_BEGIN. -/
def execMbFwBegin (s : State) : Host.Outcome State Fault Refusal := s.onMach (fun m => m.mbAct (mbIs 0x18) Core.fwBegin)

/-- MB_FW_WRITE. -/
def Mach.fwWrite (m : Mach) (r : MbReq) : MbAns :=
  match m.core.fw.staged with
  | none => .done m stDENIED 2 []
  | some (b, h) =>
    let off := r.field 0 4
    let n := r.field 4 2
    if leAt h 4 4 < off + n then .done m stBOUND 0 []
    else .done ((m.write (bankBase b + off) (r.data n)).onCore (fun c =>
      { c with fw := { c.fw with written := c.fw.written ++ [(off, n)] } })) stOK 0 []
/-- MB_FW_WRITE. -/
def execMbFwWrite (s : State) : Host.Outcome State Fault Refusal := s.onMach (fun m => m.mbRow (mbIs 0x19) Mach.fwWrite)

/-- An image verified: every byte written, its digest, its signature (R337). -/
def Fuses.imageGood (f : Fuses) (h body : List Byte) (whole : Bool) : Bool :=
  whole && decide (sha384 body = (h.drop 16).take 48) && sigUnder 0 f.fwrev (h.take 64) ((h.drop 64).take 96)

/-- Energy-class costs of release 1.0 (Table 14.1). -/
def costsOne (prefill : Bool) : List Nat :=
  if prefill then [0, 3, 5, 10, 20, 30, 40, 60, 80, 120, 160, 240, 320, 480, 640, 960]
  else [0, 2, 4, 8, 16, 24, 32, 48, 64, 96, 128, 192, 256, 384, 512, 768]

/-- The tables an image carries loaded: WGH_ECT, and DOMS and HUB of WGH_STACK but for a builder's layout (R317, R321,
Table 19.4; log entry 33). -/
def Core.loadTables (c : Core) (h : List Byte) : Core :=
  let cost := fun (role k : Nat) =>
    if leAt h 8 4 = 0x10000 then (costsOne (decide (role = 1))).getD k 0 else Config.classCost h role k % 65536
  let c : Core := (List.range 64).foldl (fun (c : Core) i =>
    c.wr (R.WGH_ECT_COST (i / 16) (i % 16 / 4) (i % 4)) (cost (i / 16) (i % 16))) c
  let asm := c.rd R.STG_STRAP_ASM
  if asm = 3 then c
  else (List.range (if asm = 1 then 12 else 24)).foldl (fun (c : Core) s =>
    let x := Config.stackMap h asm s
    (c.wr (R.WGH_STACK_DOMS s) x.1).wr (R.WGH_STACK_HUB s) x.2) c

/-- A verified image started from a bank. -/
def Core.startFirmware (c : Core) (b : Nat) : Core :=
  let h := SMap.get [] c.fw.heads b
  let c := (c.wr R.CH_FWVER_RELEASE (leAt h 8 4)).wr R.CH_FWVER_SVN (leAt h 12 2)
  let c := (c.wr R.CH_FWVER_BANK b).wr R.CH_FWVER_NEXT b
  (c.wr R.CH_FWVER_PEND 0).wr R.CH_FWVER_ROM 0

/-- A stage completed (Table 16.9). -/
def Core.stageDone (c : Core) (n : Nat) : Core := (c.wr R.STG_STATUS_STAGE n).wr (R.STG_TIME_AT n) c.now

/-- MB_FW_COMMIT: the boot ROM starts the image, which ends stage 2; a running release marks it for the next compute-only
reset. -/
def Mach.fwCommit (m : Mach) (f : Fuses) : MbAns :=
  match m.core.fw.staged with
  | none => .done m stFAILED 0 []
  | some (b, h) =>
    let len := leAt h 4 4
    let whole := decide (coveredTo m.core.fw.written m.core.fw.written.length 0 = len)
    if !f.imageGood h (m.read (bankBase b) len) whole then .done m stFAILED 0 []
    else if leAt h 12 2 < f.fwsvn then .done m stDENIED 3 []
    else
      let c : Core := m.core.unstage
      let c : Core := { c with fw := { c.fw with heads := SMap.set [] c.fw.heads b h } }
      let c := if c.rd R.CH_FWVER_ROM = 1 then
          (let c := (c.startFirmware b).loadTables h
           if c.rd R.STG_STATUS_STAGE < 2 then c.stageDone 2 else c)
        else (c.wr R.CH_FWVER_PEND 1).wr R.CH_FWVER_NEXT b
      .done { m with core := c } stOK 0 (toBytes 4 (leAt h 8 4) ++ toBytes 1 b)
/-- MB_FW_COMMIT. -/
def execMbFwCommit (s : State) : Host.Outcome State Fault Refusal :=
  s.onMach (fun m => m.mbRow (mbIs 0x1A) (fun m _ => m.fwCommit s.fuses))

/-! ## Coordinates (R272) -/

/-- Whether this field's bits of a body go into its register. -/
def Core.copyFld (c : Core) (img : Nat) (f : Fld) : Core := c.wr f (bits img f.lo f.w)
/-- Several fields. -/
def Core.copyFlds (c : Core) (img : Nat) (fs : List Fld) : Core := fs.foldl (fun c f => c.copyFld img f) c

/-- Chiplets per assembly (Table 19.4). -/
def perAssembly (asm : Nat) : Nat := match asm with | 0 => 8 | 1 => 4 | _ => 12
/-- The job scale class of a tier (Table 18.4). -/
def scaleOf (tier : Nat) : Nat := match tier with | 0 => 512 | 1 => 4096 | _ => 16384

/-- MB_SELF; SLOT stays as the strap gives it. -/
def Core.mbSelf (c : Core) (r : MbReq) : Core × Nat × Nat × List Byte :=
  let v := r.field 0 8
  let n := (bits v 19 5 + 1) * (bits v 24 5 + 1) * (bits v 29 4 + 1) * perAssembly (c.rd R.STG_STRAP_ASM)
  if scaleOf (c.rd R.CH_HMSTAT_SCALE) < n then c.no stDENIED 3
  else
    let c := c.copyFlds v [R.PRT_SELF_PLANE, R.PRT_SELF_X, R.PRT_SELF_Y, R.PRT_SELF_Z, R.PRT_SELF_XNM1, R.PRT_SELF_YNM1,
      R.PRT_SELF_ZNM1, R.PRT_SELF_VALID]
    (c.copyFlds (r.field 8 8) [R.PRT_HUBMAP_PORTS0, R.PRT_HUBMAP_PORTS1, R.PRT_HUBMAP_SPACEHUB]).ok []
/-- MB_SELF. -/
def execMbSelf (s : State) : Host.Outcome State Fault Refusal := s.onMach (fun m => m.mbAct (mbIs 0x30) Core.mbSelf)

/-! ## The bell and jobs (R293, R299, R305, R309) -/

/-- MB_BELLCFG; a PARENT of 0 names no chiplet (log entry 81). -/
def Core.bellcfg (c : Core) (r : MbReq) : Core × Nat × Nat × List Byte :=
  let v := r.field 0 8
  let n := bits v 3 5
  let par := r.field 8 8
  let child := fun k => r.field (16 + 8 * k) 8
  let far := fun a => decide (adPlane a ≠ c.rd R.PRT_SELF_PLANE)
  if 16 < n then c.no stFORMAT 32
  else if c.rd R.CH_BELLSTEP_STATE = 1 then c.no stDENIED 2
  else if c.rd R.CH_HMSTAT_TWIN = 0 ∧ ((decide (par ≠ 0) && far par) || (List.range n).any (fun k => far (child k))) = true then
    c.no stDENIED 3
  else
    let role := bits v 0 2
    let c := if role ≠ c.rd R.CH_BELLCFG_ROLE then c.takeRole role else c
    let c := c.copyFlds v [R.CH_BELLCFG_ROOT, R.CH_BELLCFG_NCHILD, R.CH_BELLCFG_RINGDIR, R.CH_BELLCFG_CHDIR, R.CH_BELLCFG_NTILES,
      R.CH_BELLCFG_SEALEN]
    let c := (c.wr R.CH_BELLPAR_PARENT par).wr R.PRT_BELLPAR_PARENT par
    let c := c.wr R.PRT_BELLDIR_RINGDIR (bits v 8 1)
    ((List.range n).foldl (fun (c : Core) k => c.wr (R.CH_BELLCHILD_CHILD k) (child k)) c).ok []
/-- MB_BELLCFG. -/
def execMbBellcfg (s : State) : Host.Outcome State Fault Refusal := s.onMach (fun m => m.mbAct (mbIs 0x31) Core.bellcfg)

/-- A job started (R293): its participants are the lit present tiles of the map. -/
def Core.startJob (c : Core) (seed s0 map : Nat) : Core :=
  let part := fun t => bit map t && c.present t && !c.tileDark t
  let n := ((List.range 960).filter part).length
  let c : Core := (List.range 960).foldl (fun (c : Core) t => (c.twr t R.SEQ_BELL_PART (b2n (part t))).twr t R.SEQ_BELL_PEND 0) c
  let c := ((c.wr R.CH_JOBSEED_SEED seed).wr R.CH_BELLCFG_NTILES n).wr R.CH_BELLSTEP_STEP (s0 + 2 ^ 32 - 1)
  let c := ((c.wr R.CH_BELLSTEP_STATE 1).wr R.CH_BELLSTAT_HSTAT 0).wr R.CH_BELLSTAT_WDOG 0
  let c := (c.wr R.CH_BELLSTAT_LOST 0).wr R.CH_BELLTIME_RINGAT (c.now % 2 ^ 32)
  let c : Core := { c with bell := { c.bell with
    lost := [], armed := some c.now, change := none, compared := [], exchanged := [] } }
  (c.startStep.paceStart).checkStep

/-- MB_JOB_START. -/
def Core.jobStart (c : Core) (r : MbReq) : Core × Nat × Nat × List Byte :=
  if c.rd R.CH_BELLSTEP_STATE = 1 ∨ c.serving = false then c.no stDENIED 2
  else
    let c := c.startJob (r.field 0 8) (r.field 8 4) (r.field 12 120)
    c.ok (toBytes 2 (c.rd R.CH_BELLCFG_NTILES))
/-- MB_JOB_START. -/
def execMbJobStart (s : State) : Host.Outcome State Fault Refusal := s.onMach (fun m => m.mbAct (mbIs 0x32) Core.jobStart)

/-- MB_ROLE: at once, or at a named ring. -/
def Core.mbRole (c : Core) (r : MbReq) : Core × Nat × Nat × List Byte :=
  let role := r.byte 0
  let s := r.field 4 4
  if c.rd R.CH_BELLSTEP_STATE ≠ 1 then (if s = 0 then (c.takeRole role).ok [] else c.no stDENIED 2)
  else if s = 0 then c.no stDENIED 2
  else Core.ok { c with bell := { c.bell with change := some (s, role) } } []
/-- MB_ROLE. -/
def execMbRole (s : State) : Host.Outcome State Fault Refusal := s.onMach (fun m => m.mbAct (mbIs 0x33) Core.mbRole)

/-! ## MB_ABORT (R212) -/

/-- The unit an abort names. -/
def MbReq.abortUnit (r : MbReq) : Nat := if r.byte 0 = 0 then 20 * r.byte 1 + r.byte 2 else 960 + r.byte 1
/-- Its queues: those of QMASK for a tile, every one of a group (log entry 36). -/
def MbReq.abortQueues (r : MbReq) : List Nat :=
  if r.byte 0 = 0 then (List.range 8).filter (bit (r.byte 3)) else List.range (queuesOf r.abortUnit)

/-- MB_ABORT; the note holds AUX and the targets past fetch. -/
def Core.mbAbort (c : Core) (r : MbReq) : Core × Option Nat × List Nat :=
  let u := r.abortUnit
  let qs := r.abortQueues
  let lo := r.field 6 2
  let n := (r.field 8 2 + 65536 - lo) % 65536
  let range := if r.byte 4 = 1 then some (lo, n + 1) else none
  let x := if r.note = [] then
      (let a := c.abortQueues u qs range
       (a.1, (a.2.1 % 65536 + 65536 * a.2.2.1) :: a.2.2.2))
    else (c, r.note)
  if x.1.abortOpen u qs x.2.tail then (x.1, none, x.2)
  else (x.1.dropMarks u qs, some (x.2.headD 0 - x.1.abortLost u qs), [])

/-- The unit an abort names must be there; its form has been checked by then (`MbReq.outOfRange`). -/
def Core.abortCheck (c : Core) (r : MbReq) : Option (Nat × Nat) :=
  if (r.byte 0 = 0 ∧ (48 ≤ r.byte 1 ∨ 20 ≤ r.byte 2)) ∨ (r.byte 0 = 1 ∧ 100 ≤ r.byte 1) ∨ c.unitThere r.abortUnit = false then
    some (stLOST, 0)
  else none

/-- MB_ABORT. -/
def execMbAbort (s : State) : Host.Outcome State Fault Refusal :=
  s.onMach (fun m => m.mbRow (mbIs 0x34) (fun m r =>
    match (if r.note = [] then m.core.abortCheck r else none) with
    | some (st, d) => .done m st d []
    | none =>
      let x := m.core.mbAbort r
      match x.2.1 with
      | some aux => .done { m with core := x.1 } stOK 0 (toBytes 4 aux)
      | none => .wait { m with core := x.1 } x.2.2))

/-! ## Windows (R279, R280) -/

/-- The refusals of an open request: the state, the run and its place, and reduced service. -/
def Core.winRefused (c : Core) (w v : Nat) : Option Nat :=
  let kind := bits v 4 1
  let row := bits v 24 6
  let col := bits v 30 5
  let s := bits v 35 7
  let base := bits v 48 22
  let len := bits v 70 23
  if c.rd (R.LAR_WIN_OPEN w) = 1 ∨ c.rd (R.LAR_WIN_CLOSING w) = 1 then some 2
  else if kind = 0 then
    if 48 ≤ row ∨ 20 ≤ col ∨ c.unitThere (20 * row + col) = false ∨ 2 ^ 20 < base + len then some 4
    else if c.reduced = true ∧ 2 ^ 19 < base + len then some 5 else none
  else if c.reduced then some 5
  else if c.unitThere (960 + s) = false ∨ c.rd (R.LAR_CTL_MODE s) = 0 ∨ 2 ^ 22 < base + len then some 4 else none

/-- MB_WIN_OPEN. -/
def Core.winOpenCmd (c : Core) (r : MbReq) : Core × Nat × Nat × List Byte :=
  let w := r.field 0 2
  let v := r.field 2 16
  match c.winRefused w v with
  | some d => c.no stDENIED d
  | none =>
    let c := c.copyFlds v [R.LAR_WIN_WR w, R.LAR_WIN_RD w, R.LAR_WIN_KIND w, R.LAR_WIN_LOCALONLY w, R.LAR_WIN_ROW w, R.LAR_WIN_COL w,
      R.LAR_WIN_SLICE w, R.LAR_WIN_BASELO w]
    let c := (c.wr (R.LAR_WIN_BASEHI w) (bits v 64 6)).wr (R.LAR_WIN_LENGTH w) (bits v 70 23)
    let c := (c.wr (R.LAR_WIN_GEN w) (c.rd (R.LAR_WIN_GEN w) + 1)).wr (R.LAR_WIN_OPEN w) 1
    c.ok (toBytes 2 (c.rd (R.LAR_WIN_GEN w)))
/-- MB_WIN_OPEN. -/
def execMbWinOpen (s : State) : Host.Outcome State Fault Refusal := s.onMach (fun m => m.mbAct (mbIs 0x38) Core.winOpenCmd)

/-- MB_WIN_CLOSE: done once the window is CLOSED. -/
def Core.winCloseCmd (c : Core) (r : MbReq) : Core × Bool :=
  let w := r.field 0 2
  let c := if r.note = [] then c.closeWin w else c
  (c, decide (c.rd (R.LAR_WIN_OPEN w) = 0))
/-- MB_WIN_CLOSE. -/
def execMbWinClose (s : State) : Host.Outcome State Fault Refusal :=
  s.onMach (fun m => m.mbRow (mbIs 0x39) (fun m r =>
    let x := m.core.winCloseCmd r
    if x.2 then .done { m with core := x.1 } stOK 0 (toBytes 2 (x.1.rd (R.LAR_WIN_GEN (r.field 0 2))))
    else .wait { m with core := x.1 } [1]))

/-! ## Route tables (R240) -/

/-- MB_RT_BUILD: the inactive epoch is LOADING while its tables are written, and then VALID (Table 10.5). -/
def Mach.rtBuild (m : Mach) (r : MbReq) : MbAns :=
  let e := 1 - m.core.rd R.NET_RTCTL_ACTIVE
  if r.note ≠ [] then .done (m.onCore (fun c => c.setEpoch e 2)) stOK 0 (toBytes 1 e)
  else if m.core.epochState e ≠ 0 then .done m stDENIED 2 []
  else .wait (m.onCore (fun c => c.buildEpoch e)) [1]
/-- MB_RT_BUILD. -/
def execMbRtBuild (s : State) : Host.Outcome State Fault Refusal := s.onMach (fun m => m.mbRow (mbIs 0x40) Mach.rtBuild)

/-- MB_RT_FLIP. -/
def Core.rtFlip (c : Core) (_ : MbReq) : Core × Nat × Nat × List Byte :=
  let e := 1 - c.rd R.NET_RTCTL_ACTIVE
  if c.epochState e ≠ 2 then c.no stDENIED 2 else c.flipEpoch.ok (toBytes 1 e)
/-- MB_RT_FLIP. -/
def execMbRtFlip (s : State) : Host.Outcome State Fault Refusal := s.onMach (fun m => m.mbAct (mbIs 0x41) Core.rtFlip)

/-- MB_RT_FREE: it waits for the DRAINING epoch's count to reach zero. -/
def Mach.rtFree (m : Mach) (r : MbReq) : MbAns :=
  let c := m.core
  let e := 1 - c.rd R.NET_RTCTL_ACTIVE
  if c.epochState e ≠ 3 then (if r.note = [] then .done m stDENIED 2 [] else .done m stOK 0 (toBytes 1 e))
  else if c.rd (R.NET_EPCNT_COUNT e) = 0 then .done (m.onCore (fun c => c.freeEpoch e)) stOK 0 (toBytes 1 e)
  else .wait m [1]
/-- MB_RT_FREE. -/
def execMbRtFree (s : State) : Host.Outcome State Fault Refusal := s.onMach (fun m => m.mbRow (mbIs 0x42) Mach.rtFree)

/-! ## The larder (R176, R178) -/

/-- No write-back of a dirty line is under way. -/
def Core.evictsDone (c : Core) : Bool := c.lar.fetches.all (fun f => !(f.evict && !f.done))

/-- LAR_CTL's settings written; WCLASS is 0 in cache mode. -/
def Core.larSettings (c : Core) (s v : Nat) : Core :=
  let c := (c.wr (R.LAR_CTL_MWIN s) (bits v 2 8)).wr (R.LAR_CTL_FARNC s) (bits v 10 1)
  c.wr (R.LAR_CTL_WCLASS s) (if bit v 0 then bits v 1 1 else 0)

/-- MB_LAR_SET: a change of mode takes the slice out of the interleave and waits for its switch to end. -/
def Mach.larSet (m : Mach) (r : MbReq) : MbAns :=
  let c := m.core
  let s := r.byte 0
  let v := r.field 8 8
  if r.note ≠ [] then (if c.rd (R.LAR_CTL_STATE s) = 1 then .wait m r.note else .done m stOK 0 [])
  else if c.reduced then .done m stDENIED 5 []
  else if !c.unitThere (960 + s) then .done m stLOST 0 []
  else if c.rd R.CH_CRCTL_SLICE = s ∧ c.rd R.STG_STATUS_PASSU = 1 then .done m stDENIED 2 []
  else if bits v 0 1 = c.rd (R.LAR_CTL_MODE s) then .done (m.onCore (fun c => c.larSettings s v)) stOK 0 []
  else
    let m := m.flushCaches
    .wait (m.onCore (fun c =>
      let c := c.spreadIlv (c.cacheSlices.filter (fun x => decide (x ≠ s)))
      ((c.larSettings s v).wr (R.LAR_CTL_MODE s) (bits v 0 1)).wr (R.LAR_CTL_STATE s) 1)) [1]
/-- MB_LAR_SET. -/
def execMbLarSet (s : State) : Host.Outcome State Fault Refusal := s.onMach (fun m => m.mbRow (mbIs 0x48) Mach.larSet)

/-- MB_LAR_ILV: BYPASS changes once every cache line is written back and invalidated. -/
def Mach.larIlv (m : Mach) (r : MbReq) : MbAns :=
  if m.core.reduced = true ∧ r.byte 0 = 0 then .done m stDENIED 5 []
  else
    let m := m.flushCaches
    if m.core.evictsDone then .done (m.onCore (fun c => c.wr R.LAR_ILVCTL_BYPASS (r.byte 0))) stOK 0 [] else .wait m [1]
/-- MB_LAR_ILV. -/
def execMbLarIlv (s : State) : Host.Outcome State Fault Refusal := s.onMach (fun m => m.mbRow (mbIs 0x49) Mach.larIlv)

/-! ## Settings (R316, R335) -/

/-- MB_CAP: `k` returns to 1. -/
def Core.mbCap (c : Core) (r : MbReq) : Core × Nat × Nat × List Byte :=
  let w := r.field 0 2
  if w < 300 ∨ 750 < w then c.no stDENIED 4
  else
    let c : Core := { c with wgh := { c.wgh with kNum := 1, kDen := 1 } }
    ((c.wr R.WGH_CTL_CAPW w).wr R.WGH_POWER_K 256).ok []
/-- MB_CAP. -/
def execMbCap (s : State) : Host.Outcome State Fault Refusal := s.onMach (fun m => m.mbAct (mbIs 0x50) Core.mbCap)

/-- Bits `lo` to `hi` of a mask. -/
def maskOf (lo hi : Nat) : Nat := 2 ^ (hi + 1) - 2 ^ lo

/-- The bits MB_SETREG may write at an offset; none elsewhere (R335). -/
def setregMask (off : Nat) : Nat :=
  if off % 8 ≠ 0 then 0
  else if off = 0x50000 then maskOf 16 43
  else if off = 0x50008 then maskOf 0 44
  else if off = 0x50010 then maskOf 0 19
  else if 0x50100 ≤ off ∧ off < 0x50100 + 8 * 24 then maskOf 0 21
  else if 0x50100 ≤ off ∧ off < 0x50100 + 8 * 29 then maskOf 0 13
  else if 0x50300 ≤ off ∧ off < 0x50380 then maskOf 0 63
  else if 0x50400 ≤ off ∧ off < 0x50400 + 8 * 24 then maskOf 10 34
  else if off = 0x30080 ∨ off = 0x30088 then maskOf 0 63
  else if off = 0x400018 then maskOf 0 63
  else if off = 0x400028 then maskOf 0 47
  else if off = 0x60200 then maskOf 32 63
  else 0

/-- The bits kept of a write: a reserved RW field ignores its value (R10), as NET_TIMERS[63:48] does (Table 10.7). -/
def setregKeep (off : Nat) : Nat := if off = 0x400018 then maskOf 0 47 else setregMask off

/-- A value that the register's chapter forbids: a reserved code or policy, a limit of R320, a change that waits for the
bell to be IDLE (R310, R315, R317, R320). -/
def Core.setregBad (c : Core) (off old new : Nat) : Bool :=
  let busy := decide (c.rd R.CH_BELLSTEP_STATE ≠ 0)
  if off = 0x50000 then busy && decide (bits old 16 16 ≠ bits new 16 16)
  else if off = 0x50008 then
    (List.range 4).any (fun r => decide (bits new (16 + 2 * r) 2 = 3)) || decide (76 < bits new 24 7) || decide (76 < bits new 31 7)
      || decide (76 < bits new 38 7)
  else if off = 0x50010 then decide (95 < bits new 0 8) || decide (105 < bits new 8 8)
  else if 0x50100 ≤ off ∧ off < 0x50200 then decide (76 < bits new 0 7) || decide (76 < bits new 7 7)
  else if 0x50300 ≤ off ∧ off < 0x50380 then busy && decide (old ≠ new)
  else false

/-- MB_SETREG. SEQ_ALLOW.CAP shows TCAP (R315, log entry 74). -/
def Core.setreg (c : Core) (r : MbReq) : Core × Nat × Nat × List Byte :=
  let off := r.field 0 4
  let mask := r.field 16 8
  let old := (c.cword off).toNat
  let new := masked old (r.field 8 8) (mask &&& setregKeep off)
  if setregMask off = 0 ∨ mask &&& (2 ^ 64 - 1 - setregMask off) ≠ 0 ∨ c.setregBad off old new = true then c.no stDENIED 4
  else (c.setCword off (BitVec.ofNat 64 new)).ok []
/-- MB_SETREG. -/
def execMbSetreg (s : State) : Host.Outcome State Fault Refusal := s.onMach (fun m => m.mbAct (mbIs 0x51) Core.setreg)

/-! ## Row pairs and halves (R322, R323) -/

/-- The refusals of a request to darken a row pair. -/
def Core.darkRefused (c : Core) (d : Nat) : Bool :=
  let ps := c.enabledPairs
  let dark := (ps.filter (fun x => decide (x = d) || !c.pairLit x)).length
  let busy := fun t => decide (c.trd t R.SEQ_BELL_PART = 1) || !c.unitIdle t
  decide (c.rd R.CH_BELLCFG_ROLE ≠ 2) || decide (c.rd R.CH_BELLSTEP_STATE ≠ 0) || decide (ps.length < 2 * dark)
    || (List.range 40).any (fun i => busy (40 * d + i))

/-- MB_DARK with bit 0 clear: a pair already DARK is left so, once the request is one R322 allows. -/
def Mach.mbDark (m : Mach) (r : MbReq) : MbAns :=
  let d := r.byte 0
  let dark := decide (m.core.rd (R.WGH_DOMST_MODE d) = 2)
  if 24 ≤ d then .done m stDENIED 4 []
  else if r.note ≠ [] then (if dark then .done m stOK 0 [] else .wait m r.note)
  else if m.core.darkRefused d then .done m stDENIED 2 []
  else if dark then .done m stOK 0 []
  else if m.core.pairLit d then .wait (m.onCore (fun c => c.darken d)) [1]
  else .done m stDENIED 2 []
/-- MB_DARK. -/
def execMbDark (s : State) : Host.Outcome State Fault Refusal :=
  s.onMach (fun m => m.mbRow (fun r => mbIs 0x52 r && !bit (r.byte 1) 0) Mach.mbDark)

/-- Row pairs that reduced service keeps dark (Table 16.3). -/
def darkReduced (d : Nat) : Bool := (decide (8 ≤ d) && decide (d ≤ 11)) || decide (20 ≤ d)

/-- MB_DARK with bit 0 set. -/
def Mach.mbLight (m : Mach) (r : MbReq) : MbAns :=
  let d := r.byte 0
  if 24 ≤ d then .done m stDENIED 4 []
  else if m.core.pairLit d then .done m stOK 0 []
  else if r.note ≠ [] then .wait m r.note
  else if m.core.disabled (2 * d) then .done m stDENIED 3 []
  else if m.core.reduced && darkReduced d then .done m stDENIED 5 []
  else if m.core.rd (R.WGH_DOMST_MODE d) ≠ 2 then .done m stDENIED 2 []
  else .wait (m.onCore (fun c => c.order d 3)) [1]
/-- MB_DARK_LIGHT. -/
def execMbDarkLight (s : State) : Host.Outcome State Fault Refusal :=
  s.onMach (fun m => m.mbRow (fun r => mbIs 0x52 r && bit (r.byte 1) 0) Mach.mbLight)

/-- A slice of the half stands in it. -/
def Core.inHalf (c : Core) (h s : Nat) : Bool := decide (c.groupDomain (960 + s) / 2 = 12 + h)

/-- The conditions of R323. -/
def Core.mayPark (c : Core) (h : Nat) : Bool :=
  (List.range 12).all (fun i => decide (c.rd (R.WGH_DOMST_MODE (12 * h + i)) = 2)) && decide (c.rd R.STG_STRAP_WARD % 2 ≠ h)
    && (List.range 2).all (fun e => decide (c.epochState e ≠ 1) && decide (c.epochState e ≠ 3))
    && (List.range 2).all (fun i => decide (c.rd (R.WGH_DOMST_MODE (24 + 2 * h + i)) = 0))

/-- MB_PARK (Table 14.5, rows 1 to 4). -/
def Mach.park (m : Mach) (r : MbReq) : MbAns :=
  let h := r.byte 0
  let d := 24 + 2 * h
  match r.note with
  | [] =>
    if m.core.halfParked (decide (h = 1)) then .done m stOK 0 []
    else if !m.core.mayPark h then .done m stDENIED 2 []
    else
      let m := m.flushCaches
      .wait (m.onCore (fun c => c.spreadIlv (c.cacheSlices.filter (fun s => !c.inHalf h s)))) [1]
  | [1] => if m.core.evictsDone then .wait (m.onCore (fun c => c.newTables [h])) [2] else .wait m [1]
  | [2] =>
    let m := m.onCore Core.ownTables
    if m.core.tablesDone then .wait (m.onCore (fun c => (c.order d 1).order (d + 1) 1)) [3] else .wait m [2]
  | _ => if m.core.halfParked (decide (h = 1)) then .done m stOK 0 [] else .wait m [3]
/-- MB_PARK. -/
def execMbPark (s : State) : Host.Outcome State Fault Refusal :=
  s.onMach (fun m => m.mbRow (fun r => mbIs 0x53 r && !bit (r.byte 1) 0) Mach.park)

/-- MB_PARK with bit 0 set (rows 5 to 7). -/
def Mach.unpark (m : Mach) (r : MbReq) : MbAns :=
  let h := r.byte 0
  let d := 24 + 2 * h
  match r.note with
  | [] =>
    if m.core.rd (R.WGH_DOMST_MODE d) = 0 ∧ m.core.rd (R.WGH_DOMST_MODE (d + 1)) = 0 then .done m stOK 0 []
    else if !m.core.halfParked (decide (h = 1)) then .done m stDENIED 2 []
    else .wait (m.onCore (fun c => (c.order d 3).order (d + 1) 3)) [1]
  | [1] =>
    if m.core.rd (R.WGH_DOMST_MODE d) = 0 ∧ m.core.rd (R.WGH_DOMST_MODE (d + 1)) = 0 then .wait (m.onCore (fun c => c.newTables)) [2]
    else .wait m [1]
  | _ =>
    let m := m.onCore Core.ownTables
    if m.core.tablesDone then
      .done ((m.respread (m.core.cacheSlices.filter (fun s => !m.core.inHalf h s))).onCore Core.parkPorts) stOK 0 []
    else .wait m [2]
/-- MB_PARK_UNPARK. -/
def execMbParkUnpark (s : State) : Host.Outcome State Fault Refusal :=
  s.onMach (fun m => m.mbRow (fun r => mbIs 0x53 r && bit (r.byte 1) 0) Mach.unpark)

end Sys2Proof.Machine
end

