-- ==== Sys2Proof/Machine/Crier.lean ====
section
/-! DEFINITION. The crier (R338 to R347): staging, verification, broadcast, reports, repair, start and relay of tile
firmware. -/

namespace Sys2Proof.Machine

/-! ## Staging (R341) -/

/-- Offsets of the crier slice: the staged manifest, the collection array, the staged image. -/
def manifestOff : Nat := 0x380000
def recordOff : Nat := 0x382000
def imageOff : Nat := 0x3C0000
/-- The crier slice. -/
def Core.crier (c : Core) : Nat := c.rd R.CH_CRCTL_SLICE

/-- The refusal of a piece: reduced service, or no crier slice reserved. -/
def Core.stageRefused (c : Core) : Option Nat :=
  if c.reduced then some 5 else if c.rd R.STG_STATUS_PASSU = 0 ∨ c.slicePresent c.crier = false then some 2 else none

/-- A piece of the manifest (`image` false) or the image written to the crier slice. -/
def Mach.stagePiece (m : Mach) (image : Bool) (r : MbReq) : MbAns :=
  let off := r.field 4 4
  let n := r.field 8 2
  match m.core.stageRefused with
  | some d => .done m stDENIED d []
  | none =>
    if (if image then 262144 else 4256) < off + n then .done m stBOUND 0 []
    else match m.sliceWrite m.core.crier ((if image then imageOff else manifestOff) + off) (r.data n) with
      | (m, true) => .done (m.onCore (fun c => c.wr R.CH_CRSTAT_STATE 1)) stOK 0 []
      | (m, false) => .done m stUNCORR 0 []
/-- MB_TFW_WRITE. -/
def execMbTfwWrite (s : State) : Host.Outcome State Fault Refusal :=
  s.onMach (fun m => m.mbRow (mbIs 0x20) (fun m r => m.stagePiece (decide (r.byte 0 = 1)) r))
/-- MB_CRY_RELAY_PIECE: KIND 0 or 1. -/
def execMbCryRelayPiece (s : State) : Host.Outcome State Fault Refusal :=
  s.onMach (fun m => m.mbRow (fun r => mbIs 0x22 r && decide (r.byte 0 ≠ 2)) (fun m r => m.stagePiece (decide (r.byte 0 = 1)) r))

/-! ## Verification (R340, R342) -/

/-- The bytes of a manifest before its signature. -/
def manSigned (man : List Byte) : Nat := 64 + 64 * manChunks man

/-- HASH of a chunk in a manifest (Table 15.8). -/
def manHash (man : List Byte) (c : Nat) : List Byte := (man.drop (64 + 64 * c)).take 48

/-- A manifest and its image are good: form, signature, SVN floor, and the hash of every chunk. -/
def Fuses.tileGood (f : Fuses) (man image : List Byte) : Bool :=
  let n := manChunks man
  decide (leAt man 0 2 = 3) && decide (1 ≤ n) && decide (n ≤ 64) && decide (f.tsvn ≤ leAt man 8 2)
    && sigUnder 1 f.trev (man.take (manSigned man)) ((man.drop (manSigned man)).take 96)
    && (List.range n).all (fun c => decide (sha384 ((image.drop (4096 * c)).take 4096) = manHash man c))

/-- The default tile image of the running counting-house image (R360). -/
def Core.defaultImage (c : Core) : List Byte × List Byte :=
  let x := Config.defaultTile (SMap.get [] c.fw.heads (c.rd R.CH_FWVER_BANK))
  (padTo 4256 x.1, padTo 262144 x.2)

/-- Bytes of the broadcast's image: its default, or the staged copy read from the crier slice. -/
def Mach.imageBytes (m : Mach) (dflt : Bool) (off n : Nat) : Mach × Option (List Byte) :=
  if dflt then (m, some ((m.core.defaultImage.2.drop off).take n)) else m.sliceRead m.core.crier (imageOff + off) n

/-- The manifest to broadcast. -/
def Mach.manifestBytes (m : Mach) (dflt : Bool) : Mach × Option (List Byte) :=
  if dflt then (m, some m.core.defaultImage.1) else m.sliceRead m.core.crier manifestOff 4256

/-- An image has been staged: its manifest's FORMAT is not zero. -/
def Mach.imageStaged (m : Mach) : Bool := m.read (sliceBase m.core.crier + manifestOff) 2 != [0, 0]

/-! ## Broadcast (R343) -/

/-- A packet sent by the hash station of a row, beside its west row-end slice, along the row (R229). -/
def Core.stationSend (c : Core) (row : Nat) (off : Nat) (bs : List Byte) : Core :=
  let a := c.tileAddr (20 * row) off
  match c.spanPresent a false 19 with
  | [] => c
  | t :: _ =>
    let p : Packet := {
      typ := 8, mcast := true, mlast := 19, len := bs.length, dst := a, src := c.pageAddr 0,
      epoch := c.rd R.NET_RTCTL_ACTIVE, payload := bs }
    c.enterMesh p (1100 + row) (23 * row) 4 (c.tileRouter t) t none

/-- The CSEAL table, in packets of up to 512 bytes. -/
def cseals (man : List Byte) : List Byte := (List.range (manChunks man)).flatMap (fun c => (man.drop (112 + 64 * c)).take 16)

/-- One row's broadcast: the table, then every chunk. -/
def Core.sendRow (c : Core) (man image : List Byte) (row : Nat) : Core :=
  let table := cseals man
  let c : Core := (tablePackets man).foldl (fun (c : Core) n =>
    c.stationSend row (512 * n) ((table.drop (512 * (n - 512))).take 512)) c
  (List.range (8 * manChunks man)).foldl (fun (c : Core) i => c.stationSend row (512 * i) ((image.drop (512 * i)).take 512)) c

/-- A target tile's loader LOADING: it holds nothing of the new image, and keeps the old one. -/
def Mach.setLoading (m : Mach) (t : Nat) : Mach :=
  (m.zero (incomingBase t) (incomingBase (t + 1))).onCore (fun c =>
    ((c.twr t R.SEQ_LOADER_LSTATE 1).twr t R.SEQ_LOADER_SEALT 0).twr t R.SEQ_FWMAP_CHUNKS 0)

/-- A chunk as a row's hash station takes it by unicast from the staged image: where its SHA-384 is not HASH[c] the station
asks again, `n` times in all, and then has none. -/
def Mach.stationChunk (m : Mach) (man : List Byte) (dflt : Bool) (c : Nat) : Nat → Mach × Option (List Byte)
  | 0 => (m, none)
  | n + 1 =>
    match m.imageBytes dflt (4096 * c) 4096 with
    | (m, some bs) => if sha384 bs = manHash man c then (m, some bs) else Mach.stationChunk m man dflt c n
    | (m, none) => Mach.stationChunk m man dflt c n

/-- Every chunk at a row's hash station: asked for once, and again up to three times; none where one does not verify. -/
def Mach.stationImage (m : Mach) (man : List Byte) (dflt : Bool) : Mach × Option (List Byte) :=
  (List.range (manChunks man)).foldl (fun (acc : Mach × Option (List Byte)) c =>
    match acc.2 with
    | none => acc
    | some got => match acc.1.stationChunk man dflt c 4 with
      | (m, some bs) => (m, some (got ++ bs))
      | (m, none) => (m, none)) (m, some [])

/-- One row's part of the broadcast (R343, steps 1 to 3); false where its station cannot verify a chunk. -/
def Mach.rowSends (m : Mach) (man : List Byte) (dflt : Bool) (row : Nat) : Mach × Bool :=
  match m.stationImage man dflt with
  | (m, some image) => (m.onCore (fun c => c.sendRow man image row), true)
  | (m, none) => (m, false)

/-- A verified broadcast begun: loaders LOADING, every row's station fed and its packets sent, and a REPORT to each target;
false where a station ends it with FAILED. -/
def Mach.broadcast (m : Mach) (man : List Byte) (dflt own : Bool) (ts : List Nat) (hops : Nat) : Mach × Bool :=
  let m : Mach := ts.foldl Mach.setLoading m
  let m := m.onCore (fun c =>
    let c := ((c.wr R.CH_CRSTAT_STATE 2).wr R.CH_CRSTAT_ROUND 0).wr R.CH_CRSTAT_TARGETS ts.length
    let c := ((c.wr R.CH_CRSTAT_VERIFIED 0).wr R.CH_CRSTAT_OOS 0).wr R.CH_CRSTAT_NCHUNK (manChunks man)
    { c with cry := {
      manifest := man, default := dflt, own := own, targets := ts, since := c.now,
      msgs := ts.map (fun t => (.report, t)), hops := hops, ended := false,
      measured := sha384 (man.take (manSigned man)) } })
  let r := ((ts.map (fun t => t / 20)).dedup).foldl (fun (acc : Mach × Bool) row =>
    if acc.2 then acc.1.rowSends man dflt row else acc) (m, true)
  if r.2 then r
  else (r.1.onCore (fun c => { (c.wr R.CH_CRSTAT_STATE 6) with cry := { c.cry with msgs := [], ended := true } }), false)

/-- A cry: verified, and its broadcast begun; false where it does not verify. -/
def Mach.cry (m : Mach) (f : Fuses) (dflt own : Bool) (ts : List Nat) (hops : Nat) : Mach × Bool :=
  let fail := fun (m : Mach) => (m.onCore (fun c => c.wr R.CH_CRSTAT_STATE 6), false)
  match m.manifestBytes dflt with
  | (m, none) => fail m
  | (m, some man) => match m.imageBytes dflt 0 (4096 * min 64 (manChunks man)) with
    | (m, none) => fail m
    | (m, some image) => if f.tileGood man image then m.broadcast man dflt own ts hops else fail m

/-- The present tiles of enabled rows. -/
def Core.cryTargets (c : Core) : List Nat := (List.range 960).filter c.present

/-- What a cry answers: its counts, the rounds used and the status of its relay. -/
def Core.cryBody (c : Core) : List Byte :=
  toBytes 2 (c.rd R.CH_CRSTAT_TARGETS) ++ toBytes 2 (c.rd R.CH_CRSTAT_VERIFIED) ++ toBytes 2 (c.rd R.CH_CRSTAT_OOS)
    ++ toBytes 1 (c.rd R.CH_CRSTAT_ROUND + 16 * c.cry.relayStatus)
/-- A broadcast that has ended verified at least one tile. -/
def Core.cryOk (c : Core) : Bool := decide (c.rd R.CH_CRSTAT_VERIFIED ≠ 0)

/-- MB_TFW_CRY and the relayed cry: refused unless the bell and the targets' queues are IDLE; answered when the broadcast
and its relay have ended. -/
def Mach.mbCry (m : Mach) (f : Fuses) (hops : Nat) (r : MbReq) : MbAns :=
  if r.note ≠ [] then
    (if m.core.cry.ended then .done m (if m.core.cryOk then stOK else stFAILED) 0 m.core.cryBody else .wait m r.note)
  else
    let ts := m.core.cryTargets
    if m.core.rd R.CH_BELLSTEP_STATE ≠ 0 ∨ ts.all m.core.unitIdle = false then .done m stDENIED 2 []
    else match m.cry f false false ts hops with
      | (m, true) => .wait m [1]
      | (m, false) => .done m stFAILED 0 []
/-- MB_TFW_CRY. -/
def execMbTfwCry (s : State) : Host.Outcome State Fault Refusal :=
  s.onMach (fun m => m.mbRow (mbIs 0x21) (fun m r => m.mbCry s.fuses (r.byte 0 % 16) r))
/-- MB_CRY_RELAY_CRY: KIND 2, which carries the hops still to go. -/
def execMbCryRelayCry (s : State) : Host.Outcome State Fault Refusal :=
  s.onMach (fun m => m.mbRow (fun r => mbIs 0x22 r && decide (r.byte 0 = 2)) (fun m r => m.mbCry s.fuses (r.byte 1 % 16) r))

/-! ## Reports and repair (R344) -/

/-- No packet of the broadcast is still on its way to a tile. -/
def Core.broadcastOver (c : Core) (t : Nat) : Bool :=
  c.net.fly.all (fun f => !(decide (f.pkt.typ = 8) && f.pkt.mcast && decide (adRow f.pkt.dst = t / 20)))
    && c.net.mstore.all (fun a => !(decide (a.pkt.typ = 8) && decide (a.unit = t)))

/-- A message of the crier taken by its loader. -/
def Core.takeMsg (c : Core) (k : CryKind) (t : Nat) : Core :=
  { c with cry := { c.cry with msgs := c.cry.msgs.erase (k, t) } }

/-- A loader's 16-byte record of a round. -/
def Core.cryRecord (c : Core) (t : Nat) : CryRec :=
  ⟨t, c.trd t R.SEQ_FWMAP_CHUNKS, decide (c.trd t R.SEQ_LOADER_SEALT = 1), c.rd R.CH_CRSTAT_ROUND⟩
/-- Its bytes. -/
def CryRec.bytes (r : CryRec) : List Byte := toBytes 8 r.chunks ++ toBytes 1 (b2n r.sealt) ++ toBytes 1 r.round ++ toBytes 6 0

/-- A loader reports: its record goes into the collection array, and tally 63 of the crier slice's bank counts it. -/
def Mach.reportTile (m : Mach) (t : Nat) : Mach :=
  let rec' := m.core.cryRecord t
  let m := m.onCore (fun c => { c with cry := { c.cry with recs := c.cry.recs ++ [rec'] } })
  if m.core.cry.own then m
  else match m.sliceWrite m.core.crier (recordOff + 16 * t) rec'.bytes with
    | (m, _) => m.onCore (fun c => c.tallyAdd (960 + c.crier) 63 1 false)

/-- REPORT at a tile, once nothing of the broadcast is on its way there; an absent or dark tile says nothing. -/
def Mach.report (m : Mach) (t : Nat) : Mach :=
  if m.core.cry.msgs.contains (.report, t) = false ∨ m.core.broadcastOver t = false then m
  else
    let m := m.onCore (fun c => (c.takeMsg .report t).wr R.CH_CRSTAT_STATE 3)
    if m.core.present t = true ∧ m.core.tileDark t = false then m.reportTile t else m
/-- REPORT. -/
def execReport (t : Nat) (s : State) : Host.Outcome State Fault Refusal := onlyIf (isTile t) (s.onMach (fun m => m.report t))

/-- One chunk pulled from the staged copy; one that cannot be read stays missing. -/
def Mach.pullChunk (m : Mach) (t c : Nat) : Mach :=
  match m.imageBytes m.core.cry.default (4096 * c) 4096 with
  | (m, none) => m
  | (m, some bs) => (List.range 8).foldl (fun (m : Mach) i => m.loadPacket t (8 * c + i) ((bs.drop (512 * i)).take 512)) m

/-- The table pulled where SEALT is 0, and every missing chunk. -/
def Mach.pullMissing (m : Mach) (t : Nat) : Mach :=
  let man := m.core.cry.manifest
  let table := cseals man
  let m : Mach := if m.core.trd t R.SEQ_LOADER_SEALT = 1 then m
    else (tablePackets man).foldl (fun (m : Mach) n => m.loadPacket t n ((table.drop (512 * (n - 512))).take 512)) m
  let missing := (List.range (manChunks man)).filter (fun c => !bit (m.core.trd t R.SEQ_FWMAP_CHUNKS) c)
  let m : Mach := missing.foldl (fun (m : Mach) c => m.pullChunk t c) m
  m.sealLoader t

/-- REPAIR at a tile: it pulls what it misses and reports again. -/
def Mach.repair (m : Mach) (t : Nat) : Mach :=
  if m.core.cry.msgs.contains (.repair, t) = false then m
  else
    let m := m.onCore (fun c => c.takeMsg .repair t)
    if m.core.present t = true ∧ m.core.tileDark t = false then (m.pullMissing t).reportTile t else m
/-- REPAIR. -/
def execRepair (t : Nat) (s : State) : Host.Outcome State Fault Refusal := onlyIf (isTile t) (s.onMach (fun m => m.repair t))

/-! ## Collection (R345) -/

/-- Targets not yet settled. -/
def Core.unsettled (c : Core) : List Nat :=
  c.cry.targets.filter (fun t => decide (t < 960) && c.cry.settled.all (fun x => decide (x.1 ≠ t)))

/-- A record of the round shows the table and every chunk. -/
def Core.complete (c : Core) (t : Nat) : Bool :=
  c.cry.recs.any (fun r => decide (r.tile = t) && decide (r.round = c.rd R.CH_CRSTAT_ROUND) && r.sealt
    && (List.range (manChunks c.cry.manifest)).all (bit r.chunks))

/-- The collection is over: every target has reported, or CRYTMO has passed. -/
def Core.collected (c : Core) : Bool :=
  let n := if c.cry.own then (c.cry.recs.filter (fun r => decide (r.round = c.rd R.CH_CRSTAT_ROUND))).length
    else c.tallyCount (960 + c.crier) 63
  decide (c.unsettled.length ≤ n) || decide (c.rd R.CH_CRCTL_CRYTMO ≤ c.now - c.cry.since)

/-- A tile settled. -/
def Core.settle (c : Core) (t : Nat) (v : Settled) : Core := { c with cry := { c.cry with settled := c.cry.settled ++ [(t, v)] } }

/-- One tile's state after a round. -/
def Core.settleTarget (c : Core) (t : Nat) : Core :=
  if c.complete t then (c.settle t .verified).bump R.CH_CRSTAT_VERIFIED 1
  else if c.rd R.CH_CRSTAT_ROUND < 3 then c
  else ((c.settle t .oos).bump R.CH_CRSTAT_OOS 1).takeOut t 3

/-- After a collection: the next repair round for what is not settled, or START. -/
def Core.nextRound (c : Core) : Core :=
  let left := c.unsettled
  if left = [] then { c with cry := { c.cry with msgs := [(.start, 0)] } }
  else
    let c := (c.bump R.CH_CRSTAT_ROUND 1).wr R.CH_CRSTAT_STATE 4
    { c with cry := { c.cry with msgs := left.map (fun t => (.repair, t)), since := c.now } }

/-- CRY_COLLECT. -/
def Core.cryCollect (c : Core) : Core :=
  if c.cry.ended ∨ c.cry.msgs.contains (.start, 0) = true ∨ c.rd R.CH_CRSTAT_STATE = 5 ∨ c.collected = false then c
  else
    let ts := c.unsettled
    let c := if c.cry.own then c else c.tallySet (960 + c.crier) 63 0 false false
    (ts.foldl Core.settleTarget c).nextRound
/-- CRY_COLLECT. -/
def execCryCollect (s : State) : Host.Outcome State Fault Refusal := s.onCore Core.cryCollect

/-! ## Start and relay (R346) -/

/-- Pieces of a run of bytes, of up to 256 bytes. -/
def piecesOf (kind len : Nat) : List RelayPiece :=
  (List.range (ceilDiv len 256)).map (fun i => { kind := kind, offset := 256 * i, len := min 256 (len - 256 * i) })

/-- Everything the relay sends: the manifest, the image, and the cry. -/
def Core.relayPieces (c : Core) : List RelayPiece :=
  let man := c.cry.manifest
  piecesOf 0 (manSigned man + 96) ++ piecesOf 1 (4096 * manChunks man) ++ [{ kind := 2, offset := 0, len := 0 }]

/-- A piece's request body. -/
def pieceBody (p : RelayPiece) (hops : Nat) (bs : List Byte) : List Byte :=
  toBytes 1 p.kind ++ toBytes 1 (if p.kind = 2 then hops - 1 else 0) ++ toBytes 2 0 ++ toBytes 4 p.offset ++ toBytes 2 p.len ++ toBytes 6 0 ++ bs

/-- A request of the counting-house to slot 0 of the U mailbox of the chiplet downstream; its TAG is free (log entry 36). -/
def Core.sendPiece (c : Core) (p : RelayPiece) (bs : List Byte) : Core :=
  let x := c.draw
  let tag := x.1.toNat % 2 ^ 32
  let c := x.2
  let body := pieceBody p c.cry.hops bs
  let pl := toBytes 2 0x22 ++ toBytes 1 (c.rd R.CH_FWVER_RELEASE / 2 ^ 16) ++ toBytes 1 0 ++ toBytes 4 tag ++ toBytes 8 0
    ++ toBytes 2 body.length ++ toBytes 14 0 ++ body
  let pkt : Packet := {
    typ := 8, ackreq := true, len := pl.length, dst := c.inSlot (c.selfAddr 6 (4 * 2 ^ 39)) c.downSlot, src := c.pageAddr 0,
    payload := pl }
  let c : Core := { c with cry := { c.cry with waiting := some { p with tag := tag }, relay := c.cry.relay.tail } }
  c.injectTo pkt unitSeam 5

/-- The bytes of a piece. -/
def Mach.pieceBytes (m : Mach) (p : RelayPiece) : Mach × Option (List Byte) :=
  if p.kind = 0 then (m, some ((m.core.cry.manifest.drop p.offset).take p.len))
  else if p.kind = 1 then m.imageBytes m.core.cry.default p.offset p.len else (m, some [])

/-- The next piece sent; the relay ends with none left, and where the D port is not ACTIVE or the staged copy cannot be
read. -/
def Mach.relayNext (m : Mach) : Mach :=
  match m.core.cry.relay with
  | [] => m.onCore (fun c => c.relayEnd stOK)
  | p :: _ =>
    if m.core.downActive then
      match m.pieceBytes p with
      | (m, some bs) => m.onCore (fun c => c.sendPiece p bs)
      | (m, none) => m.onCore (fun c => c.relayEnd stUNCORR)
    else m.onCore (fun c => c.relayEnd stLOST)

/-- Each verified tile leaves LOADING. -/
def Core.startTiles (c : Core) : Core :=
  c.cry.settled.foldl (fun (c : Core) x => if x.2 = .verified ∧ c.present x.1 = true then c.twr x.1 R.SEQ_LOADER_LSTATE 0 else c) c

/-- START, and the relay where hops are left. -/
def Mach.start (m : Mach) : Mach :=
  if m.core.cry.msgs.contains (.start, 0) = false then m
  else
    let m := m.onCore (fun c => (c.takeMsg .start 0).startTiles)
    if m.core.cry.hops = 0 then m.onCore (fun c => c.relayEnd stOK)
    else
      (m.onCore (fun c =>
        let c := c.wr R.CH_CRSTAT_STATE 5
        { c with cry := { c.cry with relay := c.relayPieces } })).relayNext
/-- START. -/
def execStart (s : State) : Host.Outcome State Fault Refusal := s.onMach Mach.start

/-- A response answers the piece that waits. -/
def Core.answersPiece (c : Core) (a : Arrival) : Bool :=
  c.cry.waiting.any (fun w => decide (leAt a.pkt.payload 0 2 = 0x22) && decide (leAt a.pkt.payload 4 4 = w.tag))

/-- MAILBOX_RESPONSE: it ends the relay where its status is not OK, and otherwise the next piece goes. -/
def Mach.relayResponse (m : Mach) (a : Arrival) : Mach :=
  if m.core.answersPiece a then
    let st := leAt a.pkt.payload 2 1 % 16
    let m := m.onCore (fun c =>
      let c := c.endArr a stOK
      { c with cry := { c.cry with waiting := none } })
    if st = stOK then m.relayNext else m.onCore (fun c => c.relayEnd st)
  else m.onCore (fun c => c.endArr a stDENIED)
/-- MAILBOX_RESPONSE. -/
def execMailboxResponse (i : Nat) (s : State) : Host.Outcome State Fault Refusal :=
  s.onMach (fun m => match m.core.arrOf i 8 unitSeam with
    | some a => m.relayResponse a
    | none => m)

end Sys2Proof.Machine
end

