-- ==== Sys2Proof/Machine/Fabric.lean ====
section
/-! DEFINITION. The routers of the mesh (chapter 10): PACKET_HOP and ESCAPE. -/

namespace Sys2Proof.Machine

/-- The next output of a packet and the packet as it leaves; none where it is ejected here (R224 to R228). -/
def Core.nextPort (c : Core) (f : Flying) : Packet × Option Nat :=
  let p := f.pkt
  let esc := c.escPort f.plane p.epoch f.here f.dest
  if p.vc = 1 then
    if f.here = f.dest then ({ p with esc := false }, none)
    else if p.esc then (p, some esc)
    else
      let out := dimStep f.here f.dest
      if c.linkState f.here f.plane out = 0 then (p, some out)
      else ({ p with esc := true }, some (c.escapeOuts f.plane p.epoch f.here f.dest).2)
  else if p.esc then (if f.here = f.dest then (p, none) else (p, some esc))
  else
    let p := if p.phase = 0 ∧ f.here = p.inter then { p with phase := 1, vc := p.vc + 1 } else p
    let tgt := if p.phase = 0 then p.inter else f.dest
    if f.here = tgt then (p, none)
    else
      let out := dimStep f.here tgt
      if c.linkState f.here f.plane out ≠ 0 ∨ f.waited = true then ({ p with esc := true, vc := 0 }, some esc) else (p, some out)

/-- The packets inside the die replaced. -/
def Core.setFly (c : Core) (l : List Flying) : Core := { c with net := { c.net with fly := l } }

/-- A packet gone from its input and from the mesh (R239). -/
def Core.leaveMesh (c : Core) (f : Flying) (i : Nat) : Core :=
  let c := ((c.setFly (c.net.fly.eraseIdx i)).leaveInput f.here f.plane f.inp f.pkt.flits).signal f.here f.plane f.inp f.pkt.vc
  (c.wr (R.NET_EPCNT_COUNT f.pkt.epoch) (c.rd (R.NET_EPCNT_COUNT f.pkt.epoch) - 1)).freeOwn

/-- A packet sent from an output (Table 10.9). -/
def Core.countSent (c : Core) (n k p : Nat) (pkt : Packet) : Core :=
  (c.bumpWrap (R.NET_PKTS_PKTS n k p) 1).bumpWrap (R.NET_BYTES_BYTES n k p) pkt.bytes

/-! ## Ejection (R222) -/

/-- Whether a unit takes one more request (R222): an empty inbound store always does. -/
def Core.storeRoom (c : Core) (u : Nat) : Bool :=
  let n := (c.net.arr.filter (fun a => decide (a.unit = u) && decide (chClass a.pkt.typ = .request))).length
  decide (n = 0) || Config.takesRequest u n

/-- A tile whose router answers for it: present, and dark (R18, R222). -/
def Core.routerAnswers (c : Core) (u : Nat) : Bool := decide (u < 960) && c.present u && c.tileDark u

/-- Whether a packet ejected here is taken (R222): what leaves the die, a copy, a response or a privileged packet always is. -/
def Core.takesHere (c : Core) (f : Flying) (p : Packet) : Bool :=
  f.port.isSome || p.mcast || decide (chClass p.typ ≠ .request) || c.routerAnswers f.unit || c.storeRoom f.unit

/-- A packet at its holding unit, with the port it came in by. -/
def Core.deliver (c : Core) (f : Flying) (unit : Nat) (p : Packet) : Core :=
  match f.port with
  | some q => c.sendOut q p false
  | none =>
    if c.routerAnswers unit = true ∧ chClass p.typ = .request then
      (c.tbump unit R.MEM_STATUS_REFUSED 1).answer unit p stDARK
    else c.arrive unit p f.via

/-- A multicast copy at a tile: a ring into its bell port, any other into its multicast store of four. -/
def Core.deliverCopy (c : Core) (t : Nat) (p : Packet) : Core :=
  if p.typ = 7 then c.arrive t p none
  else if c.tileDark t then
    (if chClass p.typ = .request then (c.tbump t R.MEM_STATUS_REFUSED 1).answer t p stDARK else c)
  else if 4 ≤ (c.net.mstore.filter (fun a => decide (a.unit = t))).length then
    (c.bump R.NET_STATUS_MDROP 1).answer t p stTIMEOUT
  else
    let a : Arrival := { id := c.net.nextId, unit := t, pkt := p }
    { c with net := { c.net with nextId := c.net.nextId + 1, mstore := c.net.mstore ++ [a] } }

/-- A multicast packet at the router of the position it was sent on to: where that is still present one copy is ejected,
numbered by its place among the present positions of the span, and the packet goes on to the next (R229, R230). -/
def Core.ejectCopy (c : Core) (f : Flying) (i : Nat) (p : Packet) : Core :=
  let ts := c.spanPresent p.dst p.maxis p.mlast
  let c := if ts.contains f.unit then
      (c.deliverCopy f.unit { p with part := (p.part + (ts.filter (fun t => decide (t < f.unit))).length) % 65536 }).countSent
        f.here f.plane 4 p
    else c
  match ts.find? (fun t => decide (f.unit < t)) with
  | none => c.leaveMesh f i
  | some t => c.setFly (c.net.fly.set i { f with pkt := p, unit := t, dest := c.tileRouter t, waited := false })

/-- A packet ejected. -/
def Core.eject (c : Core) (f : Flying) (i : Nat) (p : Packet) : Core :=
  if p.mcast then c.ejectCopy f i p
  else (((c.countSent f.here f.plane (c.unitSide f.unit) p).leaveMesh f i).deliver f f.unit p)

/-! ## A link (R219, R231, R232) -/

/-- The blocks of a packet: their lengths. -/
def blockLens (n : Nat) : List Nat := (List.range (ceilDiv n 64)).map (fun i => min 64 (n - 64 * i))

/-- What the receiver makes of a packet's blocks under the errors met: the bytes and the corrected blocks, or none where
a block is uncorrectable. Blocks corrected in a packet then discarded are not counted (DESIGN CHOICE, log entry 67). -/
def decodePacket (bs : List Byte) (errs : List (Nat × Nat × Nat)) : Option (List Byte × Nat) :=
  (blockLens bs.length).zipIdx.foldl (fun acc x => match acc with
    | none => none
    | some (bs, k) =>
      let es : List (Nat × Nat) := errs.foldl (fun es e => if e.1 = x.2 then addError es e.2.1 e.2.2 else es) []
      match decodeHop x.1 es with
      | .uncorrectable => none
      | .word left n =>
        some (left.foldl (fun bs e => if e.1 < 64 then bs.modify (64 * x.2 + e.1) (fun b => b ^^^ BitVec.ofNat 8 e.2) else bs) bs,
          k + n)) (some (bs, 0))

/-- The HEALTH packet of a router to the counting-house, which names the link by its register (R232, log entry 25). -/
def Core.linkHealth (c : Core) (n k p : Nat) : Core :=
  let pkt : Packet := {
    typ := 9, arg := 1, epoch := c.rd R.NET_RTCTL_ACTIVE, dst := c.pageAddr 0x60800,
    src := c.pageAddr (R.NET_LINK_STATE n k p).off }
  c.enterMesh pkt unitSeam n 5 (c.seamNear n) unitSeam none

/-- A link RETIRED in both directions in one plane (R232). -/
def Core.retireLink (c : Core) (n k p m : Nat) : Core :=
  let c := (c.wr (R.NET_LINK_STATE n k p) 1).wr (R.NET_LINK_STATE m k (opposite p)) 1
  c.bump R.NET_STATUS_RETIRED 1

/-- A packet crossing to the next router: the whole packet arrives and is decoded. A resend is counted in RESEND alone:
PKTS, BYTES and, of a packet discarded, CORR count what is accepted (DESIGN CHOICE, log entry 67). -/
def Core.cross (c : Core) (f : Flying) (i : Nat) (p : Packet) (out m : Nat) (errs : List (Nat × Nat × Nat)) : Core :=
  match decodePacket p.wire errs with
  | none =>
    let c := c.bump (R.NET_LINK_RESEND m f.plane (opposite out)) 1
    let n := if f.out = out then f.resends else 0
    if n = 3 then
      ((c.setFly (c.net.fly.set i { f with resends := 0 })).retireLink f.here f.plane out m).linkHealth f.here f.plane out
    else c.setFly (c.net.fly.set i { f with out := out, resends := n + 1 })
  | some (bs, k) =>
    let q := if bs = p.wire then p else Packet.ofWire bs
    let q := { q with hops := q.hops + 1 }
    let c := (c.bump (R.NET_LINK_CORR m f.plane (opposite out)) k).countSent f.here f.plane out p
    let c := (c.leaveInput f.here f.plane f.inp p.flits).enterInput m f.plane (opposite out) p.flits
    let c := c.setFly (c.net.fly.set i { f with
      pkt := q, here := m, inp := opposite out, out := 6, resends := 0, waited := false, heldAt := none })
    (c.signal f.here f.plane f.inp f.pkt.vc).signal m f.plane (opposite out) q.vc

/-! ## The order of an output (R221) -/

/-- Where a packet stands in the order of an output: VC1, VC0, then VC2 to VC5 in rotation from the one after the last. -/
def Core.vcOrder (c : Core) (key v : Nat) : Nat :=
  if v = 1 then 0 else if v = 0 then 1 else 2 + (v + 7 - SMap.get 5 c.net.turn key) % 4

/-- The output a packet wants next, the channel it leaves on, and whether it could go now. -/
def Core.asks (c : Core) (f : Flying) : Nat × Nat × Bool :=
  match c.nextPort f with
  | (p, none) => (if p.mcast then 4 else c.unitSide f.unit, p.vc, c.takesHere f p)
  | (p, some out) =>
    (out, p.vc, match neighbour f.here out with
      | none => false
      | some m => decide (c.linkState f.here f.plane out = 0) && c.hasRoom m f.plane (opposite out) p.vc p.flits)

/-- Whether no packet that could leave by the same output ranks before a packet. -/
def Core.firstAt (c : Core) (f : Flying) : Bool :=
  let x := c.asks f
  let key := inputKey f.here f.plane x.1
  c.net.fly.all (fun g => g.queued || decide (g.here ≠ f.here) || decide (g.plane ≠ f.plane)
    || (let y := c.asks g; !y.2.2 || decide (y.1 ≠ x.1) || decide (c.vcOrder key x.2.1 ≤ c.vcOrder key y.2.1)))

/-- An output's turn noted: the channel served last. -/
def Core.noteTurn (c : Core) (key v : Nat) : Core :=
  if v < 2 then c else { c with net := { c.net with turn := SMap.set 5 c.net.turn key v } }

/-- Ticks in which a packet was ready for an output and held for want of room, counted up to now (Table 10.9). -/
def Core.countStall (c : Core) (f : Flying) (out : Nat) : Core :=
  match f.heldAt with
  | none => c
  | some t =>
    let key := inputKey f.here f.plane out
    let c := c.bumpWrap (R.NET_STALL_STALL f.here f.plane out) (c.now - max t (SMap.get 0 c.net.stalled key))
    { c with net := { c.net with stalled := SMap.set 0 c.net.stalled key c.now } }

/-- A packet held at an output for want of room at the next input. -/
def Core.holdHop (c : Core) (f : Flying) (i out : Nat) : Core :=
  (c.countStall f out).setFly (c.net.fly.set i { f with heldAt := f.heldAt.or (some c.now) })

/-- A packet waiting at its source enters the mesh once its input has room, in the epoch then ACTIVE (R220, R239). -/
def Core.enterNow (c : Core) (f : Flying) (i : Nat) : Core :=
  if c.hasRoom f.here f.plane f.inp f.pkt.vc f.pkt.flits then
    let f := { f with queued := false, pkt := { f.pkt with epoch := c.rd R.NET_RTCTL_ACTIVE } }
    (c.setFly (c.net.fly.set i f)).entered f
  else c

/-- A packet's next hop, or its ejection; with no room, or another packet before it, it waits. -/
def Core.move (c : Core) (f : Flying) (i : Nat) (errs : List (Nat × Nat × Nat)) : Core :=
  match c.nextPort f with
  | (p, none) =>
    if c.takesHere f p = true ∧ c.firstAt f = true then
      (c.noteTurn (inputKey f.here f.plane (if p.mcast then 4 else c.unitSide f.unit)) p.vc).eject f i p
    else c
  | (p, some out) =>
    match neighbour f.here out with
    | none => c
    | some m =>
      if c.linkState f.here f.plane out ≠ 0 then c
      else if c.hasRoom m f.plane (opposite out) p.vc p.flits = false then c.holdHop f i out
      else if c.firstAt f = false then c
      else ((c.countStall f out).noteTurn (inputKey f.here f.plane out) p.vc).cross f i p out m errs

/-- PACKET_HOP: one packet's next hop or its ejection; `errs` are the symbol errors of the crossing (block, symbol,
value). A packet that has reached HOPS = 255 is discarded (R233). -/
def Core.hop (c : Core) (i : Nat) (errs : List (Nat × Nat × Nat)) : Core :=
  match c.net.fly[i]? with
  | none => c
  | some f =>
    if f.queued then c.enterNow f i
    else if 255 ≤ f.pkt.hops then ((c.leaveMesh f i).bump R.NET_STATUS_LOOP 1).deviceFatal 0x81 (meshUnit f.here f.plane 0)
    else c.move f i errs
/-- PACKET_HOP. -/
def execPacketHop (i : Nat) (errs : List (Nat × Nat × Nat)) (s : State) : Host.Outcome State Fault Refusal :=
  s.onCore (fun c => c.hop i errs)

/-- ESCAPE: a unicast packet of VC2 to VC5 has waited ESCWAIT beats for room; its next hop is the escape route's (R227). -/
def Core.escape (c : Core) (i : Nat) : Core :=
  match c.net.fly[i]? with
  | none => c
  | some f => if 2 ≤ f.pkt.vc ∧ f.pkt.esc = false ∧ f.queued = false then c.setFly (c.net.fly.set i { f with waited := true }) else c
/-- ESCAPE. -/
def execEscape (i : Nat) (s : State) : Host.Outcome State Fault Refusal := s.onCore (fun c => c.escape i)

end Sys2Proof.Machine
end

