-- ==== Sys2Proof/Machine/Ports.lean ====
section
/-! DEFINITION. Port logic (chapters 10 and 11): arrivals, ring relay and insertion, link messages, loss. -/

namespace Sys2Proof.Machine

/-! ## Arrivals (R241, R242, R254, R260, R263, R264; Table 12.6 row 6) -/

/-- Whether a packet's class at the ports is request. -/
def Packet.isRequest (p : Packet) : Bool := !typeReserved p.typ && decide (chClass p.typ = .request)
/-- A SRC that is an address of the plane. -/
def Core.srcValid (c : Core) (a : Nat) : Bool := adFormat a && c.inExtents a

/-- A packet of a port's receive buffer leaves it: its credits go back (R251). -/
def Core.takeRx (c : Core) (x : Rx) : Core :=
  ({ c with ports := { c.ports with rx := c.ports.rx.erase x } }).giveCredit x.port x.strand x.lvc x.blocks

/-- A packet discarded by the port logic. -/
def Core.hdrop (c : Core) (p : Nat) : Core := c.bump (R.PRT_STATE_HDROP p) 1

/-- An ACK sent back by a port. -/
def Core.portAck (c : Core) (p : Nat) (pkt : Packet) (st : Nat) : Core :=
  c.sendOut p { c.ackPacket unitSeam pkt st with epoch := c.rd R.NET_RTCTL_ACTIVE } false

/-- A mailbox request that fails the first check of Table 15.2: counted in CH_MBSTAT, with an ACK where it asks for one. -/
def Core.chmsgRefuse (c : Core) (p : Nat) (pkt : Packet) (st : Nat) : Core :=
  let c := (c.bump (R.CH_MBSTAT_REFUSED p) 1).wr (R.CH_MBSTAT_LASTREF p) st
  if pkt.ackreq ∧ c.srcValid pkt.src then c.portAck p pkt st else c

/-- A packet not accepted (R241, R242): an ACK for a request with a valid SRC, and otherwise STALE counts it; a CHMSG is
refused by R329 as well. -/
def Core.portRefuse (c : Core) (p : Nat) (pkt : Packet) (st : Nat) : Core :=
  if pkt.isRequest then (if c.srcValid pkt.src then c.portAck p pkt st else c)
  else
    let c := c.bump R.NET_STATUS_STALE 1
    if pkt.typ = 8 then c.chmsgRefuse p pkt st else c

/-- An epoch that takes packets: VALID or DRAINING. -/
def Core.epochOpen (c : Core) (e : Nat) : Bool :=
  decide (2 ≤ (if e = 0 then c.rd R.NET_RTCTL_STATE0 else c.rd R.NET_RTCTL_STATE1))

/-- Bring-up traffic, which the wired routes carry before the first ledger build: privileged packets, and reads of the
control page (Table 10.7; log entry 23). -/
def Core.wired (c : Core) (pkt : Packet) : Bool :=
  !c.epochOpen 0 && !c.epochOpen 1
    && (decide (chClass pkt.typ = .priv) || (decide (pkt.typ = 2) && decide (adClass pkt.dst = 2)))

/-- A header that R217, R218 or R242 refuses. -/
def Packet.badHeader (pkt : Packet) : Bool :=
  typeReserved pkt.typ || decide (pkt.resv ≠ 0) || pkt.mcast
    || (isData pkt.typ && (decide (pkt.len = 0) || decide (512 < pkt.len) || decide (pkt.payload.length ≠ pkt.len)))

/-- The checks of a packet at its entry router. -/
def Core.entryStatus (c : Core) (p : Nat) (pkt : Packet) : Option Nat :=
  if pkt.badHeader then some stFORMAT
  else if !(c.epochOpen pkt.epoch || c.wired pkt) then some stEPOCH
  else if c.elsewhere pkt.dst then some stLOST
  else if pkt.isRequest && (decide (4 ≤ p) || decide (adClass pkt.dst = 0) || decide (adClass pkt.dst = 1)
      || (decide (adClass pkt.dst = 2) && (decide (pkt.typ = 1) || decide (pkt.typ = 5)))) then some stDENIED
  else none

/-- The entry router of a strand's packet; a ring port's in a parked half takes the relay path to the other (R264). -/
def Core.entryOf (c : Core) (p s : Nat) : Nat :=
  if 4 ≤ p ∧ c.routerParked (strandRouter p s) = true then entryRouter (9 - p) 4 else strandRouter p s

/-- A packet admitted to the mesh; one whose way leads off the die by no ACTIVE port is refused. -/
def Core.letIn (c : Core) (p s : Nat) (pkt : Packet) : Core :=
  let e := c.entryOf p s
  match c.route pkt.dst e with
  | some (dest, unit, port) => c.enterMesh pkt (unitPort p) e 5 dest unit port (some p)
  | none => c.portRefuse p pkt stLOST

/-- A packet at an entry router. -/
def Core.entry (c : Core) (p s : Nat) (pkt : Packet) : Core :=
  let st := c.rd (R.PRT_STATE_STATE p)
  if st = 3 ∨ st = 4 then (if pkt.isRequest then c.portAck p pkt (if st = 3 then stRESET else stLOST) else c.hdrop p)
  else if st ≠ 2 then c
  else match c.entryStatus p pkt with
    | some e => c.portRefuse p pkt e
    | none => c.letIn p s pkt

/-- How a ring port takes a packet (R263): into the die, relayed to the other port, or discarded. -/
inductive RingWay where
  | die | relay | drop
  deriving DecidableEq, Repr

/-- BELL, CHMSG and HEALTH go by their DST; a request for this chiplet goes to its refusal (Table 12.6, row 6). -/
def Core.ringWay (c : Core) (pkt : Packet) : RingWay :=
  let own := decide (pkt.dst / 2 ^ 45 = c.selfTop)
  if pkt.typ = 7 ∨ pkt.typ = 8 ∨ pkt.typ = 9 then
    if own then .die else if pkt.dst / 2 ^ 49 = c.selfTop / 2 ^ 4 then .relay else .drop
  else if own && pkt.isRequest then .die else .drop

/-- Whether a packet that is to be admitted waits in the port for room at its entry router (R220). -/
def Core.entryWaits (c : Core) (p s : Nat) (pkt : Packet) : Bool :=
  let e := c.entryOf p s
  decide (c.rd (R.PRT_STATE_STATE p) = 2) && (c.entryStatus p pkt).isNone && (c.route pkt.dst e).isSome
    && !c.hasRoom e (c.nextPlane pkt (unitPort p)) 5 pkt.firstVc pkt.flits

/-- PORT_ARRIVAL: the first packet a port has received that is not to be relayed. -/
def Core.portArrival (c : Core) (p : Nat) : Core :=
  match c.ports.rx.find? (fun x => decide (x.port = p) && (decide (p < 4) || decide (c.ringWay x.pkt ≠ .relay))) with
  | none => c
  | some x =>
    if 4 ≤ p ∧ c.ringWay x.pkt = .drop then (c.takeRx x).hdrop p
    else if c.entryWaits p x.strand x.pkt then c
    else (c.takeRx x).entry p x.strand x.pkt
/-- PORT_ARRIVAL. -/
def execPortArrival (p : Nat) (s : State) : Host.Outcome State Fault Refusal :=
  onlyIf (decide (p < 6)) (s.onCore (fun c => c.portArrival p))

/-- RING_RELAY: a packet for another slot goes on by the other ring port, HOPS incremented (R263). -/
def Core.ringRelay (c : Core) (p : Nat) : Core :=
  match c.ports.rx.find? (fun x => decide (x.port = p) && decide (c.ringWay x.pkt = .relay)) with
  | none => c
  | some x =>
    let c := c.takeRx x
    if 255 ≤ x.pkt.hops + 1 then c.hdrop p else c.sendOut (9 - p) { x.pkt with hops := x.pkt.hops + 1 } true
/-- RING_RELAY. -/
def execRingRelay (p : Nat) (s : State) : Host.Outcome State Fault Refusal :=
  onlyIf (decide (p = 4) || decide (p = 5)) (s.onCore (fun c => c.ringRelay p))

/-! ## Link messages (Table 11.4) -/

/-- The first message of a type waiting at a port, and the state without it. -/
def Core.takeLctl (c : Core) (p t : Nat) : Option (Lctl × Core) :=
  (c.ports.lctl.find? (fun m => decide (m.port = p) && decide (m.ltype = t))).map (fun m =>
    (m, { c with ports := { c.ports with lctl := c.ports.lctl.erase m } }))

/-- The requests a hub port holds complete with TARGET_LOST, and everything else it holds is dropped; ring packets wait
(R261, R266). -/
def Core.completeHeld (c : Core) (p : Nat) : Core :=
  if 4 ≤ p then c
  else
    let hs := c.ports.held.filter (fun h => decide (h.port = p))
    let c := { c with ports := { c.ports with held := c.ports.held.filter (fun h => decide (h.port ≠ p)) } }
    hs.foldl (fun (c : Core) h => if h.pkt.isRequest then c.answer (unitPort p) h.pkt stLOST else c) c

/-- The requests held for a ring neighbour that presents HELD complete with TARGET_RESET (Table 11.8, R269); what else is
held for it waits. -/
def Core.settlePeer (c : Core) (p : Nat) : Core :=
  let due := fun (h : Held) => decide (h.port = p) && decide (c.peer p = 3) && c.forPeer p h.pkt && h.pkt.ackreq && !h.relay
  let hs := c.ports.held.filter due
  let c := { c with ports := { c.ports with held := c.ports.held.filter (fun h => !due h) } }
  hs.foldl (fun (c : Core) h => c.answer (unitPort p) h.pkt stRESET) c
/-- FRAME. -/
def execFrame (p s : Nat) (obs : FrameObs) (st : State) : Host.Outcome State Fault Refusal :=
  onlyIf (isStrand p s) (st.onCore (fun c => (c.frameIn p s obs).settlePeer p))

/-- ABSENT_NOTICE. -/
def execAbsentNotice (p : Nat) (s : State) : Host.Outcome State Fault Refusal :=
  onlyIf (decide (p < 6)) (s.onCore (fun c => match c.takeLctl p 1 with
    | none => c
    | some (_, c) => (c.partnerAbsent p).completeHeld p))

/-- PORT_LOSS: LOSSTMO after the last frame of a partner counted ABSENT (R261). -/
def execPortLoss (p : Nat) (s : State) : Host.Outcome State Fault Refusal :=
  onlyIf (decide (p < 6)) (s.onCore (fun c =>
    if c.ports.absent.contains p ∧ c.rd R.PRT_TIMERS_LOSSTMO ≤ c.now - SMap.get 0 c.ports.lastFrame p then c.completeHeld p else c))

/-- RETRAIN: ignored while the link is retraining (R259). LDIR is as the sender of the message sees it. -/
def execRetrain (p : Nat) (s : State) : Host.Outcome State Fault Refusal :=
  onlyIf (decide (p < 6)) (s.onCore (fun c => match c.takeLctl p 2 with
    | none => c
    | some (m, c) =>
      if nStrands p ≤ m.link ∨ c.sst p 0 m.link = 1 ∨ c.sst p 1 m.link = 1 ∨ c.sst p (1 - m.dir) m.link = 4 then c
      else c.retrain p m.link (1 - m.dir) (if m.width = 2 then 2 else 1)))

/-- RETIRE: ignored while the link is retraining (R259). -/
def execRetire (p : Nat) (s : State) : Host.Outcome State Fault Refusal :=
  onlyIf (decide (p < 6)) (s.onCore (fun c => match c.takeLctl p 3 with
    | none => c
    | some (m, c) =>
      let d := 1 - m.dir
      if nStrands p ≤ m.link ∨ c.sst p d m.link = 1 then c
      else if d = 0 then ((c.retireStrand p 0 m.link).reissueFrom p m.link).checkRetired p
      else ((c.sendDedup p m.link).retireStrand p 1 m.link).checkRetired p))

/-- DEDUP: packets listed were accepted; once an outbound strand is retired and its list ends, the others are reissued. -/
def execDedup (p : Nat) (s : State) : Host.Outcome State Fault Refusal :=
  onlyIf (decide (p < 6)) (s.onCore (fun c => match c.takeLctl p 4 with
    | none => c
    | some (m, c) =>
      let keep := fun (h : Held) => !(decide (h.port = p) && decide (h.strand = some m.link) && m.entries.contains h.lseq)
      let c := { c with ports := { c.ports with held := c.ports.held.filter keep } }
      if c.sst p 0 m.link = 4 ∧ m.entries.length < 30 then c.reissueFrom p m.link else c))

/-! ## Ring insertion (R267) -/

/-- The by-pass positions closed, as both ring ports report them. -/
def Core.setBypos (c : Core) (v : Nat) : Core := (c.wr (R.PRT_STATE_BYPOS 4) v).wr (R.PRT_STATE_BYPOS 5) v

/-- The hub ports are trained, and the positions before `k` are inserted or have used up their retries. -/
def Core.insertTurn (c : Core) (k : Nat) : Bool :=
  let bp := c.rd (R.PRT_STATE_BYPOS 4)
  (List.range 4).all (fun p => decide (2 ≤ c.rd (R.PRT_STATE_STATE p))) && bit bp k
    && (List.range k).all (fun j => !bit bp j || decide (4 ≤ SMap.get 0 c.ports.tries j))

/-- Whether all four strands of a position reach FULL or HALF. -/
def Core.positionTrains (c : Core) (k : Nat) (o : InsertObs) : Bool :=
  let ok := fun (p : Nat) (t : TrainObs) => decide (descCause p t.desc = 0)
    && decide (c.sst p 0 k ≠ 4) && decide (c.sst p 1 k ≠ 4)
    && decide (c.trainState p 0 k t.outDir ≠ 4) && decide (c.trainState p 1 k t.inDir ≠ 4)
  o.loopback && ok 4 o.up && ok 5 o.down

/-- A ring port after an insertion: in use, unless it already was. -/
def Core.joinRing (c : Core) (p : Nat) : Core :=
  if c.rd (R.PRT_STATE_STATE p) = 2 ∨ c.rd (R.PRT_STATE_STATE p) = 3 then c.pump p else c.openPort p

/-- One attempt at a position; while its traffic is not clean the chiplet goes on listening. -/
def Core.insert (c : Core) (k : Nat) (o : InsertObs) : Core :=
  let bp := c.rd (R.PRT_STATE_BYPOS 4)
  if !o.clean then c
  else if c.positionTrains k o then
    let c := ((c.setBypos (setBit bp k false)).setLink 4 k 1).setLink 5 k 1
    let c := ((c.trainLink 4 k o.up).trainLink 5 k o.down)
    let c := (c.joinRing 4).joinRing 5
    { c with ports := { c.ports with tries := SMap.set 0 c.ports.tries k 0 } }
  else
    let c := { c with ports := { c.ports with
      tries := SMap.set 0 c.ports.tries k (min 4 (SMap.get 0 c.ports.tries k + 1))
      failedAt := SMap.set 0 c.ports.failedAt k c.now } }
    let cause := if o.up.copies = [] ∧ o.down.copies = [] then 1 else 4
    if bp = 15 then (c.failPort 4 cause).failPort 5 cause else c

/-- RING_INSERTION: the first attempt at a position. -/
def execRingInsertion (k : Nat) (obs : InsertObs) (s : State) : Host.Outcome State Fault Refusal :=
  onlyIf (decide (k < 4)) (s.onCore (fun c =>
    if c.insertTurn k ∧ SMap.get 0 c.ports.tries k = 0 then c.insert k obs else c))

/-- INSERTION_RETRY: 100 ms after a failed attempt, up to three times. -/
def execInsertionRetry (k : Nat) (obs : InsertObs) (s : State) : Host.Outcome State Fault Refusal :=
  onlyIf (decide (k < 4)) (s.onCore (fun c =>
    let n := SMap.get 0 c.ports.tries k
    if c.insertTurn k ∧ 1 ≤ n ∧ n ≤ 3 ∧ 100000000 ≤ c.now - SMap.get 0 c.ports.failedAt k then c.insert k obs else c))

/-- POSITION_TRAFFIC_RESUMED: a position whose retries are used up is attempted again. -/
def execPositionTrafficResumed (k : Nat) (obs : InsertObs) (s : State) : Host.Outcome State Fault Refusal :=
  onlyIf (decide (k < 4)) (s.onCore (fun c =>
    if c.insertTurn k ∧ SMap.get 0 c.ports.tries k = 4 then c.insert k obs else c))

end Sys2Proof.Machine
end

