-- ==== Sys2Proof/Machine/Resets.lean ====
section
/-! DEFINITION. Control cores (R326, R327), supplies, resets and pins (chapters 16 and 19): power-on, full reset,
compute-only reset and warm restart, the thermal trip, the by-pass and VRING. -/

namespace Sys2Proof.Machine

/-! ## Control cores -/

/-- Cores not retired, lowest first. -/
def Core.goodCores (c : Core) : List Nat := (List.range 3).filter (fun n => !bit (c.rd R.CH_CORES_RETIRED) n)

/-- Cores retired, recorded in the ledger, with a snapshot (R326, R382). -/
def Core.retireCores (c : Core) (ns : List Nat) : Core :=
  if ns = [] then c
  else (ns.foldl (fun (c : Core) n =>
    (c.wr R.CH_CORES_RETIRED (setBit (c.rd R.CH_CORES_RETIRED) n true)).ledgerAdd ⟨9, n, 0, 0⟩) c).snapshot

/-- The pair and the spare chosen among the good cores, the lowest first (log entry 21); with fewer than two the chiplet
is device-fatal. -/
def Core.pairUp (c : Core) : Core :=
  match c.goodCores with
  | a :: b :: rest =>
    let taken := decide (c.rd R.CH_CORES_SPARE < 3) && (decide (c.rd R.CH_CORES_SPARE = a) || decide (c.rd R.CH_CORES_SPARE = b))
    let old := c.rd R.CH_CORES_SPARE
    let c := ((c.wr R.CH_CORES_ACTA a).wr R.CH_CORES_ACTB b).wr R.CH_CORES_SPARE (rest.headD 3)
    if taken && decide (rest = []) then c.spareUsed old else c
  | _ => (c.wr R.CH_CORES_SPARE 3).deviceFatal 0x83 0

/-- The self-test of all cores, `pass` the mask of those that pass, and a new pair. With no room for its entry no spare
counts as free (R380). -/
def Core.testCores (c : Core) (pass : Nat) : Core :=
  let ns := c.goodCores.filter (fun n => !bit pass n)
  let active := ns.contains (c.rd R.CH_CORES_ACTA) || ns.contains (c.rd R.CH_CORES_ACTB)
  let full := ns.any (fun n => c.ledgerFull ⟨9, n, 0, 0⟩)
  let c := c.retireCores ns
  if full && active then (c.wr R.CH_CORES_SPARE 3).deviceFatal 0x83 0 else c.pairUp

/-- CORE_SWAP: the swap is one step, at the end of which SWAPPING is clear again (log entry 21). -/
def Core.coreSwap (c : Core) (pass : Nat) : Core :=
  if c.rd R.STG_STATUS_STAGE = 0 ∨ c.coresLeft < 2 then c else (c.bump R.CH_CORES_SWAPS 1).testCores pass
/-- CORE_SWAP. -/
def execCoreSwap (pass : Nat) (s : State) : Host.Outcome State Fault Refusal := s.onCore (fun c => c.coreSwap pass)

/-- SPARE_SELF_TEST: a spare that fails is retired. -/
def Core.spareTest (c : Core) (pass : Bool) : Core :=
  let n := c.rd R.CH_CORES_SPARE
  if pass ∨ n = 3 ∨ c.rd R.STG_STATUS_STAGE = 0 then c else (c.retireCores [n]).wr R.CH_CORES_SPARE 3
/-- SPARE_SELF_TEST. -/
def execSpareSelfTest (pass : Bool) (s : State) : Host.Outcome State Fault Refusal := s.onCore (fun c => c.spareTest pass)

/-! ## Entry into compute-only reset (R172, R189, R281, R309, R324, R331, R365, R366) -/

/-- A tile's registers as a compute-only reset leaves them: MEM_RGN settled, MEM_TIMERS, MEM_ERRCNT, LOOM_CAP, SEQ_LOADER and
SEQ_FWMAP kept. -/
def Core.tileRegs (c : Core) (t : Nat) : Core :=
  let kept := fun off => (decide (0x1100 ≤ off) && decide (off < 0x1180)) || decide (off = R.MEM_TIMERS_DARKTMO.off)
    || decide (off = R.MEM_ERRCNT_CORR1.off) || decide (off = R.LOOM_CAP_PASS23.off) || decide (off = R.SEQ_LOADER_LSTATE.off)
    || decide (off = R.SEQ_FWMAP_CHUNKS.off)
  let c : Core := { c with treg := SMap.keep (fun k => decide (k / 0x4000 ≠ t) || kept (k % 0x4000)) c.treg }
  (List.range 16).foldl (fun (c : Core) n => (c.twr t (R.MEM_RGN_STATE n) 0).twr t (R.MEM_RGN_INBOUND n) 0) c

/-- The segments of a tile that no RETAIN region covers. -/
def Core.unretained (c : Core) (t : Nat) : List Nat :=
  (List.range 64).filter (fun g => !(c.regionOf t g).any (fun n => decide (c.trd t (R.MEM_RGN_MODE n) = 1)))

/-- A tile's memory: contents and tags kept in RETAIN regions alone; its operand cache and T registers zeroed (R142, R143,
R172). -/
def Mach.tileMem (m : Mach) (t : Nat) : Mach :=
  let m := (m.core.unretained t).foldl (fun (m : Mach) g => m.blankSegs t g (g + 1)) m
  let m := m.zero (cacheBase t) (cacheBase (t + 1))
  let m := m.zero (tregBase t) (tregBase (t + 1))
  let inCache := fun k => decide (cacheLineId t 0 ≤ k) && decide (k < cacheLineId (t + 1) 0)
  let retain := fun (c : Core) slot => (c.regionOf t (slot / 64)).any (fun n => decide (c.trd t (R.MEM_RGN_MODE n) = 1))
  { m with
    errs := SMap.keep (fun k => !inCache k) m.errs
    corr := m.corr.filter (fun k => !inCache k)
    core := { m.core with tiles := { m.core.tiles with
      tags := SMap.keep (fun k => decide (k / 4096 ≠ t) || retain m.core (k % 4096)) m.core.tiles.tags } } }

/-- Slots claimed when their writers end without success: FAILED where written into, else EMPTY (R166). -/
def Core.dropClaims (c : Core) : Core :=
  let c : Core := c.queues.cmds.foldl (fun (c : Core) x => c.endClaims x.unit x.claims x.wrote false) c
  (c.net.arr ++ c.net.mstore).foldl (fun (c : Core) a => c.endClaims a.unit a.claims a.wrote false) c

/-- Requests that came in by a port and are inside the die: each is answered TARGET_RESET by its port (R365). -/
def Core.answerInside (c : Core) : Core :=
  let one := fun (c : Core) (via : Option Nat) (pkt : Packet) => match via with
    | some p => if pkt.isRequest then c.portAck p pkt stRESET else c
    | none => c
  let c : Core := c.net.fly.foldl (fun (c : Core) f => one c f.via f.pkt) c
  (c.net.arr ++ c.net.mstore).foldl (fun (c : Core) a => one c a.port a.pkt) c

/-- The fabric emptied: no packet is inside the die, streams are forgotten, a DRAINING epoch is INVALID; link states are kept
as ledger state, and the telemetry of the ports starts again (log entry 37). -/
def Core.emptyFabric (c : Core) : Core :=
  let port := fun k => decide (0x500000 ≤ k) && decide (k < 0x500000 + 0x800 * 1104)
  let c : Core := { c with
    creg := SMap.keep (fun k => !port k || decide (k % 0x40 = 0x20)) c.creg
    net := { c.net with fly := [], arr := [], mstore := [], src := [], held := [], planes := [], draining := none, own := false } }
  let e := 1 - c.rd R.NET_RTCTL_ACTIVE
  let c := if c.epochState e = 3 then c.setEpoch e 0 else c
  (c.wr (R.NET_EPCNT_COUNT 0) 0).wr (R.NET_EPCNT_COUNT 1) 0

/-- The window directory closed: of each entry GEN is left, advanced where its close had not begun, and every other field
takes its reset value (R281, R366). -/
def Core.resetWins (c : Core) : Core :=
  (List.range 1024).foldl (fun (c : Core) w =>
    let g := c.rd (R.LAR_WIN_GEN w) + b2n (c.winOpen w)
    ((c.setCword (R.LAR_WIN_GEN w).off 0).setCword (R.LAR_WIN_LENGTH w).off 0).wr (R.LAR_WIN_GEN w) g) c

/-- Chiplet registers a compute-only reset returns to their reset values: the groups' queues, CH_MBSTAT and CH_CRSTAT, the
bell's, WGH_POWER and WGH_BUDGET, the larder's counters. -/
def resetByCompute (k : Nat) : Bool :=
  (decide (0x100000 ≤ k) && decide (k < 0x180000)) || (decide (0x60100 ≤ k) && decide (k < 0x60130)) || decide (k = 0x60208)
    || (decide (0x68000 ≤ k) && decide (k < 0x69000)) || decide (k = R.WGH_POWER_PWR.off) || decide (k = R.WGH_BUDGET_EROW.off)
    || (decide (0x40800 ≤ k) && decide (k < 0x41400))

/-- Control state emptied by the entry. -/
def Core.emptyLogic (c : Core) : Core :=
  let c : Core := { c with
    creg := SMap.keep (fun k => !resetByCompute k) c.creg
    queues := {}
    tiles := { c.tiles with pend := [], closing := [], accSrc := [] }
    lar := {}
    bell := {}
    mb := {}
    fw := { c.fw with staged := none, written := [] }
    cry := { measured := c.cry.measured }
    hm := { c.hm with report := [] }
    led := { c.led with retiring := [], got := [] } }
  let c : Core := (List.range 24).foldl (fun (c : Core) d => c.setTgt d (c.rd R.WGH_PACECTL_VNOM)) c
  let c : Core := (List.range 29).foldl (fun (c : Core) d => c.wr (R.WGH_DOMST_GRANT d) 0) c
  let c : Core := { c with wgh := { c.wgh with kNum := 1, kDen := 1, hist := [] } }
  let c : Core := (List.range 96).foldl (fun (c : Core) s => if c.rd (R.LAR_CTL_STATE s) = 1 then c.wr (R.LAR_CTL_STATE s) 0 else c) c
  (List.range 960).foldl Core.tileRegs c

/-- The entry. Mailbox requests left are answered, the ports present HELD, the parent is told unless the ports were HELD
already, and everything that does not survive goes (R369). -/
def Mach.enterCompute (m : Mach) (cause : Nat) : Mach :=
  let m := m.onCore (fun c => c.mb.reqs.foldl (fun (c : Core) r => c.mbAnswer r stRESET 0 [] true) c)
  let was := m.core.ports.hold
  let m := m.onCore (fun c =>
    let c : Core := { c with ports := { c.ports with hold := true } }
    let c : Core := (List.range 6).foldl (fun (c : Core) p =>
      let st := c.rd (R.PRT_STATE_STATE p)
      if st = 2 ∨ st = 4 then c.wr (R.PRT_STATE_STATE p) 3 else c) c
    let c := if was then c else c.sendLoss stRESET
    c.answerInside.dropClaims.emptyFabric.resetWins.emptyLogic)
  let m := (List.range 960).foldl (fun (m : Mach) t => m.tileMem t) m
  let m := (List.range 96).foldl (fun (m : Mach) s => m.blankSlice s) m
  m.onCore (fun c =>
    let c := ((c.wr R.STG_CAUSE_LAST cause).bump R.STG_CAUSE_WARMS 1).wr R.STG_STATUS_WARM 0
    let c := (c.wr R.STG_STATUS_BUSY 0).wr R.CH_CORES_SWAPPING 0
    if c.rd R.STG_STATUS_STAGE < 2 then (c.wr R.STG_STATUS_STAGE 0).setCword R.CH_FWVER_RELEASE.off (cResetWord R.CH_FWVER_RELEASE.off)
    else c)

/-- COMPUTE_ONLY_RESET: COMP_RST_N goes low; ignored while FULL_RST_N is low (R351). -/
def execComputeOnlyReset (s : State) : Host.Outcome State Fault Refusal :=
  .next (if s.live then
    { s with mach := s.mach.enterCompute 4, pwr := { s.pwr with compRstN := false, comp := true } }
  else s)

/-! ## Warm restart (R367, R375) -/

/-- What a self-test pass of the warm restart finds. A slice not in use that fails is no spare any more (Table 1.4). -/
def Mach.retest (m : Mach) (o : TestObs) : Mach :=
  let at' := fun (c : Core) (r p : Nat) =>
    (List.range 20).find? (fun l => decide (physCol (c.bad r) l = p)) |>.map (fun l => 20 * r + l)
  let m : Mach := o.banks.foldl (fun (m : Mach) x =>
    match at' m.core x.1 x.2.1 with | some t => m.rescueRetire t x.2.2 | none => m) m
  let m := m.onCore (fun c => o.repairs.foldl (fun (c : Core) x => c.ledgerAdd ⟨x.1, x.2.1, x.2.2, 0⟩) c)
  let m := m.onCore (fun c => o.tiles.foldl (fun (c : Core) x =>
    match at' c x.1 x.2 with | some t => c.takeOut t 2 | none => c) c)
  let m : Mach := o.slices.foldl (fun (m : Mach) p =>
    match (List.range 96).find? (fun s => m.core.slicePresent s && decide (m.core.physSlice s = p)) with
    | some s => m.failSlice s
    | none => m.onCore (fun c => (c.slipSlice p).summarise)) m
  if o.storeFail then m.onCore (fun c => c.deviceFatal 0x84 0) else m

/-- Bank NEXT verified by the boot ROM and started; where it does not verify the ROM answers (log entry 36). -/
def Mach.bootNext (m : Mach) (f : Fuses) : Mach :=
  let b := m.core.rd R.CH_FWVER_NEXT
  let h := SMap.get [] m.core.fw.heads b
  if h ≠ [] ∧ f.imageGood h (m.read (bankBase b) (leAt h 4 4)) true = true ∧ f.fwsvn ≤ leAt h 12 2 then
    m.onCore (fun c => c.startFirmware b)
  else m.onCore (fun c => (c.wr R.CH_FWVER_RELEASE 0 |>.wr R.CH_FWVER_SVN 0).wr R.CH_FWVER_ROM 1)

/-- The warm restart's results join those of the passes before it. -/
def Core.notePass (c : Core) (o : StageObs) : Core :=
  { c with led := { c.led with
      passLow := c.led.passLow.map (fun l => (l ++ faultyTiles o.low).dedup)
      passHigh := c.led.passHigh.map (fun l => (l ++ faultyTiles o.high).dedup) } }

/-- Service reopened as it stood: ports ACTIVE, branches as full service has them. A start that COMP_RST_N alone had held back
is no warm restart (R351). -/
def Core.reopen (c : Core) : Core :=
  let c : Core := { c with ports := { c.ports with hold := false } }
  let c : Core := (List.range 6).foldl (fun (c : Core) p =>
    if c.rd (R.PRT_STATE_STATE p) = 3 then (c.wr (R.PRT_STATE_STATE p) (c.readyState p)).pump p else c) c
  let c : Core := if c.rd R.STG_STATUS_FULL = 1 then (List.range 960).foldl (fun (c : Core) t => c.twr t R.CHN_MODE_MONLY 0) c else c
  c.wr R.STG_STATUS_WARM (b2n (decide (4 ≤ c.rd R.STG_CAUSE_LAST)))

/-- The warm restart: every tested segment is tested again (Table 16.6). -/
def Mach.warm (m : Mach) (f : Fuses) (o : StageObs) : Mach :=
  if m.core.rd R.STG_STATUS_STAGE < 2 then m.onCore Core.reopen
  else
    let m := (m.onCore (fun c => c.testCores o.cores)).bootNext f
    let m := if m.core.led.passLow.isSome then m.retest o.low else m
    let m := if m.core.led.passHigh.isSome then m.retest o.high else m
    m.onCore (fun c => (((c.notePass o).showTested).reopen).setVolts)

/-- WARM_RESTART: COMP_RST_N is high, and entry has ended. -/
def execWarmRestart (obs : StageObs) (s : State) : Host.Outcome State Fault Refusal :=
  .next (if s.live && s.pwr.comp then
    { s with mach := s.mach.warm s.fuses obs, pwr := { s.pwr with compRstN := true, comp := false } }
  else s)

/-! ## Full reset and supplies (R349 to R351, R368, R411 to R414) -/

/-- The core after a full reset: every register at its reset value, everything else empty; frames already sent, the count
of free values and the last read stay (log entry 5). -/
def Core.fullReset (c : Core) (cause : Nat) : Core :=
  let d : Core := { ports := { wire := c.ports.wire }, free := c.free, lastRead := c.lastRead }
  d.wr R.STG_CAUSE_LAST cause

/-- VRLOW as VRING stands. -/
def Core.setVrlow (c : Core) (low : Bool) : Core :=
  let c : Core := (List.range 6).foldl (fun (c : Core) p => c.wr (R.PRT_STATE_VRLOW p) (b2n low)) c
  c.wr R.LDG_ALERT_VRLOW (b2n low)

/-- The notices of a full reset: a loss to the bell parent, then ABSENT on every usable strand. -/
def Core.fullNotices (c : Core) : Core :=
  let c := c.sendLoss stLOST
  (List.range 6).foldl (fun (c : Core) p =>
    (c.usables p 0).foldl (fun (c : Core) s =>
      c.emit p s { ftype := 7, block := ({ port := p, ltype := 1, link := 0, dir := 0, width := 0 } : Lctl).block }) c) c

/-- The machine put through a full reset, with its notices or, where the supply is lost, without. -/
def State.reset' (s : State) (cause : Nat) (notices : Bool) : State :=
  let c := if notices && s.live then s.mach.core.fullNotices else s.mach.core
  { s with
    mach := { core := (c.fullReset cause).setVrlow (s.pwr.on && !s.pwr.vring) }
    pwr := { s.pwr with comp := false, out := false } }

/-- The straps are out of Table 19.4: a reserved ASM, or a SLOT not below the chiplets of its type (R407). -/
def strapErr (slot asm : Nat) : Bool := decide (4 ≤ asm) || decide (perAssembly asm ≤ slot)

/-- Straps sampled, and link training started on every hub port (Table 16.1, row 6); the ring ports are FAILED until a
position is inserted (R267). -/
def Core.strapIn (c : Core) (slot ward asm : Nat) : Core :=
  let c := ((c.wr R.STG_STRAP_SLOT slot).wr R.STG_STRAP_WARD ward).wr R.STG_STRAP_ASM asm
  let c := (c.wr R.STG_STRAP_STRAPERR (b2n (strapErr slot asm))).wr R.PRT_SELF_SLOT slot
  let c := c.wr (R.PRT_STATE_WARDEN ward) 1
  (List.range 6).foldl (fun (c : Core) p =>
    if p < 4 then ((List.range 40).foldl (fun (c : Core) l => c.setLink p l 1) c).wr (R.PRT_STATE_STATE p) 1
    else (c.wr (R.PRT_STATE_STATE p) 5).wr (R.PRT_STATE_CAUSE p) 1) c

/-- A bump-driving instruction: EXTEST, CLAMP, HIGHZ or DW_EXTEST (R421). -/
def bumpDriving (ir : Nat) : Bool := decide (ir = 0x00) || decide (ir = 0x03) || decide (ir = 0x04) || decide (ir = 0x10)

/-- Test-Logic-Reset with IDCODE selected; an entry is counted (R419, R423). -/
def TapSt.toReset (t : TapSt) : TapSt :=
  { t with tap := .reset, ir := 1, tdo := none, resets := if t.tap = .reset then t.resets else satAdd 16 t.resets 1 }

/-- The by-pass positions while FULL_RST_N is low: open under a bump-driving instruction, which drives HOLD_OPEN on each, and
without VRING, and else closed (R266, R349, R421). -/
def State.holdOpen (s : State) : State :=
  if s.pwr.on && !s.pwr.fullRstN then
    let v := if bumpDriving s.tap.ir || !s.pwr.vring then 0 else 15
    { s with mach := s.mach.onCore (fun c => (c.wr (R.PRT_STATE_BYPOS 4) v).wr (R.PRT_STATE_BYPOS 5) v) }
  else s

/-- POWER_ON: VIN ramps and the regulators come up; the identity key is rebuilt, and the test port starts in
Test-Logic-Reset (R349, R394, R419). -/
def execPowerOn (s : State) : Host.Outcome State Fault Refusal :=
  .next (if s.pwr.on then s
  else
    let s := s.reset' 0 false
    let p : PwrSt := { on := true, vring := s.pwr.vring }
    ({ s with pwr := p, tap := {}, mach := s.mach.onCore (fun c => c.setVrlow (!s.pwr.vring)) } : State).holdOpen)

/-- FULL_RST_N_RISE: a bump-driving instruction gives way to Test-Logic-Reset before the straps are sampled; with the trip
latch set the chiplet stays in reset. While COMP_RST_N stays low (`comp`) trained ports present HELD (R351); its release is
WARM_RESTART's (log entry 5). -/
def State.rise (s : State) (slot ward asm : Nat) (comp : Bool) : State :=
  let s := ({ s with tap := if bumpDriving s.tap.ir then s.tap.toReset else s.tap } : State).holdOpen
  let s := { s with pwr := { s.pwr with fullRstN := true, compRstN := !comp, comp := comp } }
  if s.pwr.trip then s
  else { s with mach := s.mach.onCore (fun c =>
    let c : Core := { c with ports := { c.ports with hold := comp } }
    c.strapIn slot ward asm) }
/-- FULL_RST_N_RISE. -/
def execFullRstNRise (slot ward : Nat) (pins : RisePins) (s : State) : Host.Outcome State Fault Refusal :=
  onlyIf (decide (slot < 16) && decide (ward < 4) && decide (pins.asm < 8))
    (.next (if s.pwr.on && !s.pwr.fullRstN then s.rise slot ward pins.asm pins.comp else s))

/-- FULL_RST_N or PWRGOOD low (R351, R368). -/
def State.fullLow (s : State) : State :=
  if s.pwr.on && s.pwr.fullRstN then
    let s := if s.pwr.trip then s else s.reset' 1 true
    ({ s with pwr := { s.pwr with fullRstN := false } }).holdOpen
  else s
/-- FULL_RESET. -/
def execFullReset (s : State) : Host.Outcome State Fault Refusal := .next s.fullLow
/-- VIN_LOW: below 1.71 V for 5 µs, as PWRGOOD low (R411). -/
def execVinLow (s : State) : Host.Outcome State Fault Refusal := .next s.fullLow

/-- SUPPLY_LOSS: no notice is sent; the trip latch is lost with VIN. -/
def execSupplyLoss (s : State) : Host.Outcome State Fault Refusal :=
  .next (if s.pwr.on then
    { s.reset' 0 false with pwr := { on := false, vring := s.pwr.vring, erased := s.pwr.erased }, tap := {} }
  else s)

/-- THERMAL_TRIP: the latch, THERMTRIP_N and a full reset (R414). -/
def execThermalTrip (s : State) : Host.Outcome State Fault Refusal :=
  .next (if s.pwr.on && !s.pwr.trip then
    let s := s.reset' 3 true
    { s with pwr := { s.pwr with trip := true } }
  else s)

/-- TRIP_LATCH_CLEAR: FULL_RST_N is low and every comparator reads below 105 °C (`cool`). -/
def execTripLatchClear (cool : Bool) (s : State) : Host.Outcome State Fault Refusal :=
  .next (if cool && !s.pwr.fullRstN then { s with pwr := { s.pwr with trip := false } } else s)

/-- BYPASS_CLOSE: all four positions close; the ring links through the chiplet are lost and train again from insertion
(R266, R267). -/
def Core.bypassClose (c : Core) : Core :=
  let c := (c.wr (R.PRT_STATE_BYPOS 4) 15).wr (R.PRT_STATE_BYPOS 5) 15
  let c : Core := { c with ports := { c.ports with tries := [], failedAt := [] } }
  let lose := fun (c : Core) p => (List.range 4).foldl (fun (c : Core) l =>
    if c.usable p 0 l || c.usable p 1 l then c.setLink p l 5 else c) c
  ((lose (lose c 4) 5).checkPort 4).checkPort 5
/-- BYPASS_CLOSE. -/
def execBypassClose (s : State) : Host.Outcome State Fault Refusal := s.onCore Core.bypassClose

/-- VRING_LOW (R412). -/
def execVringLow (s : State) : Host.Outcome State Fault Refusal :=
  .next (State.holdOpen { s with pwr := { s.pwr with vring := false }, mach := s.mach.onCore (fun c => c.setVrlow s.pwr.on) })
/-- With VRING good again the positions that no ring strand is in use at conduct, and so are closed (R265). -/
def Core.conduct (c : Core) : Core :=
  let idle := fun k => [4, 5].all (fun p => decide (c.sst p 0 k = 0) && decide (c.sst p 1 k = 0))
  let v := (List.range 4).foldl (fun m k => if idle k then setBit m k true else m) (c.rd (R.PRT_STATE_BYPOS 4))
  (c.wr (R.PRT_STATE_BYPOS 4) v).wr (R.PRT_STATE_BYPOS 5) v
/-- VRING_RESTORED. -/
def execVringRestored (s : State) : Host.Outcome State Fault Refusal :=
  .next (State.holdOpen { s with
    pwr := { s.pwr with vring := true }
    mach := s.mach.onCore (fun c => (if s.pwr.on then c.conduct else c).setVrlow false) })

/-! ## MB_RESET (R331, R368, R369) -/

/-- The rows of MB_RESET, by KIND. -/
def mbReset (full : Bool) : MbReq → Bool := fun r => decide (r.cmd = 0x11) && decide ((r.byte 0 = 1) ↔ full = true)

/-- MB_RESET_COMPUTE_ONLY: the others are answered TARGET_RESET, it is answered OK, and the reset begins. -/
def Mach.mbCompute (m : Mach) (r : MbReq) : Mach :=
  let m := m.onCore (fun c =>
    let others := c.mb.reqs.filter (fun x => !(decide (x.port = r.port) && decide (x.slot = r.slot)))
    (others.foldl (fun (c : Core) x => c.mbAnswer x stRESET 0 [] true) c).mbAnswer r stOK 0 [] true)
  m.enterCompute 5
/-- MB_RESET_COMPUTE_ONLY. -/
def execMbResetComputeOnly (s : State) : Host.Outcome State Fault Refusal :=
  .next (match s.mach.core.mbTurn (mbReset false) with
    | some r => if s.live then { s with mach := s.mach.mbCompute r, pwr := { s.pwr with comp := true } } else s
    | none => s)

/-- MB_RESET_FULL: an MB_STAGE under way ends with TARGET_RESET (R369), it is answered, then full reset for 10 µs and release
with the straps as they stand. -/
def execMbResetFull (s : State) : Host.Outcome State Fault Refusal :=
  .next (match s.mach.core.mbTurn (mbReset true) with
    | some r =>
      if s.live then
        let c := s.mach.core
        let s := { s with mach := s.mach.onCore (fun c =>
          ((c.mb.reqs.filter (fun (x : MbReq) => x.started && decide (x.cmd = 0x10))).foldl (fun (c : Core) x =>
            c.mbAnswer x stRESET 0 [] true) c).mbAnswer r stOK 0 [] true) }
        (s.reset' 2 true).rise (c.rd R.STG_STRAP_SLOT) (c.rd R.STG_STRAP_WARD) (c.rd R.STG_STRAP_ASM) false
      else s
    | none => s)

/-! ## Outputs (R389, R414) -/

/-- ALERT_N is driven low. -/
def State.alert (s : State) : Bool :=
  let c := s.mach.core
  decide (c.rd R.LDG_ALERT_JOBF = 1) || decide (c.rd R.LDG_ALERT_DEVF = 1) || decide (c.rd R.LDG_ALERT_THERM = 1)
    || decide (c.rd R.LDG_ALERT_VRLOW = 1) || decide (c.rd R.CH_CORES_SPARE = 3)
/-- THERMTRIP_N is driven low. -/
def State.thermtrip (s : State) : Bool := s.pwr.trip

end Sys2Proof.Machine
end

