-- ==== Sys2Proof/Machine/Repair.lean ====
section
/-! DEFINITION. MB_LDG_REPAIR (R374 to R376, R383, Table 17.5): its settings, the in-service ledger build and the
retirements the host orders. -/

namespace Sys2Proof.Machine

/-- The rows of MB_LDG_REPAIR, by OP. -/
def mbRepair (op : Nat) : MbReq → Bool := fun r => decide (r.cmd = 0x6A) && decide (r.byte 0 = op)

/-- The response body: the entries that the operation added to those of `old`, and GEN. -/
def Core.repairBody (c : Core) (old : List LEntry) : List Byte :=
  toBytes 2 ((c.led.entries.filter (fun e => !old.contains e)).length) ++ toBytes 2 (c.rd R.LDG_FP_SUMMARY_GEN)

/-- An operation carried out at once, from `m` to `m'`. -/
def Mach.repaired (m m' : Mach) : MbAns := .done m' stOK 0 (m'.core.repairBody m.core.led.entries)

/-! ## CONFIG -/

/-- LDG_RESCUE may hold an address: zero, or a 64-byte-aligned near-memory address of the own plane. -/
def Core.rescueOk (c : Core) (a : Nat) : Bool :=
  decide (a = 0) || (decide (a % 64 = 0) && decide (adClass a = 4) && decide (adPlane a = c.rd R.PRT_SELF_PLANE))

/-- CONFIG. -/
def Mach.repairConfig (m : Mach) (r : MbReq) : MbAns :=
  let a := r.field 24 8
  if m.core.rescueOk a then
    m.repaired (m.onCore (fun c =>
      let c := c.setCword R.LDG_THRESH_ROWCORR.off (BitVec.ofNat 64 (r.field 8 8))
      ((c.wr R.LDG_NOTIFY_ADDR (r.field 16 8)).wr R.LDG_RESCUE_ADDR a).wr R.LDG_STATUS_RUSED 0))
  else .done m stDENIED 2 []
/-- CONFIG. -/
def execConfig (s : State) : Host.Outcome State Fault Refusal := s.onMach (fun m => m.mbRow (mbRepair 0) Mach.repairConfig)

/-! ## REBUILD -/

/-- A row's BAD set after the build: OOS joins it. -/
def Core.builtBad (c : Core) (r : Nat) : Nat := c.bad r ||| c.oos r
/-- The physical column of a logical tile after the build; 21 where there is none. -/
def Core.newCol (c : Core) (t : Nat) : Nat := physCol (c.builtBad (t / 20)) (t % 20)
/-- The logical tiles whose physical position changes. -/
def Core.moved (c : Core) : List Nat := (List.range 960).filter (fun t => decide (c.newCol t ≠ c.pcol t))

/-- A moved tile's valid region would cover a bank retired at its new position. -/
def Core.coversRetired (c : Core) (t : Nat) : Bool :=
  c.present t && decide (c.newCol t < 21)
    && (List.range 16).any (fun b => bit (c.rd (R.LDG_TBANK_RETIRED (t / 20) (c.newCol t))) b && c.bankUnder t b [0, 1, 2, 3])

/-- The lines of a tile that carry errors and lie in LIT or RETAIN regions. -/
def Mach.errorLines (m : Mach) (t : Nat) : List Nat :=
  ((m.errs.filter (fun e => decide (lineId t 0 ≤ e.1) && decide (e.1 < lineId (t + 1) 0))).map (fun e => e.1 - lineId t 0)).filter
    (fun line => (m.core.regionOf t (line / 256)).any (fun n => decide (m.core.trd t (R.MEM_RGN_MODE n) ≤ 1)))

/-- A tile's LIT and RETAIN contents copied with corrected reads; false where a line is uncorrectable. -/
def Mach.copyTile (m : Mach) (t : Nat) : Mach × Bool :=
  (m.errorLines t).foldl (fun (acc : Mach × Bool) line =>
    if acc.2 then acc.1.rewriteRow t line else acc) (m, true)

/-- The segments of a tile that no LIT or RETAIN region covers. -/
def Core.looseSegs (c : Core) (t : Nat) : List Nat :=
  (List.range 64).filter (fun g => !(c.regionOf t g).any (fun n => decide (c.trd t (R.MEM_RGN_MODE n) ≤ 1)))

/-- A tile's memory, tags, operand cache and T registers at a position where nothing has been copied. -/
def Mach.freshTile (m : Mach) (t : Nat) : Mach :=
  let m := m.blankSegs t 0 64
  let m := (m.zero (cacheBase t) (cacheBase (t + 1))).zero (tregBase t) (tregBase (t + 1))
  let inCache := fun k => decide (cacheLineId t 0 ≤ k) && decide (k < cacheLineId (t + 1) 0)
  { m with errs := SMap.keep (fun k => !inCache k) m.errs, corr := m.corr.filter (fun k => !inCache k) }

/-- A moved tile at its new position. One that was present keeps what was copied, the rest as a compute-only reset leaves
it; one that was absent starts as after a full reset, with the applied tiers (R360). -/
def Mach.settleTile (m : Mach) (t : Nat) (was : Bool) : Mach :=
  let m := if was then
      (let m := (m.core.looseSegs t).foldl (fun (m : Mach) g => m.blankSegs t g (g + 1)) m
       let m := (m.zero (cacheBase t) (cacheBase (t + 1))).zero (tregBase t) (tregBase (t + 1))
       let inCache := fun k => decide (cacheLineId t 0 ≤ k) && decide (k < cacheLineId (t + 1) 0)
       let retain := fun (c : Core) slot => (c.regionOf t (slot / 64)).any (fun n => decide (c.trd t (R.MEM_RGN_MODE n) = 1))
       let tags := SMap.keep (fun k => decide (k / 4096 ≠ t) || retain m.core (k % 4096)) m.core.tiles.tags
       let m := { m with errs := SMap.keep (fun k => !inCache k) m.errs, corr := m.corr.filter (fun k => !inCache k) }
       m.onCore (fun c => { (c.tileRegs t) with tiles := { c.tiles with tags := tags } }))
    else
      (((m.freshTile t).zero (loaderBase t) (loaderBase (t + 1))).zero (incomingBase t) (incomingBase (t + 1))).onCore (fun c =>
        { c with treg := SMap.keep (fun k => decide (k / 0x4000 ≠ t)) c.treg })
  m.onCore (fun c =>
    let c := (c.twr t R.LOOM_CAP_PASS23 (c.rd R.CH_HMSTAT_PASS23)).twr t R.LOOM_CAP_REDUCED (b2n c.reduced)
    if c.rd R.STG_STATUS_FULL = 1 then c.twr t R.CHN_MODE_MONLY 0 else c)

/-- The mapping switched: BAD takes in OOS in every row, and GEN increments once; NET_STATUS.RETIRED counts from this build
(Table 10.7). -/
def Core.switchMap (c : Core) : Core :=
  let c : Core := (List.range 48).foldl (fun (c : Core) r => c.setRow r (c.builtBad r) 0 (c.disabled r)) c
  (c.wr R.NET_STATUS_RETIRED 0).fpChanged

/-- Copy, then switch; the build ends by reserving the crier slice and filling LAR_ILV (R183, R341). -/
def Mach.rebuildCopy (m : Mach) : MbAns :=
  let ts := m.core.moved
  let live := ts.filter m.core.present
  let x := live.foldl (fun (acc : Mach × Bool) t => if acc.2 then acc.1.copyTile t else acc) (m, true)
  if x.2 = false then .done x.1 stUNCORR 0 []
  else
    let y := x.1.onCore Core.switchMap
    let y : Mach := ts.foldl (fun (m : Mach) t => m.settleTile t (live.contains t)) y
    let y := y.onCore Core.showTested
    x.1.repaired (if y.core.rd R.STG_STATUS_PASSU = 1 then (y.onCore Core.reserveCrier).refill else y)

/-- REBUILD: it copies once the windows of the tiles that move are CLOSED. -/
def Mach.rebuild (m : Mach) (r : MbReq) : MbAns :=
  let ts := m.core.moved
  if r.note = [] ∧ (m.core.rd R.CH_BELLSTEP_STATE ≠ 0 ∨ m.core.allIdle = false ∨ ts.any m.core.coversRetired = true) then
    .done m stDENIED 2 []
  else
    let m := if r.note = [] then m.onCore (fun c => ts.foldl Core.closeWinsOf c) else m
    let shut := (List.range 1024).all (fun w =>
      !(decide (m.core.rd (R.LAR_WIN_OPEN w) = 1) && ts.contains (m.core.winUnit w)))
    if shut then m.rebuildCopy else .wait m [1]
/-- REBUILD. -/
def execRebuild (s : State) : Host.Outcome State Fault Refusal := s.onMach (fun m => m.mbRow (mbRepair 1) Mach.rebuild)

/-! ## Retirements -/

/-- RETIRE_TILE. -/
def Mach.repairTile (m : Mach) (r : MbReq) : MbAns :=
  let t := 20 * r.byte 1 + r.byte 2
  if 48 ≤ r.byte 1 ∨ 20 ≤ r.byte 2 then .done m stDENIED 4 []
  else if m.core.present t then m.repaired (m.onCore (fun c => c.takeOut t 4))
  else .done m stDENIED 2 []
/-- RETIRE_TILE. -/
def execRetireTile (s : State) : Host.Outcome State Fault Refusal := s.onMach (fun m => m.mbRow (mbRepair 2) Mach.repairTile)

/-- RETIRE_BANK: it waits for the bank to be quiet; its note holds the number of entries before it, plus one. -/
def Mach.repairBank (m : Mach) (r : MbReq) : MbAns :=
  let t := 20 * r.byte 1 + r.byte 2
  let b := r.byte 3
  let entries := fun (m : Mach) (n : Nat) =>
    toBytes 2 (m.core.led.entries.length + 1 - n) ++ toBytes 2 (m.core.rd R.LDG_FP_SUMMARY_GEN)
  if 48 ≤ r.byte 1 ∨ 20 ≤ r.byte 2 ∨ 16 ≤ b then .done m stDENIED 4 []
  else if r.note = [] ∧ (m.core.present t = false ∨ m.core.bankRetired t b = true) then .done m stDENIED 2 []
  else
    let n := r.note.headD (m.core.led.entries.length + 1)
    let begun := m.core.led.retiring.any (fun x => decide (x.tile = t) && decide (x.bank = b))
    let m := if m.core.bankRetired t b then m else if begun then m.retireStep t b else (m.retireStep t b).retireStep t b
    if m.core.bankRetired t b then .done m stOK 0 (entries m n) else .wait m [n]
/-- RETIRE_BANK. -/
def execRetireBank (s : State) : Host.Outcome State Fault Refusal := s.onMach (fun m => m.mbRow (mbRepair 3) Mach.repairBank)

/-- A strand retired at the host's word; the other end is told. -/
def Core.orderRetire (c : Core) (p d s : Nat) : Core :=
  if c.sst p d s = 4 then c
  else if d = 1 then (c.retireInbound p s).checkRetired p
  else ((c.retireStrand p 0 s).sendLctl { port := p, ltype := 3, link := s, dir := 0, width := 0 }).checkRetired p

/-- RETIRE_STRAND. -/
def Mach.repairStrand (m : Mach) (r : MbReq) : MbAns :=
  let p := r.byte 1
  let d := r.byte 2
  let s := r.byte 3
  if isStrand p s = false ∨ 2 ≤ d then .done m stDENIED 4 []
  else if p = m.core.rd R.STG_STRAP_WARD ∧ m.core.usables p d = [s] then .done m stDENIED 2 []
  else m.repaired (m.onCore (fun c => c.orderRetire p d s))
/-- RETIRE_STRAND. -/
def execRetireStrand (s : State) : Host.Outcome State Fault Refusal := s.onMach (fun m => m.mbRow (mbRepair 4) Mach.repairStrand)

/-- RETIRE_SLICE. -/
def Mach.repairSlice (m : Mach) (r : MbReq) : MbAns :=
  let s := r.byte 1
  if 96 ≤ s then .done m stDENIED 4 []
  else if m.core.slicePresent s then m.repaired (m.failSlice s)
  else .done m stDENIED 2 []
/-- RETIRE_SLICE. -/
def execRetireSlice (s : State) : Host.Outcome State Fault Refusal := s.onMach (fun m => m.mbRow (mbRepair 5) Mach.repairSlice)

end Sys2Proof.Machine
end

