-- ==== Sys2Proof/Machine/Stages.lean ====
section
/-! DEFINITION. The bring-up stages (R352 to R364): MB_STAGE and STAGE_3U_4U. -/

namespace Sys2Proof.Machine

/-! ## Self-test and ledger build, part L (R355 to R357, R380, R381) -/

/-- Part 3L: banks 0 to 7 of every tile tested. -/
def Core.testLow (c : Core) (o : TestObs) : Core :=
  let c : Core := { c with led := { c.led with low := some o, passLow := some (faultyTiles o) } }
  let c := c.showTested
  if o.storeFail then c.deviceFatal 0x84 0 else c

/-- Part 3U: banks 8 to 15 of every tile, and the slices. -/
def Core.testHigh (c : Core) (o : TestObs) : Core :=
  Core.showTested { c with led := { c.led with high := some o, passHigh := some (faultyTiles o) } }

/-- What a pass found, as ledger entries. -/
def testEntries (o : TestObs) : List LEntry :=
  o.banks.map (fun x => ⟨2, tileUnit x.1 x.2.1, x.2.2, 0⟩) ++ o.repairs.map (fun x => ⟨x.1, x.2.1, x.2.2, 0⟩)
    ++ o.tiles.map (fun x => ⟨1, tileUnit x.1 x.2, 2, 0⟩)

/-- A unit that is a tile's, of a tile's or slice's entry. -/
def tileForm (unit : Nat) : Bool := !bit unit 15

/-- The entries of a build: the fused ones, the history, those recorded since reset, and the self-test's; a tile with three
retired banks is out of service. -/
def Core.buildEntries (c : Core) (f : Fuses) (o : TestObs) : List LEntry :=
  let l := (f.defects ++ c.led.hist ++ c.led.entries ++ testEntries o).foldl addEntry []
  let banks := (l.filter (fun e => decide (e.kind = 2) && tileForm e.unit)).map LEntry.unit
  let worn := (banks.dedup).filter (fun u => decide (3 ≤ banks.count u) && l.all (fun e => !(decide (e.kind = 1) && decide (e.unit = u))))
  worn.foldl (fun l u => addEntry l ⟨1, u, 1, 0⟩) l

/-- A row's BAD set: the tiles the entries name. -/
def badOf (l : List LEntry) (r : Nat) : Nat :=
  (l.filter (fun e => decide (e.kind = 1) && decide (e.unit % 64 = r))).foldl (fun m e => setBit m (e.unit / 64 % 32) true) 0

/-- One entry of the build brought into force, but for the row mapping and the slice map. A HALF strand of a direction this
chiplet receives is retrained to HALF; its other direction is its partner's to degrade. -/
def Core.applyEntry (c : Core) (e : LEntry) : Core :=
  let p := e.unit % 8
  let d := e.unit / 8 % 2
  let s := e.unit / 16 % 64
  match e.kind with
  | 2 => if tileForm e.unit then
      (let f := R.LDG_TBANK_RETIRED (e.unit % 64) (e.unit / 64 % 32)
       c.wr f (setBit (c.rd f) (e.arg % 64) true))
    else c
  | 6 =>
    let bad := setBit (c.excluded p d s) (e.arg % 128) true
    (c.wr (R.PRT_LANEBAD_BADLO p d s) (bad % 2 ^ 64)).wr (R.PRT_STRAND_BADHI p d s) (bad / 2 ^ 64)
  | 7 =>
    if e.arg % 4 = 2 ∧ c.sst p d s ≠ 4 then (c.setSst p d s 4).checkRetired p
    else if e.arg % 4 = 1 ∧ d = 1 ∧ c.sst p d s = 2 then c.askRetrain p s 2 else c
  | 8 =>
    let n := e.unit % 2 ^ 11
    let k := e.unit / 2 ^ 11 % 4
    let q := e.unit / 2 ^ 13 % 8
    match neighbour n q with
    | some m =>
      (c.wr (R.NET_LINK_STATE n k q) 1).wr (R.NET_LINK_STATE m k (opposite q)) 1
    | none => c
  | 9 => c.wr R.CH_CORES_RETIRED (setBit (c.rd R.CH_CORES_RETIRED) (e.unit % 4) true)
  | 10 => { c with wgh := { c.wgh with phases := SMap.set 0 c.wgh.phases (e.unit % 32) (SMap.get 0 c.wgh.phases (e.unit % 32) + 1) } }
  | 11 =>
    let c := if c.wgh.sensors.contains (e.unit % 32, e.arg % 2) then c
      else { c with wgh := { c.wgh with sensors := c.wgh.sensors ++ [(e.unit % 32, e.arg % 2)] } }
    if c.sensorsOf (e.unit % 32) = [] then (c.wear (e.unit % 32)).setThst (e.unit % 32) 2 else c
  | _ => c

/-- The cores after the build: a swap where it has retired an active one (R381). -/
def Core.settleCores (c : Core) (pass : Nat) : Core :=
  let out := fun n => bit (c.rd R.CH_CORES_RETIRED) n
  if out (c.rd R.CH_CORES_ACTA) || out (c.rd R.CH_CORES_ACTB) then (c.bump R.CH_CORES_SWAPS 1).testCores pass
  else if c.rd R.CH_CORES_SPARE ≠ 3 ∧ out (c.rd R.CH_CORES_SPARE) = true then c.wr R.CH_CORES_SPARE 3 else c

/-- Part 4L: every row mapped by R16, VALID set, epoch 0 loaded; NET_STATUS.RETIRED counts from here (Table 10.7). -/
def Core.buildLow (c : Core) (f : Fuses) (pass : Nat) : Core :=
  let o := c.led.low.getD {}
  let l := c.buildEntries f o
  let c : Core := { c with
    led := { c.led with entries := l, low := none }
    wgh := { c.wgh with phases := [] } }
  let c : Core := l.foldl Core.applyEntry c
  let c : Core := (List.range 48).foldl (fun (c : Core) r => c.setRow r (badOf l r) 0 false) c
  let c := ((c.wr R.LDG_FP_SUMMARY_VALID 1).wr R.STG_STATUS_PASSL 1).fpChanged
  let c := (c.showTested).wr R.NET_STATUS_RETIRED 0
  (((c.buildEpoch 0).setEpoch 0 2).wr R.NET_RTCTL_ACTIVE 0).settleCores pass

/-! ## Part U (R22, R341, R357) -/

/-- The logical tile mapped onto a position. -/
def Core.tileAt (c : Core) (r p : Nat) : Option Nat :=
  ((List.range 20).find? (fun l => decide (physCol (c.bad r) l = p))).map (fun l => 20 * r + l)

/-- A position found bad after the mapping: its tile is taken out of service, and an unmapped spare joins OOS. -/
def Core.outPosition (c : Core) (r p cause : Nat) : Core :=
  match c.tileAt r p with
  | some t => if c.present t then c.removeTile t cause else c
  | none => (c.setRow r (c.bad r) (setBit (c.oos r) p true) (c.disabled r)).ledgerAdd ⟨1, tileUnit r p, cause, 0⟩

/-- A bank that pass U could not repair: retired, and the tile with its third one. -/
def Core.outBank (c : Core) (r p b : Nat) : Core :=
  let f := R.LDG_TBANK_RETIRED r p
  let under := (c.tileAt r p).any (fun t => c.present t && c.bankUnder t b [0, 1])
  let c := (c.wr f (setBit (c.rd f) b true)).ledgerAdd ⟨2, tileUnit r p, b, 0⟩
  let c := if under then c.jobFatal 0x09 (((c.tileAt r p).map faultUnit).getD 0) else c
  if 3 ≤ popCount (c.rd f) 16 then c.outPosition r p 1 else c

/-- Every logical slice put on its own physical slice, or in ascending order on a spare (R22). -/
def Core.mapSlices (c : Core) : Core :=
  let failed := c.failedSlices
  let c : Core := (List.range 96).foldl (fun (c : Core) s =>
    c.putSlice s (if failed.contains s then none else some s)) c
  (List.range 96).foldl (fun (c : Core) s =>
    if failed.contains s then
      match chooseSpare s c.freeSpares with
      | some p => (c.putSlice s (some p)).ledgerAdd ⟨5, sliceUnit s, p, 0⟩
      | none => c
    else c) c

/-- Part 4U: the results of 3U, the slice map, the crier slice, LAR_ILV, and a snapshot. -/
def Core.buildHigh (c : Core) : Core :=
  let o := c.led.high.getD {}
  let c : Core := { c with led := { c.led with high := none } }
  let c : Core := o.repairs.foldl (fun (c : Core) x => c.ledgerAdd ⟨x.1, x.2.1, x.2.2, 0⟩) c
  let c : Core := o.banks.foldl (fun (c : Core) x => c.outBank x.1 x.2.1 x.2.2) c
  let c : Core := o.tiles.foldl (fun (c : Core) x => c.outPosition x.1 x.2 2) c
  let lost := (c.led.entries.filter (fun e => decide (e.kind = 2) && !tileForm e.unit)).map (fun e => e.unit % 128)
  let c : Core := (lost ++ o.slices).foldl Core.slipSlice c
  let c := (c.mapSlices.wr R.STG_STATUS_PASSU 1).reserveCrier
  c.fillIlv.fpChanged

/-! ## Reduced service (R362, Table 16.3) -/

/-- LOOM_CAP.REDUCED of every tile. -/
def Core.setReduced (c : Core) (v : Nat) : Core :=
  (List.range 960).foldl (fun (c : Core) t => c.twr t R.LOOM_CAP_REDUCED v) c

/-- Reduced service opened: its row pairs dark, code 20, and the default image cried to its tiles. -/
def Mach.openReduced (m : Mach) (f : Fuses) : Mach :=
  let m := m.onCore (fun c =>
    let c : Core := ((List.range 24).filter darkReduced).foldl (fun (c : Core) d => c.wr (R.WGH_DOMST_MODE d) 2) c
    ((c.wr R.STG_STATUS_RSVC 1).setReduced 1).setVolts)
  (m.cry f true true (m.core.cryTargets.filter (fun t => !m.core.tileDark t)) 0).1

/-! ## Stages 5, 7 and 8 (R359, R360, R398) -/

/-- One domain measured: STG_CHAR, and SLOW below its floor at code 76 (R36). -/
def Core.characterise (c : Core) (grade d r60 r75 r88 : Nat) (tj : Int) : Core :=
  let c := ((c.wr (R.STG_CHAR_R60 d) r60).wr (R.STG_CHAR_R75 d) r75).wr (R.STG_CHAR_R88 d) r88
  let c := (c.wr (R.STG_CHAR_TJ d) (unsignedOf 8 tj)).wr (R.STG_CHAR_SLOW d) 0
  match rateFloor grade 880 tj with
  | some fl => if r88 < fl then ((c.wr (R.STG_CHAR_SLOW d) 1).wear d).ledgerAdd ⟨12, d, min r88 8191, 0⟩ else c
  | none => c

/-- Stage 5: reduced service ends, every row pair is lit, and the domains are measured. -/
def Mach.stageFive (m : Mach) (grade : Nat) (o : StageObs) : Mach :=
  let dark := (List.range 24).filter (fun d => !m.core.pairLit d)
  let m := m.onCore (fun c =>
    let c := if c.reduced then (c.wr R.LAR_ILVCTL_BYPASS 0).setReduced 0 else c
    c.wr R.STG_STATUS_RSVC 0)
  let m : Mach := dark.foldl (fun (m : Mach) d =>
    let m : Mach := (List.range 40).foldl (fun (m : Mach) i => m.blankLit (40 * d + i)) m
    m.onCore (fun c => c.wr (R.WGH_DOMST_MODE d) 0)) m
  m.onCore (fun c =>
    let c : Core := ((o.rates.take 29).zipIdx).foldl (fun (c : Core) x =>
      c.characterise grade x.2 x.1.1 x.1.2.1 x.1.2.2.1 x.1.2.2.2) c
    c.setVolts.stageDone 5)

/-- Each filled slot verified: its RESULT, and the count of those verified. -/
def Core.judge (c : Core) (f : Fuses) : Core :=
  c.hm.slots.foldl (fun (c : Core) x =>
    let r := f.hmResult x.2
    let c := c.wr (R.CH_HMSLOT_RESULT x.1) r
    if r = 1 then c.bump R.CH_HMSTAT_VERIFIED 1 else c.bump R.CH_HMSTAT_REFUSED 1) c

/-- The tier in force of a feature's slot: its lowest where none is verified (R7). -/
def Core.tierOf (c : Core) (n : Nat) : Nat :=
  if c.rd (R.CH_HMSLOT_RESULT n) = 1 then c.rd (R.CH_HMSLOT_TIER n) else 0

/-- The rows a tile tier enables (Table 1.2), and the tiles it counts. -/
def tierRow (tier r : Nat) : Bool :=
  match tier with
  | 0 => decide (r < 16) || (decide (24 ≤ r) && decide (r < 40))
  | 1 => decide (r < 20) || (decide (24 ≤ r) && decide (r < 44))
  | _ => true
def tierTiles (tier : Nat) : Nat := match tier with | 0 => 640 | 1 => 800 | _ => 960

/-- Stage 7: the hallmarks verified and the tiers applied. -/
def Mach.stageSeven (m : Mach) (f : Fuses) : Mach :=
  let m := m.onCore (fun c => ((c.wr R.CH_HMSTAT_VERIFIED 0).wr R.CH_HMSTAT_REFUSED 0).judge f)
  let tier := m.core.tierOf 0
  let off := (List.range 24).filter (fun d => !tierRow tier (2 * d))
  let tiles := fun (d : Nat) => (List.range 40).map (fun i => 40 * d + i)
  let m : Mach := off.foldl (fun (m : Mach) d =>
    let m := m.onCore (fun c => ((tiles d).foldl Core.closeWinsOf c).wr (R.WGH_DOMST_MODE d) 2)
    (tiles d).foldl (fun (m : Mach) t => m.blankLit t) m) m
  m.onCore (fun c =>
    let c := ((c.wr R.CH_HMSTAT_TILES tier).wr R.CH_HMSTAT_PASS23 (c.tierOf 1)).wr R.CH_HMSTAT_TWIN (c.tierOf 2)
    let c := (c.wr R.CH_HMSTAT_SCALE (c.tierOf 3)).wr R.CH_HMSTAT_APPLIED 1
    let c : Core := (List.range 960).foldl (fun (c : Core) t => c.twr t R.LOOM_CAP_PASS23 (c.tierOf 1)) c
    let c : Core := (List.range 48).foldl (fun (c : Core) r => c.setRow r (c.bad r) (c.oos r) (!tierRow tier r)) c
    ((c.wr R.LDG_FP_SUMMARY_ENABLED (tierTiles tier)).fpChanged).stageDone 7)

/-- Stage 8: full service. -/
def Core.stageEight (c : Core) : Core :=
  let c : Core := (List.range 960).foldl (fun (c : Core) t => c.twr t R.CHN_MODE_MONLY 0) (c.setReduced 0)
  ((c.wr R.STG_STATUS_FULL 1).setVolts).stageDone 8

/-! ## MB_STAGE (R353, R354, R358) -/

/-- The response body. -/
def Core.stageBody (c : Core) (target : Nat) : List Byte :=
  toBytes 1 (c.rd R.STG_STATUS_STAGE) ++ toBytes 1 (c.rd R.STG_STATUS_RSVC + 2 * c.rd R.STG_STATUS_FULL)
    ++ toBytes 1 (if 7 ≤ target then c.rd R.CH_HMSTAT_REFUSED else 0) ++ toBytes 13 0

/-- A request that has reached its target, or has opened reduced service. -/
def Mach.staged (m : Mach) (target : Nat) : MbAns :=
  let m := m.onCore (fun c => c.wr R.STG_STATUS_BUSY 0)
  .done m stOK 0 (m.core.stageBody target)
/-- A stage that failed. -/
def Mach.stageFailed (m : Mach) (n target : Nat) : MbAns :=
  let m := m.onCore (fun c =>
    ((c.wr R.STG_STATUS_BUSY 0).wr R.STG_STATUS_FAIL 1).wr R.STG_STATUS_FSTAGE n |>.wr R.STG_STATUS_FSTAT stFAILED)
  .done m stFAILED n (m.core.stageBody target)

/-- Stages 7 and 8. -/
def Mach.lastStages (m : Mach) (f : Fuses) (target : Nat) : MbAns :=
  let m := if 7 ≤ target ∧ m.core.rd R.STG_STATUS_STAGE = 6 then m.stageSeven f else m
  let m := if 8 ≤ target ∧ m.core.rd R.STG_STATUS_STAGE = 7 then m.onCore Core.stageEight else m
  m.staged target

/-- Stage 6: the crier's broadcast, once the crier is free. -/
def Mach.stageSix (m : Mach) (f : Fuses) (target : Nat) : MbAns :=
  if m.core.cry.ended = false then .wait (m.onCore (fun c => c.wr R.STG_STATUS_BUSY 1)) [5]
  else match m.cry f (!m.imageStaged) false m.core.cryTargets 0 with
    | (m, true) => .wait (m.onCore (fun c => c.wr R.STG_STATUS_BUSY 1)) [6]
    | (m, false) => m.stageFailed 6 target

/-- The stages from 5 on. -/
def Mach.upperStages (m : Mach) (f : Fuses) (grade : Nat) (o : StageObs) (target : Nat) : MbAns :=
  let m := if 5 ≤ target ∧ m.core.rd R.STG_STATUS_STAGE = 4 then m.stageFive grade o else m
  if 6 ≤ target ∧ m.core.rd R.STG_STATUS_STAGE = 5 then m.stageSix f target else m.lastStages f target

/-- Parts 3U and 4U, at the end of which nothing more runs by itself. -/
def Core.partsHigh (c : Core) (o : StageObs) : Core :=
  let c := if c.rd R.STG_STATUS_STAGE < 3 then (c.testHigh o.high).stageDone 3 else c
  (c.buildHigh.stageDone 4).wr R.STG_STATUS_BUSY 0

/-- Reduced service opened: the request is answered, and the chiplet goes on with 3U and 4U (R363, R370). -/
def Mach.openAnswer (m : Mach) (f : Fuses) (target : Nat) : MbAns :=
  let m := (m.openReduced f).onCore (fun c => c.wr R.STG_STATUS_BUSY 1)
  .done m stOK 0 (m.core.stageBody target)

/-- Stages 3 and 4 in their parts, from the first part not completed, then the rest (R355, R358, R367). -/
def Mach.runStages (m : Mach) (f : Fuses) (grade : Nat) (o : StageObs) (target : Nat) (rsvc : Bool) : MbAns :=
  let st := m.core.rd R.STG_STATUS_STAGE
  let built := decide (m.core.rd R.STG_STATUS_PASSL = 1)
  if 4 ≤ st then m.upperStages f grade o target
  else
    let m := if st = 2 ∧ built = false then m.onCore (fun c => c.testLow o.low) else m
    if m.core.rd R.LDG_ALERT_DEVF = 1 then m.stageFailed 3 target
    else if target = 3 then (m.onCore (fun c => (c.testHigh o.high).stageDone 3)).staged target
    else
      let m := if built then m else m.onCore (fun c => c.buildLow f o.cores)
      if m.core.rd R.LDG_ALERT_DEVF = 1 then m.stageFailed 4 target
      else if rsvc && !m.core.reduced then m.openAnswer f target
      else (m.onCore (fun c => c.partsHigh o)).upperStages f grade o target

/-- Stage 1: the cores released and self-tested. -/
def Mach.stageOne (m : Mach) (o : StageObs) : MbAns :=
  let m := m.onCore (fun c => c.testCores o.cores)
  if m.core.coresLeft < 2 then m.stageFailed 1 1 else (m.onCore (fun c => c.stageDone 1)).staged 1

/-- The checks of R354. -/
def Core.stageCheck (c : Core) (target : Nat) (rsvc : Bool) : Option (Nat × Nat) :=
  let st := c.rd R.STG_STATUS_STAGE
  if target = 0 ∨ target = 2 ∨ 8 < target then some (stFORMAT, 32)
  else if rsvc = true ∧ target < 4 then some (stFORMAT, 33)
  else if target ≤ st then some (stOK, 0)
  else if (target = 1 ∧ st ≠ 0) ∨ (3 ≤ target ∧ st < 2)
      ∨ (5 ≤ target ∧ (c.rd R.CH_BELLSTEP_STATE ≠ 0 ∨ c.allIdle = false ∨ c.rd R.TMB_STATUS_CAL_VALID = 0)) then some (stDENIED, 2)
  else none

/-- MB_STAGE; its notes are 5 while it waits for the crier and 6 while its broadcast runs. -/
def Mach.mbStage (m : Mach) (f : Fuses) (grade : Nat) (o : StageObs) (r : MbReq) : MbAns :=
  let target := r.byte 0
  let rsvc := bit (r.byte 1) 0
  match r.note with
  | [] =>
    match m.core.stageCheck target rsvc with
    | some (st, d) => .done m st d (if st = stOK then m.core.stageBody 0 else [])
    | none =>
      let m := m.onCore (fun c => ((c.wr R.STG_STATUS_FAIL 0).wr R.STG_STATUS_FSTAGE 0).wr R.STG_STATUS_FSTAT 0)
      if target = 1 then m.stageOne o else m.runStages f grade o target rsvc
  | [5] => m.stageSix f target
  | _ =>
    if m.core.cry.ended = false then .wait m r.note
    else if m.core.cryOk then (m.onCore (fun c => c.stageDone 6)).lastStages f target
    else m.stageFailed 6 target

/-- While 3U and 4U run by themselves, a further request for stage 4 or above waits in its slot (R363); a compute-only reset
abandons them (R367). -/
def Core.stageFree (c : Core) : Bool :=
  !(decide (c.rd R.STG_STATUS_RSVC = 1) && decide (c.rd R.STG_STATUS_PASSU = 0) && decide (c.rd R.STG_STATUS_BUSY = 1))

/-- MB_STAGE. -/
def execMbStage (obs : StageObs) (s : State) : Host.Outcome State Fault Refusal :=
  s.onMach (fun m => m.mbRow (fun r => mbIs 0x10 r && (m.core.stageFree || decide (r.byte 0 < 4)))
    (fun m r => m.mbStage s.fuses s.grade obs r))

/-- STAGE_3U_4U: in reduced service the chiplet goes on by itself (R363). -/
def execStage3u4u (obs : StageObs) (s : State) : Host.Outcome State Fault Refusal :=
  s.onCore (fun c => if c.stageFree then c else c.partsHigh obs)

end Sys2Proof.Machine
end

