-- ==== Sys2Proof/Machine/Tap.lean ====
section
/-! DEFINITION. The test port (R419 to R423): its controller, the test instructions, the test registers, and the registers
of the control page that stand outside the logic. -/

namespace Sys2Proof.Machine

/-! ## Instructions (R420, R421) -/

/-- The codes of Table 19.10, and those a locked chiplet does not take. -/
def tapCodes : List Nat := [0x00, 0x01, 0x02, 0x03, 0x04, 0x10, 0x11, 0x18, 0x20, 0x21, 0x30, 0x31, 0xFF]
def lockedCodes : List Nat := [0x20, 0x21, 0x30, 0x31]

/-- The instruction that a code loaded selects. -/
def loadedCode (locked : Bool) (code : Nat) : Nat :=
  if tapCodes.contains code && !(locked && lockedCodes.contains code) then code else 0xFF

/-- The instruction in effect: a bump-driving one acts as BYPASS while FULL_RST_N is high. -/
def State.irNow (s : State) : Nat := if bumpDriving s.tap.ir && s.pwr.fullRstN then 0xFF else s.tap.ir

/-! ## Test registers (R420, R423) -/

/-- IDCODE. -/
def idcodeWord : Nat := packBits [(1, 1), (11, Config.jep106.toNat), (16, 0x5A1C), (4, 1)]

/-- TAPSTATE of a controller state; the single codes of the DR and IR states are not given (log entry 34). -/
def tapStateCode (t : TapState) : Nat :=
  let dr := fun n => 2 + Config.tapCode n % 6
  let ir := fun n => 8 + Config.tapCode n % 6
  match t with
  | .reset => 0 | .idle => 1
  | .selDr => dr 0 | .capDr => dr 1 | .shDr => dr 2 | .ex1Dr => dr 3 | .pauDr => dr 4 | .ex2Dr => dr 5 | .upDr => dr 6
  | .selIr => ir 7 | .capIr => ir 8 | .shIr => ir 9 | .ex1Ir => ir 10 | .pauIr => ir 11 | .ex2Ir => ir 12 | .upIr => ir 13

/-- TST_STATUS (Table 19.12). -/
def State.tstStatus (s : State) : Nat :=
  packBits [(1, b2n s.fuses.locked), (8, s.irNow), (4, tapStateCode s.tap.tap), (1, b2n (bumpDriving s.irNow)),
    (1, b2n s.pwr.trip), (1, 0), (16, s.tap.resets)]

/-- Registers of the control page that stand outside the logic. -/
def State.ext (s : State) (off : Nat) : Option Nat :=
  if off = R.CH_SECFUSE_HMEPOCH.off then some s.fuses.word
  else if (R.CH_IDHASH_IDHASH 0).off ≤ off ∧ off < (R.CH_IDHASH_IDHASH 6).off ∧ off % 8 = 0 then
    some (leAt s.fuses.idHash (off - (R.CH_IDHASH_IDHASH 0).off) 8)
  else if off = R.TST_STATUS_LOCKED.off then some s.tstStatus
  else if off = R.TST_IDCODE_IDCODE.off then some idcodeWord
  else none

/-- READREQ. -/
def execReadreq (i : Nat) (s : State) : Host.Outcome State Fault Refusal := s.onMach (fun m => m.readreq s.ext i)

/-! ## Data registers -/

/-- Cells of the boundary register (14 sideband and 5 test bumps) and of the die wrapper register (every Sheind wire and
sideband bump; Table 19.1). -/
def boundaryCells : Nat := 19
def wrapperCells : Nat := 97454

/-- What the cells of a register sample, as a number. -/
def sampledCells (k : Nat) : Nat → Nat
  | 0 => 0
  | n + 1 => sampledCells k n + b2n (Config.sampled k n) * 2 ^ n

/-- The register between TDI and TDO under an instruction: its length, and what Capture-DR puts into it. -/
def State.capture (s : State) (ir : Nat) : Nat × Nat :=
  let k := s.mach.core.free
  if ir = 0x01 then (32, idcodeWord)
  else if ir = 0x18 then (64, s.tstStatus)
  else if ir = 0x00 ∨ ir = 0x02 then (boundaryCells, sampledCells k boundaryCells)
  else if ir = 0x10 ∨ ir = 0x11 then (wrapperCells, sampledCells k wrapperCells)
  else if lockedCodes.contains ir then
    let n := Config.scanLength ir + 1
    (n, sampledCells k n)
  else (1, 0)

/-- Whether an instruction's register samples what the spec does not give. -/
def samples (ir : Nat) : Bool := !(decide (ir = 0x01) || decide (ir = 0x18) || decide (ir = 0x03) || decide (ir = 0x04) || decide (ir = 0xFF))

/-- Capture-DR. -/
def State.captureDr (s : State) : State :=
  let x := s.capture s.irNow
  let s : State := { s with tap := { s.tap with drLen := x.1, drShift := x.2 } }
  if samples s.irNow then { s with mach := s.mach.onCore (fun c => c.draw.2) } else s

/-- Update-DR: the boundary or the wrapper cells take what was shifted in. -/
def State.updateDr (s : State) : State :=
  if s.irNow = 0x00 ∨ s.irNow = 0x02 then { s with tap := { s.tap with boundary := s.tap.drShift } }
  else if s.irNow = 0x10 then { s with tap := { s.tap with wrapper := s.tap.drShift } }
  else s

/-- Update-IR. SCAN and WS_INTEST on an unlocked chiplet erase the rebuilt identity key and remove the chiplet from operation
(R422); a bump-driving instruction opens the by-pass while it is in effect. -/
def State.updateIr (s : State) (code : Nat) : State :=
  let ir := loadedCode s.fuses.locked code
  let s : State := { s with tap := { s.tap with ir := ir } }
  let s : State := if ir = 0x30 ∨ ir = 0x21 then { s with pwr := { s.pwr with erased := true, out := true } } else s
  s.holdOpen

/-! ## The controller (IEEE 1149.1) -/

/-- The next state at a rising edge of TCK. -/
def TapState.next (t : TapState) (tms : Bool) : TapState :=
  match t, tms with
  | .reset, true => .reset | .reset, false => .idle
  | .idle, true => .selDr | .idle, false => .idle
  | .selDr, true => .selIr | .selDr, false => .capDr
  | .capDr, true => .ex1Dr | .capDr, false => .shDr
  | .shDr, true => .ex1Dr | .shDr, false => .shDr
  | .ex1Dr, true => .upDr | .ex1Dr, false => .pauDr
  | .pauDr, true => .ex2Dr | .pauDr, false => .pauDr
  | .ex2Dr, true => .upDr | .ex2Dr, false => .shDr
  | .upDr, true => .selDr | .upDr, false => .idle
  | .selIr, true => .reset | .selIr, false => .capIr
  | .capIr, true => .ex1Ir | .capIr, false => .shIr
  | .shIr, true => .ex1Ir | .shIr, false => .shIr
  | .ex1Ir, true => .upIr | .ex1Ir, false => .pauIr
  | .pauIr, true => .ex2Ir | .pauIr, false => .pauIr
  | .ex2Ir, true => .upIr | .ex2Ir, false => .shIr
  | .upIr, true => .selDr | .upIr, false => .idle

/-- A shift by one place toward TDO, TDI entering at the far end. -/
def shiftIn (len x : Nat) (tdi : Bool) : Nat := x / 2 % 2 ^ (len - 1) + b2n tdi * 2 ^ (len - 1)

/-- A rising edge: capture or shift in the present state, then the next one by TMS. -/
def State.tckRise (s : State) (tms tdi : Bool) : State :=
  let s : State := match s.tap.tap with
    | .capIr => { s with tap := { s.tap with irShift := 1 } }
    | .shIr => { s with tap := { s.tap with irShift := shiftIn 8 s.tap.irShift tdi } }
    | .capDr => s.captureDr
    | .shDr => { s with tap := { s.tap with drShift := shiftIn s.tap.drLen s.tap.drShift tdi } }
    | _ => s
  let n := s.tap.tap.next tms
  if n = .reset then ({ s with tap := s.tap.toReset }).holdOpen else { s with tap := { s.tap with tap := n } }

/-- A falling edge: the updates, and TDO while shifting. -/
def State.tckFall (s : State) : State :=
  let s : State := { s with tap := { s.tap with tdo := none } }
  match s.tap.tap with
  | .upIr => s.updateIr s.tap.irShift
  | .upDr => s.updateDr
  | .shIr => { s with tap := { s.tap with tdo := some (bit s.tap.irShift 0) } }
  | .shDr => { s with tap := { s.tap with tdo := some (bit s.tap.drShift 0) } }
  | _ => s

/-- The test port acts only while the regulators are up (R419). -/
def State.onTap (s : State) (f : State → State) : Host.Outcome State Fault Refusal := .next (if s.pwr.on then f s else s)

/-- TCK_EDGE: a level TCK has already is no edge. -/
def execTckEdge (rise tms tdi : Bool) (s : State) : Host.Outcome State Fault Refusal :=
  s.onTap (fun s =>
    if s.tap.tck = rise then s
    else
      let s : State := { s with tap := { s.tap with tck := rise } }
      if rise then s.tckRise tms tdi else s.tckFall)

/-- TAP_RESET: TRST_N low. -/
def execTapReset (s : State) : Host.Outcome State Fault Refusal := s.onTap (fun s => ({ s with tap := s.tap.toReset }).holdOpen)

/-! ## Instruction rows: a whole scan of the instruction, then a capture of its register -/

/-- An instruction scanned in from whatever state the controller is in, ending in Run-Test/Idle with its register captured. -/
def State.scanIr (s : State) (code : Nat) : State :=
  let s : State := { s with tap := { s.tap with tap := .idle, irShift := code, tdo := none } }
  (s.updateIr code).captureDr

/-- EXTEST. -/
def execExtest (s : State) : Host.Outcome State Fault Refusal := s.onTap (fun s => s.scanIr 0x00)
/-- IDCODE. -/
def execIdcode (s : State) : Host.Outcome State Fault Refusal := s.onTap (fun s => s.scanIr 0x01)
/-- SAMPLE_PRELOAD. -/
def execSamplePreload (s : State) : Host.Outcome State Fault Refusal := s.onTap (fun s => s.scanIr 0x02)
/-- CLAMP. -/
def execClamp (s : State) : Host.Outcome State Fault Refusal := s.onTap (fun s => s.scanIr 0x03)
/-- HIGHZ. -/
def execHighz (s : State) : Host.Outcome State Fault Refusal := s.onTap (fun s => s.scanIr 0x04)
/-- DW_EXTEST. -/
def execDwExtest (s : State) : Host.Outcome State Fault Refusal := s.onTap (fun s => s.scanIr 0x10)
/-- DW_SAMPLE. -/
def execDwSample (s : State) : Host.Outcome State Fault Refusal := s.onTap (fun s => s.scanIr 0x11)
/-- TSTREAD: TST_STATUS is captured and read out. -/
def execTstread (s : State) : Host.Outcome State Fault Refusal :=
  s.onTap (fun s =>
    let s := s.scanIr 0x18
    { s with mach := s.mach.onCore (fun c => { c with lastRead := s.tstStatus }) })
/-- WS_SELECT. -/
def execWsSelect (s : State) : Host.Outcome State Fault Refusal := s.onTap (fun s => s.scanIr 0x20)
/-- WS_INTEST. -/
def execWsIntest (s : State) : Host.Outcome State Fault Refusal := s.onTap (fun s => s.scanIr 0x21)
/-- SCAN. -/
def execScan (s : State) : Host.Outcome State Fault Refusal := s.onTap (fun s => s.scanIr 0x30)
/-- MBIST. -/
def execMbist (s : State) : Host.Outcome State Fault Refusal := s.onTap (fun s => s.scanIr 0x31)
/-- BYPASS. -/
def execBypass (s : State) : Host.Outcome State Fault Refusal := s.onTap (fun s => s.scanIr 0xFF)

end Sys2Proof.Machine
end

