-- ==== Sys2Proof/Machine/Dispatch.lean ====
section
/-! DEFINITION. One arm per command: a direct call of its meaning, or a rejection by name. -/

namespace Sys2Proof.Machine

/-- The effect of a command on everything but the queue. -/
def exec (i : Instr) (s : State) : Host.Outcome State Fault Refusal :=
  match i with
  | .nop u q f => Sys2Proof.Machine.execNop u q f s
  | .tset u q f => Sys2Proof.Machine.execTset u q f s
  | .tinc u q f => Sys2Proof.Machine.execTinc u q f s
  | .qadv t => Sys2Proof.Machine.execQadv t s
  | .regwr t => Sys2Proof.Machine.execRegwr t s
  | .memQWrite t => Sys2Proof.Machine.execMemQWrite t s
  | .memBankmapWrite t => Sys2Proof.Machine.execMemBankmapWrite t s
  | .memRgnWrite t => Sys2Proof.Machine.execMemRgnWrite t s
  | .br t => Sys2Proof.Machine.execBr t s
  | .flagrd t => Sys2Proof.Machine.execFlagrd t s
  | .shclr t => Sys2Proof.Machine.execShclr t s
  | .abort t => Sys2Proof.Machine.execAbort t s
  | .post t => Sys2Proof.Machine.execPost t s
  | .mma t a => Sys2Proof.Machine.execMma t a s
  | .chain t => Sys2Proof.Machine.execChain t s
  | .psum t => Sys2Proof.Machine.execPsum t s
  | .put u q f => Sys2Proof.Machine.execPut u q f s
  | .get u q f => Sys2Proof.Machine.execGet u q f s
  | .gather t f => Sys2Proof.Machine.execGather t f s
  | .copy u q f => Sys2Proof.Machine.execCopy u q f s
  | .rtinc u q f => Sys2Proof.Machine.execRtinc u q f s
  | .seal t f => Sys2Proof.Machine.execSeal t f s
  | .sealx t f => Sys2Proof.Machine.execSealx t f s
  | .lwb u q f => Sys2Proof.Machine.execLwb u q f s
  | .linv u q f => Sys2Proof.Machine.execLinv u q f s
  | .lpf u q f => Sys2Proof.Machine.execLpf u q f s
  | .commandFetch u q => Sys2Proof.Machine.execCommandFetch u q s
  | .tallyWait u q => Sys2Proof.Machine.execTallyWait u q s
  | .admission u => Sys2Proof.Machine.execAdmission u s
  | .commandCompletion u q n => Sys2Proof.Machine.execCommandCompletion u q n s
  | .tagWait u q f => Sys2Proof.Machine.execTagWait u q f s
  | .tagwaitExpiry j => Sys2Proof.Machine.execTagwaitExpiry j s
  | .write j => Sys2Proof.Machine.execWrite j s
  | .readreq j => Sys2Proof.Machine.execReadreq j s
  | .readdata j => Sys2Proof.Machine.execReaddata j s
  | .ack j => Sys2Proof.Machine.execAck j s
  | .tincPacket j => Sys2Proof.Machine.execTincPacket j s
  | .submit j => Sys2Proof.Machine.execSubmit j s
  | .reissue u q n k => Sys2Proof.Machine.execReissue u q n k s
  | .partLoss u q n k => Sys2Proof.Machine.execPartLoss u q n k s
  | .streamRelease j => Sys2Proof.Machine.execStreamRelease j s
  | .multicastCopyLanding t => Sys2Proof.Machine.execMulticastCopyLanding t s
  | .packetHop j errs => Sys2Proof.Machine.execPacketHop j errs s
  | .escape j => Sys2Proof.Machine.execEscape j s
  | .portArrival p => Sys2Proof.Machine.execPortArrival p s
  | .linkNotice j => Sys2Proof.Machine.execLinkNotice j s
  | .stackNotice j => Sys2Proof.Machine.execStackNotice j s
  | .healthForward j => Sys2Proof.Machine.execHealthForward j s
  | .healthNotice => Sys2Proof.Machine.execHealthNotice s
  | .epochtmoExpiry => Sys2Proof.Machine.execEpochtmoExpiry s
  | .frame p l obs => Sys2Proof.Machine.execFrame p l obs s
  | .acctmoExpiry j => Sys2Proof.Machine.execAcctmoExpiry j s
  | .idleFrame p l => Sys2Proof.Machine.execIdleFrame p l s
  | .absentNotice p => Sys2Proof.Machine.execAbsentNotice p s
  | .retrain p => Sys2Proof.Machine.execRetrain p s
  | .retire p => Sys2Proof.Machine.execRetire p s
  | .dedup p => Sys2Proof.Machine.execDedup p s
  | .linkTraining p l obs => Sys2Proof.Machine.execLinkTraining p l obs s
  | .partnerTimeout p l => Sys2Proof.Machine.execPartnerTimeout p l s
  | .laneFail p l lane => Sys2Proof.Machine.execLaneFail p l lane s
  | .laneStall p l lane => Sys2Proof.Machine.execLaneStall p l lane s
  | .hardEventLimit p l => Sys2Proof.Machine.execHardEventLimit p l s
  | .countWindow p l => Sys2Proof.Machine.execCountWindow p l s
  | .ackWireFail p l seen => Sys2Proof.Machine.execAckWireFail p l seen s
  | .strandLost p l ackSilent => Sys2Proof.Machine.execStrandLost p l ackSilent s
  | .portLoss p => Sys2Proof.Machine.execPortLoss p s
  | .ringRelay p => Sys2Proof.Machine.execRingRelay p s
  | .bypassClose => Sys2Proof.Machine.execBypassClose s
  | .ringInsertion k obs => Sys2Proof.Machine.execRingInsertion k obs s
  | .insertionRetry k obs => Sys2Proof.Machine.execInsertionRetry k obs s
  | .vringLow => Sys2Proof.Machine.execVringLow s
  | .timeBeacon hub => Sys2Proof.Machine.execTimeBeacon hub s
  | .wghWindow obs => Sys2Proof.Machine.execWghWindow obs s
  | .thermalState d a b => Sys2Proof.Machine.execThermalState d a b s
  | .sensorRemoval d a b => Sys2Proof.Machine.execSensorRemoval d a b s
  | .thermalTrip => Sys2Proof.Machine.execThermalTrip s
  | .phaseFail d phase => Sys2Proof.Machine.execPhaseFail d phase s
  | .tilePost j => Sys2Proof.Machine.execTilePost j s
  | .chipletPost j => Sys2Proof.Machine.execChipletPost j s
  | .lossNotice j => Sys2Proof.Machine.execLossNotice j s
  | .ring j => Sys2Proof.Machine.execRing j s
  | .ringAtTile t => Sys2Proof.Machine.execRingAtTile t s
  | .bellWatchdog => Sys2Proof.Machine.execBellWatchdog s
  | .sealContribution j => Sys2Proof.Machine.execSealContribution j s
  | .sealxPacket j => Sys2Proof.Machine.execSealxPacket j s
  | .sealxCompare j => Sys2Proof.Machine.execSealxCompare j s
  | .mailboxRequest j => Sys2Proof.Machine.execMailboxRequest j s
  | .mbInfo => Sys2Proof.Machine.execMbInfo s
  | .mbFaultlog => Sys2Proof.Machine.execMbFaultlog s
  | .mbAttest => Sys2Proof.Machine.execMbAttest s
  | .mbStage obs => Sys2Proof.Machine.execMbStage obs s
  | .stage3u4u obs => Sys2Proof.Machine.execStage3u4u obs s
  | .mbResetComputeOnly => Sys2Proof.Machine.execMbResetComputeOnly s
  | .mbResetFull => Sys2Proof.Machine.execMbResetFull s
  | .mbFwBegin => Sys2Proof.Machine.execMbFwBegin s
  | .mbFwWrite => Sys2Proof.Machine.execMbFwWrite s
  | .mbFwCommit => Sys2Proof.Machine.execMbFwCommit s
  | .mbTfwWrite => Sys2Proof.Machine.execMbTfwWrite s
  | .mbTfwCry => Sys2Proof.Machine.execMbTfwCry s
  | .mbCryRelayPiece => Sys2Proof.Machine.execMbCryRelayPiece s
  | .mbCryRelayCry => Sys2Proof.Machine.execMbCryRelayCry s
  | .mbSelf => Sys2Proof.Machine.execMbSelf s
  | .mbBellcfg => Sys2Proof.Machine.execMbBellcfg s
  | .mbJobStart => Sys2Proof.Machine.execMbJobStart s
  | .mbRole => Sys2Proof.Machine.execMbRole s
  | .mbAbort => Sys2Proof.Machine.execMbAbort s
  | .mbWinOpen => Sys2Proof.Machine.execMbWinOpen s
  | .mbWinClose => Sys2Proof.Machine.execMbWinClose s
  | .mbRtBuild => Sys2Proof.Machine.execMbRtBuild s
  | .mbRtFlip => Sys2Proof.Machine.execMbRtFlip s
  | .mbRtFree => Sys2Proof.Machine.execMbRtFree s
  | .mbLarSet => Sys2Proof.Machine.execMbLarSet s
  | .mbLarIlv => Sys2Proof.Machine.execMbLarIlv s
  | .mbCap => Sys2Proof.Machine.execMbCap s
  | .mbSetreg => Sys2Proof.Machine.execMbSetreg s
  | .mbDark => Sys2Proof.Machine.execMbDark s
  | .mbDarkLight => Sys2Proof.Machine.execMbDarkLight s
  | .mbPark => Sys2Proof.Machine.execMbPark s
  | .mbParkUnpark => Sys2Proof.Machine.execMbParkUnpark s
  | .mbHallmarkPresent => Sys2Proof.Machine.execMbHallmarkPresent s
  | .mbHallmarkClear => Sys2Proof.Machine.execMbHallmarkClear s
  | .mbHallmarkAdvance => Sys2Proof.Machine.execMbHallmarkAdvance s
  | .mbLdgHistory => Sys2Proof.Machine.execMbLdgHistory s
  | .mbLdgRead => Sys2Proof.Machine.execMbLdgRead s
  | .config => Sys2Proof.Machine.execConfig s
  | .rebuild => Sys2Proof.Machine.execRebuild s
  | .retireTile => Sys2Proof.Machine.execRetireTile s
  | .retireBank => Sys2Proof.Machine.execRetireBank s
  | .retireStrand => Sys2Proof.Machine.execRetireStrand s
  | .retireSlice => Sys2Proof.Machine.execRetireSlice s
  | .coreSwap pass => Sys2Proof.Machine.execCoreSwap pass s
  | .spareSelfTest pass => Sys2Proof.Machine.execSpareSelfTest pass s
  | .report t => Sys2Proof.Machine.execReport t s
  | .repair t => Sys2Proof.Machine.execRepair t s
  | .start => Sys2Proof.Machine.execStart s
  | .cryCollect => Sys2Proof.Machine.execCryCollect s
  | .regionClose t n => Sys2Proof.Machine.execRegionClose t n s
  | .darktmoExpiry t n => Sys2Proof.Machine.execDarktmoExpiry t n s
  | .regionWake t n => Sys2Proof.Machine.execRegionWake t n s
  | .pendClear t => Sys2Proof.Machine.execPendClear t s
  | .scrub t line => Sys2Proof.Machine.execScrub t line s
  | .correctionWriteback j => Sys2Proof.Machine.execCorrectionWriteback j s
  | .rowRemap j => Sys2Proof.Machine.execRowRemap j s
  | .wearThreshold w => Sys2Proof.Machine.execWearThreshold w s
  | .larderRequest j => Sys2Proof.Machine.execLarderRequest j s
  | .nflagsRcRead t => Sys2Proof.Machine.execNflagsRcRead t s
  | .tmbStatusRead => Sys2Proof.Machine.execTmbStatusRead s
  | .netQdepthRead n k p => Sys2Proof.Machine.execNetQdepthRead n k p s
  | .powerOn => Sys2Proof.Machine.execPowerOn s
  | .fullRstNRise slot ward pins => Sys2Proof.Machine.execFullRstNRise slot ward pins s
  | .fullReset => Sys2Proof.Machine.execFullReset s
  | .supplyLoss => Sys2Proof.Machine.execSupplyLoss s
  | .vinLow => Sys2Proof.Machine.execVinLow s
  | .computeOnlyReset => Sys2Proof.Machine.execComputeOnlyReset s
  | .warmRestart obs => Sys2Proof.Machine.execWarmRestart obs s
  | .tapReset => Sys2Proof.Machine.execTapReset s
  | .extest => Sys2Proof.Machine.execExtest s
  | .idcode => Sys2Proof.Machine.execIdcode s
  | .samplePreload => Sys2Proof.Machine.execSamplePreload s
  | .clamp => Sys2Proof.Machine.execClamp s
  | .highz => Sys2Proof.Machine.execHighz s
  | .dwExtest => Sys2Proof.Machine.execDwExtest s
  | .dwSample => Sys2Proof.Machine.execDwSample s
  | .tstread => Sys2Proof.Machine.execTstread s
  | .wsSelect => Sys2Proof.Machine.execWsSelect s
  | .wsIntest => Sys2Proof.Machine.execWsIntest s
  | .scan => Sys2Proof.Machine.execScan s
  | .mbist => Sys2Proof.Machine.execMbist s
  | .bypass => Sys2Proof.Machine.execBypass s
  | .vringRestored => Sys2Proof.Machine.execVringRestored s
  | .partnerPresent p l => Sys2Proof.Machine.execPartnerPresent p l s
  | .positionTrafficResumed k obs => Sys2Proof.Machine.execPositionTrafficResumed k obs s
  | .tckEdge rise tms tdi => Sys2Proof.Machine.execTckEdge rise tms tdi s
  | .mailboxResponse j => Sys2Proof.Machine.execMailboxResponse j s
  | .tripLatchClear cool => Sys2Proof.Machine.execTripLatchClear cool s
  | .slewComplete => Sys2Proof.Machine.execSlewComplete s
  | .sliceSwitchDone l => Sys2Proof.Machine.execSliceSwitchDone l s
  | .domainRampDone d => Sys2Proof.Machine.execDomainRampDone d s

end Sys2Proof.Machine
end

