-- ==== Sys2Proof/Safety.lean ====
section
/-! DEFINITION. What a safe step is, and the words the statements use: a command completing, a queued command finished,
what of a state is left as it was. -/

namespace Sys2Proof

open Sys2Proof.Machine

/-- A step that goes on: it answers a next state. -/
def Safe (s : State) : Prop := ∃ t, step s = .next t

/-- Command `i` answers a next state at `s`, and `P` holds of that state. -/
def Completes (i : Instr) (s : State) (P : State → Prop) : Prop := ∃ t, exec i s = .next t ∧ P t

/-- The fuses, the supplies and pins, the test port and the queue are as they were. -/
def OutsideKept (s t : State) : Prop := t.fuses = s.fuses ∧ t.pwr = s.pwr ∧ t.tap = s.tap ∧ t.pending = s.pending

/-- Every byte of memory and every error standing in a codeword is as it was. -/
def MemKept (s t : State) : Prop := t.mach.mem = s.mach.mem ∧ t.mach.errs = s.mach.errs ∧ t.mach.corr = s.mach.corr

/-- Every register is as it was. -/
def RegsKept (s t : State) : Prop := t.mach.core.creg = s.mach.core.creg ∧ t.mach.core.treg = s.mach.core.treg

/-- The registers in `tile` of one tile, and the chiplet-scope ones in `chip`, may change; every other register is as
it was. -/
def RegsOnly (tile : Nat → Nat → Prop) (chip : Nat → Prop) (s t : State) : Prop :=
  (∀ u off, off < 0x4000 → ¬ tile u off → t.mach.core.tword u off = s.mach.core.tword u off)
    ∧ ∀ off, ¬ chip off → t.mach.core.cword off = s.mach.core.cword off

/-- The queued command of an identity has its outcome. -/
def Finished (t : State) (i : Nat × Nat) (st : Nat) : Prop :=
  (∃ y ∈ t.mach.core.queues.cmds, y.id = i) ∧ ∀ y ∈ t.mach.core.queues.cmds, y.id = i → y.phase = .done ∧ y.status = st

/-- The queued commands of an identity are there, and `P` holds of each. -/
def Queued (t : State) (i : Nat × Nat) (P : Cmd → Prop) : Prop :=
  (∃ y ∈ t.mach.core.queues.cmds, y.id = i) ∧ ∀ y ∈ t.mach.core.queues.cmds, y.id = i → P y

/-- The queued command of an identity has a part of a number, and `P` holds of it. -/
def HasPart (t : State) (i : Nat × Nat) (k : Nat) (P : Part → Prop) : Prop :=
  Queued t i (fun y => (∃ p ∈ y.parts, p.k = k) ∧ ∀ p ∈ y.parts, p.k = k → P p)

/-- One more packet is in the mesh than there was, and `P` holds of it. -/
def Sent (s t : State) (P : Packet → Prop) : Prop := ∃ g, t.mach.core.net.fly = s.mach.core.net.fly ++ [g] ∧ P g.pkt

/-- An engine command as it starts: it has formed nothing yet. -/
def Fresh (x : Cmd) : Prop := x.out = [] ∧ x.rows = [] ∧ x.loom = {} ∧ x.flags = 0 ∧ x.hist = []

/-- Nothing holds a command's read of `n` bytes at a queue offset: bound, bank and regions let it, its tagged slots are FULL,
and no error stands in its lines. -/
def Machine.Mach.ReadsNow (m : Mach) (x : Cmd) (cls off n : Nat) : Prop :=
  m.core.localStatus x cls off n = none ∧ m.core.bankHeld x (x.phys off) n = false ∧
    (∀ k ∈ m.core.taggedSlots x.unit (x.phys off) n, m.core.tag x.unit k = .full) ∧
    ∀ l ∈ touched 6 (x.phys off) n, m.lineErrs (lineId x.unit l) = []

/-- Nothing holds a command's write of the byte at an address: its region takes it, its slot is untagged or can be claimed, and
no error stands in its line. -/
def Machine.Mach.WritesNow (m : Mach) (x : Cmd) (p : Nat) : Prop :=
  m.core.modeStatus x.unit p 1 = none ∧ m.core.bankHeld x p 1 = false ∧ m.core.claimable x.unit (p / 256) x.owner = true ∧
    m.lineErrs (lineId x.unit (p / 64)) = []

/-- Nothing holds a chain stage's access to the `g.2` bytes at `g.1`: the operand cache has them without errors; a load reads
untagged memory; a store may write every byte. -/
def Machine.Mach.LaneNow (m : Mach) (x : Cmd) (st : Stage) (g : Nat × Nat) : Prop :=
  (st.moves = true → st.cache = true → g.1 + g.2 ≤ 0x10000 ∧ ∀ l ∈ touched 6 g.1 g.2, m.lineErrs (cacheLineId x.unit l) = []) ∧
    (st.sop = sopLD → st.cache = false → m.ReadsNow x clsChain g.1 g.2 ∧ m.core.taggedSlots x.unit (x.phys g.1) g.2 = []) ∧
    (st.sop = sopST → st.cache = false → x.inBound g.1 g.2 = true ∧ x.bankOk clsChain g.1 g.2 = true ∧
      ∀ i < g.2, m.WritesNow x (x.phys g.1 + i))

/-- The bytes of a command's memory at a queue offset. -/
def Machine.Mach.bytesAt (m : Mach) (x : Cmd) (off n : Nat) : List Byte := m.read (tileBase x.unit + x.phys off) n

/-- Memory is as it was, but for bytes written to a tile one after another. -/
def TileWrites (s t : State) (u : Nat) (ws : List (Nat × Byte)) : Prop :=
  ∀ a, t.mach.byteAt a = (s.mach.writeAll (ws.map (fun w => (tileBase u + w.1, w.2)))).byteAt a

/-- The logic runs, and the command in an in-flight slot of a queue has an opcode. -/
def Runs (s : State) (u q f op : Nat) (x : Cmd) : Prop :=
  s.live = true ∧ isQueue u q = true ∧ s.mach.core.running? u q f = some x ∧ x.opcode = op

/-- A command has issued one more part, its next, and `P` holds of it. -/
def Issued (t : State) (x : Cmd) (P : Part → Prop) : Prop :=
  (∃ y ∈ t.mach.core.queues.cmds, y.id = x.id) ∧
    ∀ y ∈ t.mach.core.queues.cmds, y.id = x.id → ∃ p, y.parts = x.parts ++ [p] ∧ p.k = x.parts.length ∧ P p

/-- Every accepted request stands in one of the 16 slots of one of the six ports (R328). -/
def SlotsOk (s : State) : Prop := ∀ x ∈ s.mach.core.mb.reqs, x.port < 6 ∧ x.slot < 16

/-- The logic runs, no request of a catalogue row is under way, and it is the row's turn: the first request that has not
started is one of its, is in form and may be carried out, and what it needs is free. Requests stand in slots of ports
(Obligations.RequestsStandInSlots). -/
def Turn (s : State) (mine : MbReq → Bool) (r : MbReq) : Prop :=
  s.live = true ∧ s.mach.core.mbHead = some r ∧ mine r = true ∧ s.mach.core.mbPlain r = none ∧ s.mach.core.mbFree r = true ∧
    (∀ x ∈ s.mach.core.mb.reqs, x.started = true → mine x = false) ∧ SlotsOk s

/-- The logic runs, and the one request the mailboxes hold is one of a catalogue row's, under way. -/
def Resumes (s : State) (mine : MbReq → Bool) (r : MbReq) : Prop :=
  s.live = true ∧ s.mach.core.mb.reqs = [r] ∧ r.started = true ∧ mine r = true ∧ SlotsOk s

/-- A request has been answered: its slot holds none, and by an ACTIVE port a response with the status, DETAIL and body has
left for the address it named. -/
def Responds (t : State) (r : MbReq) (st detail : Nat) (body : List Byte) : Prop :=
  (∀ x ∈ t.mach.core.mb.reqs, ¬ (x.port = r.port ∧ x.slot = r.slot)) ∧
    (t.mach.core.rd (R.PRT_STATE_STATE r.port) = 2 → ∃ g ∈ t.mach.core.net.fly, g.pkt.typ = 8 ∧ g.pkt.dst = r.resp ∧
      leAt g.pkt.payload 2 1 = st ∧ leAt g.pkt.payload 12 4 = detail ∧ g.pkt.payload.drop 32 = body)

/-- A request is under way: it has started and waits, with a note. -/
def Waits (t : State) (r : MbReq) (note : List Nat) : Prop :=
  ∃ x ∈ t.mach.core.mb.reqs, x.port = r.port ∧ x.slot = r.slot ∧ x.started = true ∧ x.note = note

/-- A byte memory in its canonical form: addresses strictly rising, and no entry equal to what an unlisted one reads as. -/
abbrev Machine.Memory.wf (m : List Host.Cell) : Prop := SMap.wf (0 : Byte) m = true

/-! ## Kinds of rows -/

/-- The rows of the supplies, the reset pins, the trip latch and the test port: what acts from outside the logic. -/
def outsideRow : Instr → Bool
  | .powerOn | .fullRstNRise _ _ _ | .fullReset | .vinLow | .supplyLoss | .thermalTrip | .tripLatchClear _ | .vringLow
  | .vringRestored | .tapReset | .tckEdge _ _ _ | .extest | .idcode | .samplePreload | .clamp | .highz | .dwExtest | .dwSample
  | .tstread | .wsSelect | .wsIntest | .scan | .mbist | .bypass => true
  | _ => false

/-- The rows by which the logic itself resets or blows a fuse. -/
def crossingRow : Instr → Bool
  | .mbHallmarkAdvance | .mbResetComputeOnly | .mbResetFull | .computeOnlyReset | .warmRestart _ => true
  | _ => false

/-- Rows that act on registers, queues and packets alone and store nothing. -/
def controlRow : Instr → Bool
  | .admission _ | .tagWait _ _ _ | .tagwaitExpiry _ | .tincPacket _ | .reissue _ _ _ _ | .partLoss _ _ _ _ | .streamRelease _
  | .packetHop _ _ | .escape _ | .portArrival _ | .linkNotice _ | .stackNotice _ | .healthForward _ | .healthNotice
  | .epochtmoExpiry | .frame _ _ _ | .acctmoExpiry _ | .idleFrame _ _ | .absentNotice _ | .retrain _ | .retire _ | .dedup _
  | .linkTraining _ _ _ | .partnerTimeout _ _ | .laneFail _ _ _ | .laneStall _ _ _ | .hardEventLimit _ _ | .countWindow _ _
  | .ackWireFail _ _ _ | .strandLost _ _ _ | .portLoss _ | .ringRelay _ | .bypassClose | .ringInsertion _ _
  | .insertionRetry _ _ | .timeBeacon _ | .wghWindow _ | .thermalState _ _ _ | .sensorRemoval _ _ _ | .phaseFail _ _
  | .tilePost _ | .chipletPost _ | .lossNotice _ | .ring _ | .ringAtTile _ | .bellWatchdog | .sealContribution _
  | .sealxPacket _ | .sealxCompare _ | .mailboxRequest _ | .stage3u4u _ | .coreSwap _ | .spareSelfTest _ | .cryCollect
  | .pendClear _ | .wearThreshold (.rate _) | .wearThreshold (.limit _) | .wearThreshold (.link _ _ _)
  | .wearThreshold (.strand _ _) | .nflagsRcRead _ | .tmbStatusRead | .netQdepthRead _ _ _ | .partnerPresent _ _
  | .positionTrafficResumed _ _ | .slewComplete => true
  | _ => false

end Sys2Proof
end

