-- ==== Sys2Proof/WellFormed.lean ====
section
/-! DEFINITION. Which commands name units, queues, ports, strands, domains and links that the chiplet has (Tables 1.8, 9.1,
10.1, 11.1; R275). -/

namespace Sys2Proof

open Sys2Proof.Machine

/-- A well-formed command: every operand that names a part of the chiplet names one that exists. Places in lists (an
arrival, a packet, a called row, a waiting correction) may name none. -/
def wellFormed (i : Instr) : Bool :=
  match i with
  | .nop u q _ => isQueue u q
  | .tset u q _ => isQueue u q
  | .tinc u q _ => isQueue u q
  | .qadv t => isTile t
  | .regwr t => isTile t
  | .memQWrite t => isTile t
  | .memBankmapWrite t => isTile t
  | .memRgnWrite t => isTile t
  | .br t => isTile t
  | .flagrd t => isTile t
  | .shclr t => isTile t
  | .abort t => isTile t
  | .post t => isTile t
  | .mma t a => isTile t && decide (a < 4)
  | .chain t => isTile t
  | .psum t => isTile t
  | .put u q _ => isQueue u q
  | .get u q _ => isQueue u q
  | .gather t _ => isTile t
  | .copy u q _ => isQueue u q
  | .rtinc u q _ => isQueue u q
  | .seal t _ => isTile t
  | .sealx t _ => isTile t
  | .lwb u q _ => isQueue u q
  | .linv u q _ => isQueue u q
  | .lpf u q _ => isQueue u q
  | .commandFetch u q => isQueue u q
  | .tallyWait u q => isQueue u q
  | .admission u => decide (u < 1060)
  | .commandCompletion u q _ => isQueue u q
  | .tagWait u q _ => isQueue u q
  | .tagwaitExpiry _ => true
  | .write _ => true
  | .readreq _ => true
  | .readdata _ => true
  | .ack _ => true
  | .tincPacket _ => true
  | .submit _ => true
  | .reissue u q _ _ => isQueue u q
  | .partLoss u q _ _ => isQueue u q
  | .streamRelease _ => true
  | .multicastCopyLanding t => isTile t
  | .packetHop _ _ => true
  | .escape _ => true
  | .portArrival p => decide (p < 6)
  | .linkNotice _ => true
  | .stackNotice _ => true
  | .healthForward _ => true
  | .healthNotice => true
  | .epochtmoExpiry => true
  | .frame p s _ => isStrand p s
  | .acctmoExpiry _ => true
  | .idleFrame p s => isStrand p s
  | .absentNotice p => decide (p < 6)
  | .retrain p => decide (p < 6)
  | .retire p => decide (p < 6)
  | .dedup p => decide (p < 6)
  | .linkTraining p l _ => isStrand p l
  | .partnerTimeout p l => isStrand p l
  | .laneFail p s _ => isStrand p s
  | .laneStall p s _ => isStrand p s
  | .hardEventLimit p s => isStrand p s
  | .countWindow p s => isStrand p s
  | .ackWireFail p s seen => isStrand p s && decide (wiresBehind seen.k0 seen.k1 ≠ 0)
  | .strandLost p s _ => isStrand p s
  | .portLoss p => decide (p < 6)
  | .ringRelay p => decide (p = 4) || decide (p = 5)
  | .bypassClose => true
  | .ringInsertion k _ => decide (k < 4)
  | .insertionRetry k _ => decide (k < 4)
  | .vringLow => true
  | .timeBeacon _ => true
  | .wghWindow _ => true
  | .thermalState d _ _ => decide (d < 29)
  | .sensorRemoval d _ _ => decide (d < 29)
  | .thermalTrip => true
  | .phaseFail d _ => decide (d < 30)
  | .tilePost _ => true
  | .chipletPost _ => true
  | .lossNotice _ => true
  | .ring _ => true
  | .ringAtTile t => isTile t
  | .bellWatchdog => true
  | .sealContribution _ => true
  | .sealxPacket _ => true
  | .sealxCompare _ => true
  | .mailboxRequest _ => true
  | .mbInfo => true
  | .mbFaultlog => true
  | .mbAttest => true
  | .mbStage _ => true
  | .stage3u4u _ => true
  | .mbResetComputeOnly => true
  | .mbResetFull => true
  | .mbFwBegin => true
  | .mbFwWrite => true
  | .mbFwCommit => true
  | .mbTfwWrite => true
  | .mbTfwCry => true
  | .mbCryRelayPiece => true
  | .mbCryRelayCry => true
  | .mbSelf => true
  | .mbBellcfg => true
  | .mbJobStart => true
  | .mbRole => true
  | .mbAbort => true
  | .mbWinOpen => true
  | .mbWinClose => true
  | .mbRtBuild => true
  | .mbRtFlip => true
  | .mbRtFree => true
  | .mbLarSet => true
  | .mbLarIlv => true
  | .mbCap => true
  | .mbSetreg => true
  | .mbDark => true
  | .mbDarkLight => true
  | .mbPark => true
  | .mbParkUnpark => true
  | .mbHallmarkPresent => true
  | .mbHallmarkClear => true
  | .mbHallmarkAdvance => true
  | .mbLdgHistory => true
  | .mbLdgRead => true
  | .config => true
  | .rebuild => true
  | .retireTile => true
  | .retireBank => true
  | .retireStrand => true
  | .retireSlice => true
  | .coreSwap _ => true
  | .spareSelfTest _ => true
  | .report t => isTile t
  | .repair t => isTile t
  | .start => true
  | .cryCollect => true
  | .regionClose t n => isTile t && decide (n < 16)
  | .darktmoExpiry t n => isTile t && decide (n < 16)
  | .regionWake t n => isTile t && decide (n < 16)
  | .pendClear t => isTile t
  | .scrub t line => decide (t < 1056) && decide (line < if t < 960 then 16384 else 65536)
  | .correctionWriteback _ => true
  | .rowRemap _ => true
  | .wearThreshold w => wearNames w
  | .larderRequest _ => true
  | .nflagsRcRead t => isTile t
  | .tmbStatusRead => true
  | .netQdepthRead n k p => decide (n < 1104) && decide (k < 3) && decide (p < 6)
  | .powerOn => true
  | .fullRstNRise slot ward pins => decide (slot < 16) && decide (ward < 4) && decide (pins.asm < 8)
  | .fullReset => true
  | .supplyLoss => true
  | .vinLow => true
  | .computeOnlyReset => true
  | .warmRestart _ => true
  | .tapReset => true
  | .extest => true
  | .idcode => true
  | .samplePreload => true
  | .clamp => true
  | .highz => true
  | .dwExtest => true
  | .dwSample => true
  | .tstread => true
  | .wsSelect => true
  | .wsIntest => true
  | .scan => true
  | .mbist => true
  | .bypass => true
  | .vringRestored => true
  | .partnerPresent p l => isStrand p l
  | .positionTrafficResumed k _ => decide (k < 4)
  | .tckEdge _ _ _ => true
  | .mailboxResponse _ => true
  | .tripLatchClear _ => true
  | .slewComplete => true
  | .sliceSwitchDone s => decide (s < 96)
  | .domainRampDone d => decide (d < 28)

end Sys2Proof
end

