-- ==== Sys2Proof/Certificates/Slice0/Obligations.lean ====
section
/-! DEFINITION. The statements for the provers. -/

open Sys2Proof Sys2Proof.Machine

/-! ## Every command -/

/-- A step takes the command at the front of the queue and runs it on the state with the queue's rest. The queue of waiting commands
is the model's own (log entry 3). -/
def Obligations.StepRunsFront : Prop :=
  ∀ (i : Instr) (rest : List Instr) (s : State), step { s with pending := i :: rest } = exec i { s with pending := rest }

/-- A command completes exactly where its operands name parts of the chiplet (log entry 2); elsewhere it faults by name. That such a
command faults is the model's choice. -/
def Obligations.WellFormedExactlyCompletes : Prop :=
  ∀ (i : Instr) (s : State), (wellFormed i = true → Completes i s (fun _ => True)) ∧
    (wellFormed i = false → exec i s = .fault .noSuchUnit)

/-! ## Sequencer commands (chapter 9) -/

/-- R192, R194, R195, R204: NOP only completes; TSET sets the whole tally of its unit and clears OVF; TINC adds to it, saturating
with OVF and FAULT, and never clears FAULT; a TINC with N = 0 that reaches the head completes with FORMAT. The frame of NOP,
TSET and TINC: no memory, nothing outside the logic, and no register but the named tally. -/
def Obligations.TallyCommandsActOnTheirTally : Prop :=
  (∀ (s : State) (u q f : Nat) (x : Cmd),
     (Runs s u q f 0x00 x → Completes (.nop u q f) s (fun t => Finished t x.id stOK)) ∧
     (Runs s u q f 0x01 x → Completes (.tset u q f) s (fun t =>
       Finished t x.id stOK ∧ t.mach.core.tallyCount u (bits x.word 64 6) = bits x.word 70 20
         ∧ t.mach.core.tallyFault u (bits x.word 64 6) = bit x.word 90 ∧ t.mach.core.tallyOvf u (bits x.word 64 6) = false)) ∧
     (Runs s u q f 0x02 x → Completes (.tinc u q f) s (fun t =>
       let n := bits x.word 64 6
       let sum := s.mach.core.tallyCount u n + bits x.word 70 20
       Finished t x.id stOK ∧ t.mach.core.tallyCount u n = min sum 0xFFFFF
         ∧ t.mach.core.tallyFault u n = (s.mach.core.tallyFault u n || bit x.word 90 || decide (0xFFFFF < sum))
         ∧ t.mach.core.tallyOvf u n = (s.mach.core.tallyOvf u n || decide (0xFFFFF < sum)))) ∧
     (s.live = true → isQueue u q = true → s.mach.core.head? u q = some x → x.phase = .fetched → x.opcode = 0x02 →
       bits x.word 70 20 = 0 → ((s.mach.core.others x).filter Cmd.started).length < inflightLimit x.unit x.q →
       (x.fence = true → s.mach.core.others x = []) →
       Completes (.tallyWait u q) s (fun t => Finished t x.id stFORMAT ∧ RegsKept s t ∧ MemKept s t))) ∧
  (∀ (s t : State) (u q f op : Nat) (x : Cmd), Runs s u q f op x →
     (exec (.nop u q f) s = .next t → MemKept s t ∧ OutsideKept s t ∧ RegsKept s t) ∧
     (exec (.tset u q f) s = .next t ∨ exec (.tinc u q f) s = .next t →
       MemKept s t ∧ OutsideKept s t ∧
       RegsOnly (fun t' off => u < 960 ∧ t' = u ∧ off = 0x400 + 8 * bits x.word 64 6)
         (fun off => 960 ≤ u ∧ off = 0x100000 + 0x800 * (u - 960) + 0x400 + 8 * bits x.word 64 6) s t))

/-- R205, R187: QADV sets the PI of a queue of its tile where the commands then to be fetched are at most RLEN, or completes with
BOUND and leaves every register as it was. R206: REGWR of a ring descriptor writes the masked bits, fails on RLEN above 8000h
and on a base or length of a busy queue, and completes with BOUND where PI would exceed the ring; where it does not complete
with OK no register changes. R206: REGWR of MEM_TIMERS writes the masked bits; MEM_STATUS, MEM_ERRCNT, MEM_UEADDR: bits written
with one clear. R160: REGWR of MEM_Q[q] takes effect unless base plus bound exceed the memory; then CFGERR is set and it fails. -/
def Obligations.RegisterWritesTakeEffectOrFail : Prop :=
  (∀ (s : State) (t : Nat) (x : Cmd), t < 960 → Runs s t 7 0 0x03 x →
     let q := bits x.word 64 3
     let n := bits x.word 68 16
     let pi := ((if bit x.word 67 then 0 else s.mach.core.ringPI t q) + n) % 65536
     let old := signedCount (s.mach.core.ringPI t q) (s.mach.core.ringCI t q)
     let count : Int := if bit x.word 67 = false then old + n
       else if old < 0 then old + ((n + 65536 - s.mach.core.ringPI t q) % 65536 : Nat)
       else ((n + 65536 - s.mach.core.ringCI t q) % 65536 : Nat)
     (count ≤ s.mach.core.ringLen t q →
       Completes (.qadv t) s (fun s' => Finished s' x.id stOK ∧ s'.mach.core.ringPI t q = pi
         ∧ s'.mach.core.ringLen t q = s.mach.core.ringLen t q ∧ MemKept s s' ∧ OutsideKept s s'
         ∧ RegsOnly (fun t' off => t' = t ∧ off = 8 * q) (fun _ => False) s s')) ∧
     (s.mach.core.ringLen t q < count →
       Completes (.qadv t) s (fun s' => Finished s' x.id stBOUND ∧ RegsKept s s' ∧ MemKept s s' ∧ OutsideKept s s'))) ∧
  (∀ (s : State) (t q : Nat) (x : Cmd), t < 960 → q < 8 → Runs s t 7 0 0x04 x → rwBlk x.word = 1 → rwOfs x.word = 8 * q →
     let old := (s.mach.core.tword t (8 * q)).toNat
     let new := masked old (rwValue x.word) (rwBits x.word)
     let long := decide (0x8000 < bits new 16 16)
     let busy := (decide (bits old 0 15 ≠ bits new 0 15) || decide (bits old 16 16 ≠ bits new 16 16)) && s.mach.core.queueBusy t q
     let count := signedCount (s.mach.core.ringPI t q) (s.mach.core.ringCI t q)
     let far := decide ((bits new 16 16 : Int) < if count < 0 then count + ((bits new 32 16 + 65536 - s.mach.core.ringPI t q) % 65536 : Nat)
       else ((bits new 32 16 + 65536 - s.mach.core.ringCI t q) % 65536 : Nat))
     Completes (.regwr t) s (fun s' =>
       Finished s' x.id (if long || busy then stFAILED else if far then stBOUND else stOK) ∧ MemKept s s' ∧ OutsideKept s s'
         ∧ (if long || busy || far then RegsKept s s'
           else s'.mach.core.tword t (8 * q) = BitVec.ofNat 64 new ∧ RegsOnly (fun t' off => t' = t ∧ off = 8 * q) (fun _ => False) s s'))) ∧
  (∀ (s : State) (t : Nat) (x : Cmd), t < 960 → Runs s t 7 0 0x04 x → rwBlk x.word = 0 → rwSpecial x.word = false →
     let off := 0x1000 + rwOfs x.word
     let old := (s.mach.core.tword t off).toNat
     Completes (.regwr t) s (fun s' => Finished s' x.id stOK ∧ MemKept s s' ∧ OutsideKept s s'
       ∧ (rwOfs x.word = 0x208 → s'.mach.core.tword t off = BitVec.ofNat 64 (masked old (rwValue x.word) (rwBits x.word)))
       ∧ (rwOfs x.word ≠ 0x208 → ∀ i < 64, (s'.mach.core.tword t off).getLsbD i
           = ((s.mach.core.tword t off).getLsbD i && !((rwValue x.word).testBit i && (rwBits x.word).testBit i))))) ∧
  (∀ (s : State) (t : Nat) (x : Cmd), t < 960 → Runs s t 7 0 0x04 x → rwBlk x.word = 0 → rwOfs x.word < 0x40 →
     let off := 0x1000 + rwOfs x.word
     let new := masked (s.mach.core.tword t off).toNat (rwValue x.word) (rwBits x.word)
     (bits new 0 14 + bits new 15 15 ≤ 16384 → Completes (.memQWrite t) s (fun s' =>
       Finished s' x.id stOK ∧ s'.mach.core.tword t off = BitVec.ofNat 64 new ∧ MemKept s s' ∧ OutsideKept s s'
         ∧ RegsOnly (fun t' o => t' = t ∧ o = off) (fun _ => False) s s')) ∧
     (16384 < bits new 0 14 + bits new 15 15 → Completes (.memQWrite t) s (fun s' =>
       Finished s' x.id stFAILED ∧ s'.mach.core.trd t R.MEM_STATUS_CFGERR = 1 ∧ s'.mach.core.tword t off = s.mach.core.tword t off
         ∧ MemKept s s' ∧ OutsideKept s s')))

/-- R163: REGWR of MEM_BANKMAP gives every bank its new class, and PEND marks each bank whose class changed (one whose change was
already under way keeps its mark); a class above 4 in any field sets CFGERR and fails the write. R163: once the commands and the
parts a class change waits for are gone, PEND clears for its bank, and the changes that still wait for something stand. -/
def Obligations.BankClassesChangeAndSettle : Prop :=
  (∀ (s : State) (t : Nat) (x : Cmd), t < 960 → Runs s t 7 0 0x04 x → rwBlk x.word = 0 → rwOfs x.word = 0x40 → x.committed = false →
     let new := masked (s.mach.core.tword t 0x1040).toNat (rwValue x.word) (rwBits x.word)
     ((∃ b < 16, 4 < bits new (3 * b) 3) → Completes (.memBankmapWrite t) s (fun s' =>
       Finished s' x.id stFAILED ∧ s'.mach.core.trd t R.MEM_STATUS_CFGERR = 1
         ∧ s'.mach.core.tword t 0x1040 = s.mach.core.tword t 0x1040)) ∧
     ((∀ b < 16, bits new (3 * b) 3 ≤ 4) → Completes (.memBankmapWrite t) s (fun s' =>
       (∀ b < 16, s'.mach.core.trd t (R.MEM_BANKMAP_CLASS b) = bits new (3 * b) 3)
         ∧ (∀ b < 16, bit (s'.mach.core.trd t R.MEM_BANKMAP_PEND) b = (bit (s.mach.core.trd t R.MEM_BANKMAP_PEND) b
             || (decide (s.mach.core.trd t (R.MEM_BANKMAP_CLASS b) ≠ bits new (3 * b) 3)
               && !s.mach.core.tiles.pend.any (fun p => decide (p.tile = t) && decide (p.bank = b)))))
         ∧ (s'.mach.core.trd t R.MEM_BANKMAP_PEND = 0 → Finished s' x.id stOK)
         ∧ (s'.mach.core.trd t R.MEM_BANKMAP_PEND ≠ 0 → Queued s' x.id (fun y => y.phase = x.phase ∧ y.committed = true)))) ∧
     ((∀ b < 16, bits new (3 * b) 3 ≤ 4) → (∀ b < 16, s.mach.core.trd t (R.MEM_BANKMAP_CLASS b) = bits new (3 * b) 3) →
       s.mach.core.trd t R.MEM_BANKMAP_PEND = 0 → Completes (.memBankmapWrite t) s (fun s' => Finished s' x.id stOK ∧ MemKept s s'
         ∧ OutsideKept s s'))) ∧
  (∀ (s : State) (t : Nat), s.live = true → t < 960 →
     let gone := fun (p : BankPend) => (∀ i ∈ p.cmds, ∀ y ∈ s.mach.core.queues.cmds, y.id ≠ i)
       ∧ ∀ i ∈ p.parts, ∀ a ∈ s.mach.core.net.arr ++ s.mach.core.net.mstore, a.id ≠ i
     Completes (.pendClear t) s (fun s' => MemKept s s' ∧ OutsideKept s s' ∧
       ∀ p ∈ s.mach.core.tiles.pend, (p.tile = t ∧ p.bank < 16 ∧ gone p →
           bit (s'.mach.core.trd t R.MEM_BANKMAP_PEND) p.bank = false ∧ p ∉ s'.mach.core.tiles.pend) ∧
         (p.tile ≠ t ∨ ¬ gone p → p ∈ s'.mach.core.tiles.pend)))

/-- R170, R322: while the tile's row pair is DARK or DARKENING a write of MEM_RGN[n] is DENIED; else an accepted one stands in the
register; a validated region, or one leaving LIT, goes to CLOSING, one ordered LIT from DARK or RETAIN goes to WAKING; between
those two it settles at once; an ignored one sets CFGERR and fails. R171, Table 8.8: a CLOSING region with no accepted part, or
past DARKTMO, and a WAKING region, become SETTLED; a region ordered DARK loses its contents, one that was DARK wakes to zeros,
and every byte outside it is as it was. -/
def Obligations.RegionsChangeModeAndSettle : Prop :=
  (∀ (s : State) (t n : Nat) (x : Cmd), t < 960 → n < 16 → Runs s t 7 0 0x04 x → rwBlk x.word = 0 → rwOfs x.word = 0x100 + 8 * n →
     x.committed = false →
     let old := (s.mach.core.tword t (0x1100 + 8 * n)).toNat
     let new := masked old (rwValue x.word) (rwBits x.word)
     let ignored := s.mach.core.rgnIgnored t n old new (decide (rwBits x.word &&& 0xC000 ≠ 0))
     let pair := s.mach.core.rd (R.WGH_DOMST_MODE (t / 20 / 2))
     let lit := pair ≠ 1 ∧ pair ≠ 2
     let valid := fun w => decide (rgnField w R.MEM_RGN_VALID = 1)
     let mode := fun w => rgnField w R.MEM_RGN_MODE
     (¬ lit → Completes (.memRgnWrite t) s (fun s' => Finished s' x.id stDENIED ∧ RegsKept s s' ∧ MemKept s s' ∧ OutsideKept s s')) ∧
     (lit → ignored = true → Completes (.memRgnWrite t) s (fun s' =>
       Finished s' x.id stFAILED ∧ s'.mach.core.trd t R.MEM_STATUS_CFGERR = 1
         ∧ s'.mach.core.tword t (0x1100 + 8 * n) = s.mach.core.tword t (0x1100 + 8 * n))) ∧
     (lit → ignored = false → valid old = false → valid new = true → Completes (.memRgnWrite t) s (fun s' =>
       s'.mach.core.trd t (R.MEM_RGN_VALID n) = 1 ∧ s'.mach.core.trd t (R.MEM_RGN_STATE n) = 1)) ∧
     (lit → ignored = false → valid old = true → valid new = true → mode old = 0 → mode new ≠ 0 → Completes (.memRgnWrite t) s (fun s' =>
       s'.mach.core.trd t (R.MEM_RGN_MODE n) = mode new ∧ s'.mach.core.trd t (R.MEM_RGN_STATE n) = 1)) ∧
     (lit → ignored = false → valid old = true → valid new = true → mode old ≠ 0 → mode new = 0 → Completes (.memRgnWrite t) s (fun s' =>
       s'.mach.core.trd t (R.MEM_RGN_MODE n) = 0 ∧ s'.mach.core.trd t (R.MEM_RGN_STATE n) = 2)) ∧
     (lit → ignored = false → valid old = true → valid new = true → mode old ≠ 0 → mode new ≠ 0 → mode old ≠ mode new →
       Completes (.memRgnWrite t) s (fun s' => Finished s' x.id stOK
         ∧ s'.mach.core.trd t (R.MEM_RGN_MODE n) = mode new ∧ s'.mach.core.trd t (R.MEM_RGN_STATE n) = 0)) ∧
     (lit → ignored = false → valid old = true → valid new = false → Completes (.memRgnWrite t) s (fun s' =>
       s'.mach.core.trd t (R.MEM_RGN_VALID n) = 0)) ∧
     (lit → ignored = false → valid old = true → valid new = true → mode old = mode new → rgnField old R.MEM_RGN_STATE = 0 →
       Completes (.memRgnWrite t) s (fun s' => Finished s' x.id stOK
         ∧ s'.mach.core.tword t (0x1100 + 8 * n) = BitVec.ofNat 64 new))) ∧
  (∀ (s : State) (t n : Nat), s.live = true → t < 960 → n < 16 →
     let segs := s.mach.core.rgnSegs t n
     let closing := s.mach.core.rgnClosing t n
     let settled := fun (s' : State) => s'.mach.core.trd t (R.MEM_RGN_STATE n) = 0 ∧ OutsideKept s s' ∧
       ∀ a, s'.mach.byteAt a = (if s.mach.core.trd t (R.MEM_RGN_MODE n) = 2 ∧ tileBase t + 2 ^ 14 * segs.1 ≤ a
         ∧ a < tileBase t + 2 ^ 14 * segs.2 then 0 else s.mach.byteAt a)
     (closing = true → s.mach.core.trd t (R.MEM_RGN_INBOUND n) = 0 → Completes (.regionClose t n) s settled) ∧
     (∀ k, closing = true → s.mach.core.tiles.closing.find? (fun k => decide (k.tile = t) && decide (k.n = n)) = some k →
       s.mach.core.trd t R.MEM_TIMERS_DARKTMO ≤ s.mach.core.now - k.start → Completes (.darktmoExpiry t n) s settled) ∧
     (s.mach.core.trd t (R.MEM_RGN_STATE n) = 2 → Completes (.regionWake t n) s (fun s' =>
       s'.mach.core.trd t (R.MEM_RGN_STATE n) = 0 ∧ OutsideKept s s' ∧
       ∀ a, (¬ (tileBase t + 2 ^ 14 * segs.1 ≤ a ∧ a < tileBase t + 2 ^ 14 * segs.2) → s'.mach.byteAt a = s.mach.byteAt a)
         ∧ ((t, n) ∈ s.mach.core.tiles.waking → tileBase t + 2 ^ 14 * segs.1 ≤ a → a < tileBase t + 2 ^ 14 * segs.2 →
           s'.mach.byteAt a = 0))))

/-- R207: BR fails on a summary that is not valid; where its condition holds the next fetch is DISP from its own count and AUX is 1;
else the next fetch is as it was. R208, R209: FLAGRD writes the flags as they stood at its start as 8 bytes at its tile-memory
address and, where CLR is set, clears the copied bits; SHCLR clears the selected scale-history registers and no other register. -/
def Obligations.BranchFlagAndHistoryCommandsAct : Prop :=
  (∀ (s : State) (t : Nat) (x : Cmd), t < 960 → Runs s t 7 0 0x05 x →
     let slot := bits x.word 64 2
     let taken := s.mach.core.branchTaken t slot (bits x.word 66 4) (bits x.word 72 18)
     let valid := s.mach.core.trd t (R.CHN_SUMA_VALID slot)
     (valid = 0 → Completes (.br t) s (fun s' => Finished s' x.id stFAILED ∧ RegsKept s s' ∧ MemKept s s')) ∧
     (valid ≠ 0 → taken = true → Completes (.br t) s (fun s' => Finished s' x.id stOK ∧ MemKept s s'
       ∧ s'.mach.core.ringCI t 7 = (x.idx + bits x.word 96 16) % 65536
       ∧ RegsOnly (fun t' off => t' = t ∧ off = 0x78) (fun _ => False) s s'
       ∧ Queued s' x.id (fun y => y.aux = 1))) ∧
     (valid ≠ 0 → taken = false → Completes (.br t) s (fun s' => Finished s' x.id stOK ∧ RegsKept s s' ∧ MemKept s s'))) ∧
  ((∀ (s : State) (t : Nat) (x : Cmd), t < 960 → Runs s t 7 0 0x07 x →
     let p := x.phys (bits x.word 64 20)
     p % 8 = 0 → s.mach.WritesNow x p →
     Completes (.flagrd t) s (fun s' => Finished s' x.id stOK ∧ OutsideKept s s' ∧
       s'.mach.read (tileBase t + p) 8 = toBytes 8 x.nflags ∧
       (∀ a, a < tileBase t + p ∨ tileBase t + p + 8 ≤ a → s'.mach.byteAt a = s.mach.byteAt a) ∧
       RegsOnly (fun t' off => t' = t ∧ off = 0x200) (fun _ => False) s s' ∧
       s'.mach.core.tword t 0x200 = (if bit x.word 84 = true
         then BitVec.ofNat 64 ((s.mach.core.tword t 0x200).toNat &&& ((2 ^ 64 - 1) ^^^ x.nflags)) else s.mach.core.tword t 0x200))) ∧
   (∀ (s : State) (t : Nat) (x : Cmd), t < 960 → Runs s t 7 0 0x08 x → Completes (.shclr t) s (fun s' =>
     Finished s' x.id stOK ∧ MemKept s s' ∧ OutsideKept s s' ∧
     (∀ n < 16, s'.mach.core.tword t (0x300 + 8 * n) = if bit x.word (64 + n) then 0 else s.mach.core.tword t (0x300 + 8 * n)) ∧
     RegsOnly (fun t' off => t' = t ∧ ∃ n < 16, off = 0x300 + 8 * n) (fun _ => False) s s')))

/-- R212, Table 9.7: an abort ends with ABORTED every command of its queues, and of its range where it has one, that has not
started; commands of other queues keep what they are; one without a target completes at once. R212: MB_ABORT of a tile that is
not there answers TARGET_LOST and aborts nothing; one of queues that hold only commands not started ends each of those with
ABORTED; one of queues without a command answers OK at once. -/
def Obligations.AbortsTakeTheirTargets : Prop :=
  (∀ (s : State) (t : Nat) (x : Cmd), t < 960 → Runs s t 7 0 0x09 x → x.committed = false →
     let lo := bits x.word 72 16
     let n := (bits x.word 88 16 + 65536 - lo) % 65536 + 1
     let hit := fun (y : Cmd) => y.unit = t ∧ y.q < 7 ∧ bit x.word (64 + y.q) = true ∧ y.waiting = true
       ∧ (bit x.word 71 = true → (y.idx + 65536 - lo) % 65536 < n)
     Completes (.abort t) s (fun s' => MemKept s s' ∧ OutsideKept s s' ∧
       (∀ i, (∀ y ∈ s.mach.core.queues.cmds, y.id = i → hit y) →
         ∀ y ∈ s'.mach.core.queues.cmds, y.id = i → y.phase = .done ∧ y.status = stABORTED) ∧
       (∀ y ∈ s.mach.core.queues.cmds, ∃ z ∈ s'.mach.core.queues.cmds, z.id = y.id) ∧
       (∀ y ∈ s.mach.core.queues.cmds, isQueue y.unit y.q = true → y.unit ≠ t ∨ bit (bits x.word 64 7) y.q = false →
         y.id ≠ x.id → y ∈ s'.mach.core.queues.cmds) ∧
       ((∀ q < 7, bit x.word (64 + q) = true → s.mach.core.queueCmds t q = [] ∧ s.mach.core.toFetch t q = 0) →
         (∀ a ∈ s.mach.core.queues.aborts, a.unit = t → bit (bits x.word 64 7) a.q = false) →
         Finished s' x.id stOK ∧ (bit x.word 71 = false → Queued s' x.id (fun y => y.aux = 0))))) ∧
  (∀ (s : State) (r : MbReq), Turn s (mbIs 0x34) r → r.note = [] →
     let c := s.mach.core
     (∀ st d, c.abortCheck r = some (st, d) → Completes .mbAbort s (fun s' => MemKept s s' ∧ s'.mach.core.queues = c.queues
       ∧ Responds s' r st d [])) ∧
     (c.abortCheck r = none → r.byte 4 ≠ 1 → Completes .mbAbort s (fun s' => MemKept s s' ∧
       (∀ y ∈ c.queues.cmds, ∃ z ∈ s'.mach.core.queues.cmds, z.id = y.id) ∧ ∀ i, (∀ y ∈ c.queues.cmds, y.id = i → y.unit = r.abortUnit ∧ y.q ∈ r.abortQueues ∧ y.waiting = true) →
         ∀ y ∈ s'.mach.core.queues.cmds, y.id = i → y.phase = .done ∧ y.status = stABORTED)) ∧
     (c.abortCheck r = none → r.byte 4 ≠ 1 → (∀ q ∈ r.abortQueues, c.queueCmds r.abortUnit q = [] ∧ c.toFetch r.abortUnit q = 0) →
       (∀ a ∈ c.queues.aborts, a.unit = r.abortUnit → a.q ∉ r.abortQueues) →
       Completes .mbAbort s (fun s' => MemKept s s' ∧ s'.mach.core.queues.cmds = c.queues.cmds ∧ Responds s' r stOK 0 (toBytes 4 0))))

/-- R187, R188: a fetch whose ring entry can be read appends the command it holds and advances CI; one that fails halts its queue
with the status in FERR and is job-fatal. R196: a head waiting on its tally completes with TALLY_FAULT where FAULT is set and
FOK is 0, is ready where COUNT has reached WAIT_N, and else goes on waiting. R200, R201: with no reservation held, the only
ready head of a unit starts where its cost fits the credit, which falls by that cost; a ready head whose cost exceeds the
ceiling completes with DENIED, and none stays ready. -/
def Obligations.FetchWaitAndAdmission : Prop :=
  (∀ (s : State) (u q : Nat), s.live = true → isQueue u q = true →
     let c := s.mach.core
     let ci := c.ringCI u q
     let x := c.fetchView u q ci
     let off := c.ringOff u q (ci % c.ringLen u q)
     let bs := if u < 960 then s.mach.bytesAt x off 32 else s.mach.read (storeBase (u - 960) q (ci % 64)) 64
     c.halted u q = false → c.unitFetches u = true → c.toFetch u q ≠ 0 → (∀ y ∈ c.queueCmds u q, y.started = true) →
     (c.queueCmds u q).length < inflightLimit u q →
     ((u < 960 → c.queues.seen = [] ∧ s.mach.ReadsNow x clsSeq off 32) → Completes (.commandFetch u q) s (fun s' =>
       s'.mach.core.ringCI u q = (ci + 1) % 65536 ∧ OutsideKept s s' ∧
       ∃ y ∈ s'.mach.core.queues.cmds, y.unit = u ∧ y.q = q ∧ y.idx = ci ∧ y.word = leAt bs 0 32)) ∧
     (∀ m st, s.mach.fetchBytes u q ci = .fail m st → Completes (.commandFetch u q) s (fun s' =>
       s'.mach.core.halted u q = true ∧ s'.mach.core.qget u q 1 (R.SEQ_QSTAT_FERR 0) = st % 2 ^ (R.SEQ_QSTAT_FERR 0).w
         ∧ s'.mach.core.rd R.LDG_ALERT_JOBF = 1))) ∧
  (∀ (s : State) (u q : Nat) (x : Cmd), s.live = true → isQueue u q = true → s.mach.core.head? u q = some x → x.phase = .waitTally →
     let fault := s.mach.core.tallyFault u x.waitT
     let there := decide (x.waitN ≤ s.mach.core.tallyCount u x.waitT)
     Completes (.tallyWait u q) s (fun s' => RegsKept s s' ∧ MemKept s s' ∧ OutsideKept s s' ∧
       (x.fok = false → fault = true → Finished s' x.id stTALLY) ∧
       (x.fok = true ∨ fault = false → there = true → Queued s' x.id (fun y => y.phase = .ready)) ∧
       (x.fok = true ∨ fault = false → there = false → x ∈ s'.mach.core.queues.cmds))) ∧
  (∀ (s : State) (u q : Nat) (h : Cmd), s.live = true → isQueue u q = true →
     let c := s.mach.core
     (c.resv u = none → c.readyHead u q = some h → (∀ q' < queuesOf u, q' ≠ q → c.readyHead u q' = none) →
       c.cost h ≤ c.creditCap → c.cost h ≤ c.credit u → Completes (.admission u) s (fun s' =>
         s'.mach.core.credit u = c.credit u - c.cost h ∧ MemKept s s' ∧ OutsideKept s s' ∧
         (∃ y ∈ s'.mach.core.queues.cmds, y.id = h.id) ∧
         ∀ y ∈ s'.mach.core.queues.cmds, y.id = h.id → y.phase = .run ∧ y.word = h.word)) ∧
     Completes (.admission u) s (fun s' =>
       (c.readyHead u q = some h → (∀ y ∈ c.queues.cmds, y.id = h.id → y = h) → c.creditCap < c.cost h →
         ∃ y ∈ s'.mach.core.queues.cmds, y.id = h.id ∧ y.phase = .done ∧ y.status = stDENIED) ∧
       ∀ y ∈ s'.mach.core.queues.cmds, y.unit = u → y.phase = .ready → c.cost y ≤ c.creditCap))

/-- R197, R210: a command whose outcome stands and whose turn has come leaves its queue; its signal adds its parts to its tally with
FAULT where it did not succeed; without SIG_EN its unit's tallies stand. R165: a running command waiting to read a slot goes on
where the tag is FULL or FAILED; one waiting to write goes on where it may claim the slot, and the slot then reads as claimed by
it. R167: a remote access that has waited TAGWAIT is gone; of a write the slots it claimed become FAILED where they are still
tagged, and its bytes do not land. -/
def Obligations.CompletionAndTagWaits : Prop :=
  (∀ (s : State) (u q n : Nat) (x : Cmd), s.live = true → isQueue u q = true →
     (s.mach.core.queueCmds u q).find? (fun x => decide (x.idx = n)) = some x → x.phase = .done →
     (listOrder u q = false ∨ (s.mach.core.queueCmds u q).head?.map Cmd.id = some x.id) →
     let old := s.mach.core
     Completes (.commandCompletion u q n) s (fun s' => OutsideKept s s' ∧ (∀ y ∈ s'.mach.core.queues.cmds, y.id ≠ x.id) ∧
       (∀ y ∈ old.queues.cmds, y.id ≠ x.id → y.unit ≠ u → y ∈ s'.mach.core.queues.cmds) ∧
       ∀ k < 64, s'.mach.core.tallyCount u k = (if x.sigen = true ∧ k = x.sigT then min (old.tallyCount u k + x.p) 0xFFFFF else old.tallyCount u k)
         ∧ (x.sigen = true → k = x.sigT → x.status ≠ stOK → s'.mach.core.tallyFault u k = true))) ∧
  (∀ (s : State) (u q f : Nat) (x : Cmd) (w : TagWait), s.live = true → isQueue u q = true →
     s.mach.core.running? u q f = some x → x.wait = some w →
     let tagged := (s.mach.core.taggedRegion u w.slot).isSome
     let goesOn := fun (s' : State) => Queued s' x.id (fun y => y.wait = none)
     (w.write = false → s.mach.core.tag u w.slot = .full ∨ s.mach.core.tag u w.slot = .failed →
       Completes (.tagWait u q f) s (fun s' => goesOn s' ∧ s'.mach.core.tiles = s.mach.core.tiles ∧ RegsKept s s' ∧ MemKept s s')) ∧
     (w.write = true → tagged = true → s.mach.core.claimable u w.slot x.owner = true →
       Completes (.tagWait u q f) s (fun s' => goesOn s' ∧ s'.mach.core.tag u w.slot = .claimed x.owner ∧ RegsKept s s' ∧ MemKept s s'
         ∧ ∀ k, k ≠ w.slot → s'.mach.core.tag u k = s.mach.core.tag u k)) ∧
     (w.write = true → s.mach.core.claimable u w.slot x.owner = false →
       Completes (.tagWait u q f) s (fun s' => s'.mach.core = s.mach.core))) ∧
  (∀ (s : State) (i t0 : Nat) (a : Arrival), s.live = true →
     (s.mach.core.net.arr ++ s.mach.core.net.mstore)[i]? = some a → a.since = some t0 → a.unit < 960 →
     s.mach.core.trd a.unit R.MEM_TIMERS_TAGWAIT ≤ s.mach.core.now - t0 →
     Completes (.tagwaitExpiry i) s (fun s' => MemKept s s' ∧ OutsideKept s s' ∧
       (∀ b ∈ s'.mach.core.net.arr ++ s'.mach.core.net.mstore, b.id ≠ a.id) ∧
       ∀ k ∈ a.claims, (s.mach.core.taggedRegion a.unit k).isSome = true → s'.mach.core.tag a.unit k = .failed))

/-! ## Engines (chapters 5 to 7) -/

/-- R88, R85, R97, R104, R106: the only matrix command of an array, whose reads nothing holds, whose descriptor and forced anchors
pass Table 5.2 and whose output lands, completes with OK: its bytes stand, its flags are raised in its array's set, its scale
history is joined and its beats are counted. R134, R140, R141, R153: a chain command that nothing holds at any lane of any row
completes with OK: its stage entries and loads can be read, its stores land, and none of its loads meets a tagged slot. R134,
R153: a chain command of one row that stores nothing completes with OK once its row has been evaluated; a failing row ends it
with that status, and its effects on registers, masks and tiles do not happen. R131, R154, R155: a PSUM whose reads nothing
holds completes with FORMAT where a record is not valid or the paths differ, and else, where its output lands, with OK, its
bytes standing and its flags raised. CHN_BEATS counts on by a free value (log entry 17). -/
def Obligations.MatrixChainAndPsumComplete : Prop :=
  (∀ (s : State) (t a : Nat) (x : Cmd), s.live = true → t < 960 → a < 4 →
     let m := s.mach
     m.core.mmaOf t a = [x] → Fresh x → m.core.queues.seen = [] →
     let w := x.word
     let rd := fun (r : Nat × Nat) => m.bytesAt x r.1 r.2
     let d : DrainDesc := ⟨if mmaExport w then 0 else ofBytes (rd (mmaDOff w, 64))⟩
     let forced := if mmaFA w then some ((List.range 64).map (fun i => signedOf 16 (leAt (rd (mmaFaOff w, 128)) (2 * i) 2))) else none
     let vs := if mmaExport w then [] else d.vectors
     let natural := (mmaAnchorRuns w).mapIdx (fun i r => mmaNatural w i (rd r))
     let rows := mmaRows w (if mma8 w then (mmaAnchorRuns w).map rd else []) (mmaK w) (((mmaRuns w).take 64).map rd)
     let z := mmaTile w (forced.getD natural) rows
     let sh := SHist.ofNat (m.core.tword t (0x300 + 8 * d.cvt.shist)).toNat
     let dr := drainTile d (m.pwq t) (m.core.rd R.CH_JOBSEED_SEED) sh (if vs ≠ [] ∧ d.scEn then rd (nthD vs 0 (0, 0)) else [])
       (if vs ≠ [] ∧ d.biEn then rd (nthD vs (vs.length - 1) (0, 0)) else []) z.1
     let out := x.pendingOf (if mmaExport w then [(mmaDOff w, z.1.encode 1)] else dr.1)
     let flags := if mmaExport w then z.2.toNat else z.2.toNat ||| dr.2.1.toNat
     let beats := (beatsAll w rows).1
     (∀ r ∈ mmaHeads w ++ mmaAnchorRuns w ++ vs ++ (mmaRuns w).take 64, m.ReadsNow x clsBobbin r.1 r.2) →
     (mmaExport w = false → x.drainStatus d (m.pwq t) clsBobbin = none) →
     (∀ l, forced = some l → l.all (anchorInRange (if mma8 w then 0 else 2)) = true ∧ ∀ i < 64, nthD natural i 0 ≤ nthD l i 0) →
     (∀ e ∈ out, m.WritesNow x e.1) →
     Completes (.mma t a) s (fun s' => Finished s' x.id stOK ∧ OutsideKept s s' ∧ TileWrites s s' t out
       ∧ s'.mach.core.tword t 0x200 = m.core.tword t 0x200 ||| BitVec.ofNat 64 (flags * 2 ^ (5 * a))
       ∧ (mmaExport w = false → d.fmt.records = true → s'.mach.core.tword t (0x300 + 8 * d.cvt.shist)
         = BitVec.ofNat 64 (sh.join (SHist.ofNat (recordAll dr.2.2).toNat)).toNat)
       ∧ s'.mach.core.trd t (R.LOOM_BEATS_BEATS a) = (m.core.trd t (R.LOOM_BEATS_BEATS a) + beats) % 2 ^ (R.LOOM_BEATS_BEATS a).w)) ∧
  (∀ (s : State) (t : Nat) (x : Cmd), t < 960 → Runs s t 4 0 0x20 x → Fresh x →
     let m := s.mach
     let w := x.word
     let sts := stagesFrom (m.bytesAt x (chSptr w) (16 * chNS w)) (chNS w)
     m.core.queues.seen = [] → m.ReadsNow x clsChain (chSptr w) (16 * chNS w) →
     (∀ n < chNS w, ∀ r < chNR w, ∀ g ∈ (nthD sts n ⟨0⟩).rowRanges r (List.replicate 32 true),
       m.LaneNow x (nthD sts n ⟨0⟩) g) →
     Completes (.chain t) s (fun s' => Finished s' x.id stOK ∧ OutsideKept s s')) ∧
  (∀ (s : State) (t : Nat) (x : Cmd) (m : Mach) (bs : List Byte), t < 960 → Runs s t 4 0 0x20 x → x.out = [] → x.rows = [] →
     chNR x.word = 1 →
     s.mach.localRead x clsChain (chSptr x.word) (16 * chNS x.word) = .ok m bs →
     let sts := stagesFrom bs (chNS x.word)
     (∀ m' a, m.evalRow (m.rowEnv x sts) = .ok m' a → a.out = [] → a.cout = [] →
       Completes (.chain t) s (fun s' => Finished s' x.id stOK ∧ OutsideKept s s')) ∧
     (∀ m' st, m.evalRow (m.rowEnv x sts) = .fail m' st →
       Completes (.chain t) s (fun s' => Finished s' x.id st ∧ s'.mach.mem = m'.mem ∧ OutsideKept s s'))) ∧
  (∀ (s : State) (t : Nat) (x : Cmd), t < 960 → Runs s t 4 0 0x21 x → Fresh x →
     let m := s.mach
     let w := x.word
     let rd := fun (r : Nat × Nat) => m.bytesAt x r.1 r.2
     let d : DrainDesc := ⟨if psDrain w then ofBytes (rd (psOptr w, 64)) else 0⟩
     let vs := if psDrain w then d.vectors else []
     let recs := m.psRecords x (rd (psLptr w, 2 * psNrec w))
     let data := joinRecords recs ((recs.flatMap recordHead).map rd) ((recs.map recordBody).map rd)
     let z := sumPartials (data.map WideTile.decode)
     let sh := SHist.ofNat (m.core.tword t (0x300 + 8 * d.cvt.shist)).toNat
     let dr := drainTile d (m.pwq t) (m.core.rd R.CH_JOBSEED_SEED) sh (if d.scEn then rd (nthD vs 0 (0, 0)) else [])
       (if d.biEn then rd (nthD vs (vs.length - 1) (0, 0)) else []) z.1
     let out := x.pendingOf (if psDrain w then dr.1 else [(psOptr w, z.1.encode 2)])
     let ovf := (if z.2 then NumFlags.overflow else .none).toNat
     let flags := if psDrain w then ovf ||| dr.2.1.toNat else ovf
     m.core.queues.seen = [] →
     (∀ r ∈ (psLptr w, 2 * psNrec w) :: (if psDrain w then [(psOptr w, 64)] else []) ++ vs ++ recs.flatMap recordHead,
       m.ReadsNow x clsChain r.1 r.2) →
     (psDrain w = true → x.drainStatus d (m.pwq t) clsChain = none) →
     (recordsOk (joinRecords recs ((recs.flatMap recordHead).map rd) []) = false →
       Completes (.psum t) s (fun s' => Finished s' x.id stFORMAT ∧ s'.mach.mem = m.mem ∧ OutsideKept s s')) ∧
     (recordsOk (joinRecords recs ((recs.flatMap recordHead).map rd) []) = true →
       (∀ r ∈ recs.map recordBody, m.ReadsNow x clsChain r.1 r.2) → (∀ e ∈ out, m.WritesNow x e.1) →
       Completes (.psum t) s (fun s' => Finished s' x.id stOK ∧ OutsideKept s s' ∧ TileWrites s s' t out
         ∧ s'.mach.core.tword t 0x200 = m.core.tword t 0x200 ||| BitVec.ofNat 64 (flags * 2 ^ (5 * 4)))))

/-! ## The mover at its source (chapter 12) -/

/-- R283, R284, R285, R286: each run of PUT, GET, GATHER, COPY or RTINC that no check and no wait holds sends the next packet of its
command, of at most 512 bytes, from its place in the transfer, a part for each position of a multicast. -/
def Obligations.MoverIssuesTheNextPart : Prop :=
  ∀ (s : State) (u q f : Nat) (x : Cmd),
    let c := s.mach.core
    let w := x.word
    let k := x.parts.length
    let off := 512 * (k / x.width)
    let n := min 512 (rmLen w - off)
    let l := rmLocal w
    let slice := bits l 22 7
    let bs := if u < 960 then s.mach.bytesAt x (bits l 0 20 + off) n else s.mach.read (sliceBase slice + (bits l 0 22 + off)) n
    let sends := fun (s' : State) (is : Packet → Prop) (at' : Nat) =>
      OutsideKept s s' ∧ MemKept s s' ∧ Sent s s' is ∧ Issued s' x (fun p => is p.pkt ∧ p.loc = at')
    (Runs s u q f 0x30 x → x.more = true → c.streamRoom u (rmRemote w) x.width = true →
      (u < 960 → c.queues.seen = [] ∧ s.mach.ReadsNow x clsMover (bits l 0 20 + off) n) →
      (960 ≤ u → c.unitThere (960 + slice) = true ∧ c.rd (R.LAR_CTL_STATE slice) ≠ 1 ∧ c.rd (R.LAR_CTL_MODE slice) ≠ 0
        ∧ ∀ i ∈ touched 6 (bits l 0 22 + off) n, s.mach.lineErrs (sliceLineId slice i) = []) →
      (rmMC w = 0 → c.partStatus x (rmRemote w) off n = none → Completes (.put u q f) s (fun s' => sends s' (fun p =>
        p.typ = 1 ∧ p.mcast = false ∧ p.dst = rmRemote w + off ∧ p.payload = bs ∧ p.len = n ∧ p.part = k ∧ p.src = c.srcOf x) 0)) ∧
      (rmMC w ≠ 0 → spanStatus (rmRemote w) off n = none → x.width ≠ 0 →
        c.spanPresent (rmRemote w + off) (decide (rmMC w = 2)) (rmMlast w) ≠ [] →
        Completes (.put u q f) s (fun s' => OutsideKept s s' ∧ MemKept s s' ∧
          Sent s s' (fun p => p.typ = 1 ∧ p.mcast = true ∧ p.dst = rmRemote w + off ∧ p.payload = bs ∧ p.part = k) ∧
          Queued s' x.id (fun y => ∃ ps, y.parts = x.parts ++ ps ∧ ps.length = x.width)))) ∧
    (Runs s u q f 0x31 x → x.more = true → c.streamRoom u (rmRemote w) 1 = true →
      c.partStatus x (rmRemote w) (512 * k) (min 512 (rmLen w - 512 * k)) = none →
      Completes (.get u q f) s (fun s' => sends s' (fun p =>
        p.typ = 2 ∧ p.dst = rmRemote w + 512 * k ∧ p.len = min 512 (rmLen w - 512 * k) ∧ p.part = k) (x.landAt (512 * k)))) ∧
    (Runs s u 6 f 0x32 x → u < 960 →
      let list := s.mach.bytesAt x (gaList w) (16 * gaCount w)
      (x.gather = [] → c.queues.seen = [] → s.mach.ReadsNow x clsMover (gaList w) (16 * gaCount w) →
        Completes (.gather u f) s (fun s' => OutsideKept s s' ∧ MemKept s s' ∧
          (∀ st, x.gatherStatus list = some st → Finished s' x.id st) ∧
          ∀ es, x.gatherStatus list = none → gatherEntries list (gaCount w) = some es → Queued s' x.id (fun y =>
            y.phase = .run ∧ y.gather = es.flatMap (fun e => [e.1, e.2.1, e.2.2]) ∧ y.p = gatherParts es))) ∧
      ∀ a o m i, x.gather ≠ [] → x.more = true → gatherPart x.gather k = some (a, o, m, i) →
        c.partStatus x a o m = none → c.streamRoom u a 1 = true →
        Completes (.gather u f) s (fun s' => sends s' (fun p => p.typ = 2 ∧ p.dst = a + o ∧ p.len = m ∧ p.part = k) (x.phys i))) ∧
    (Runs s u q f 0x33 x → (∀ p ∈ x.parts, p.status.isSome = true) → x.more = true → c.streamRoom u (cpSrc w) 1 = true →
      c.partStatus x (cpSrc w) (512 * k) (min 512 (cpLen w - 512 * k)) = none →
      Completes (.copy u q f) s (fun s' => sends s' (fun p =>
        p.typ = 2 ∧ p.dst = cpSrc w + 512 * k ∧ p.len = min 512 (cpLen w - 512 * k) ∧ p.part = k) 0)) ∧
    (Runs s u q f 0x34 x → x.more = true → c.partStatus x (rmRemote w) 0 0 = none → c.streamRoom u (rmRemote w) 1 = true →
      Completes (.rtinc u q f) s (fun s' => sends s' (fun p =>
        p.typ = 5 ∧ p.dst = rmRemote w ∧ p.tally = bits w 128 6 ∧ p.arg = bits w 134 21) 0)) ∧
    (x.more = false → x.cut = false → (∀ p ∈ x.parts, p.status = some stOK) →
      let done := fun (s' : State) => Finished s' x.id stOK ∧ OutsideKept s s' ∧ MemKept s s' ∧ RegsKept s s'
      x.parts.length = x.p → (Runs s u q f 0x30 x → Completes (.put u q f) s done) ∧ (Runs s u q f 0x31 x → Completes (.get u q f) s done) ∧
        (Runs s u 6 f 0x32 x → u < 960 → x.gather ≠ [] → Completes (.gather u f) s done) ∧
        (Runs s u q f 0x33 x → Completes (.copy u q f) s done))

/-- R289: a part without an answer is put on the fabric again with its SEQ, counted once more; LOSS ticks after its first issue it
has TIMEOUT; an ACK gives an open part the status it carries, and one that says STALE_EPOCH has it put on the fabric again.
R286: an ACK with OK to a slice's write ends that request. R288: a source's stream without traffic for LOSS ticks and without an
open part is released, and the other entries stand; so is a holding unit's. -/
def Obligations.PartsEndAndStreamsAreReleased : Prop :=
  (∀ (s : State),
     let c := s.mach.core
     let again := fun (s' : State) (x : Cmd) (y : Part) => y.pkt.mcast = false →
       (c.route y.pkt.dst (c.unitRouter (if y.pkt.typ = 10 then unitSeam else x.unit))).isSome = true →
       Sent s s' (fun p => p.typ = y.pkt.typ ∧ p.dst = y.pkt.dst ∧ p.payload = y.pkt.payload ∧ p.seq = y.pkt.seq ∧ p.part = y.pkt.part
         ∧ p.epoch = c.rd R.NET_RTCTL_ACTIVE)
     (∀ u q n k x y, s.live = true → isQueue u q = true → c.openPart u q n k = some (x, y) → y.tries < 3 →
       c.rd R.NET_E2E_REISSUE * (y.tries + 1) ≤ c.now - y.first → Completes (.reissue u q n k) s (fun s' =>
         MemKept s s' ∧ OutsideKept s s' ∧ again s' x y ∧ Queued s' x.id (fun z => z.status = x.status ∧
           z.parts = x.parts.map (fun p => if p.k = k then { p with tries := p.tries + 1 } else p)))) ∧
     (∀ u q n k x y, s.live = true → isQueue u q = true → c.openPart u q n k = some (x, y) →
       c.rd R.NET_E2E_LOSS ≤ c.now - y.first → Completes (.partLoss u q n k) s (fun s' =>
         MemKept s s' ∧ OutsideKept s s' ∧ HasPart s' x.id k (fun p => p.status = some stTIMEOUT))) ∧
     (∀ i a, s.live = true → c.net.arr[i]? = some a → a.pkt.typ = 4 →
       (∀ x k, adClass a.pkt.dst ≠ 1 → c.answered a.pkt = some (x, k) → Completes (.ack i) s (fun s' =>
         MemKept s s' ∧ OutsideKept s s' ∧ (∀ b ∈ s'.mach.core.net.arr, b.id ≠ a.id) ∧
         (a.pkt.status = stEPOCH → again s' x k) ∧
         (a.pkt.status ≠ stEPOCH → HasPart s' x.id k.k (fun p => p.status = some a.pkt.status)))) ∧
       (∀ f, adClass a.pkt.dst = 1 → c.fetchOf a.pkt = some f → f.write = true → f.waiters = [] → a.pkt.status = stOK → f.inval = false →
         Completes (.ack i) s (fun s' => MemKept s s' ∧ OutsideKept s s' ∧ (∀ b ∈ s'.mach.core.net.arr, b.id ≠ a.id) ∧
           s'.mach.core.lar.fetches = c.lar.fetches.filter (fun g => decide (g.tag ≠ f.tag)))))) ∧
  (∀ (s : State) (i : Nat), s.live = true →
     let c := s.mach.core
     (∀ e, c.net.src[i]? = some e → c.rd R.NET_E2E_LOSS ≤ c.now - e.last →
       (∀ x ∈ c.queues.cmds, x.unit = e.unit → x.running = true → ∀ p ∈ x.parts, p.status = none → streamDst p.pkt.dst ≠ e.dst) →
       Completes (.streamRelease i) s (fun s' => s'.mach.core.net.src = c.net.src.eraseIdx i ∧ s'.mach.core.net.held = c.net.held
         ∧ RegsKept s s' ∧ MemKept s s')) ∧
     (∀ e, c.net.src.length ≤ i → c.net.held[i - c.net.src.length]? = some e → c.rd R.NET_E2E_LOSS ≤ c.now - e.last →
       Completes (.streamRelease i) s (fun s' => s'.mach.core.net.held = c.net.held.eraseIdx (i - c.net.src.length)
         ∧ s'.mach.core.net.src = c.net.src ∧ RegsKept s s' ∧ MemKept s s')))

/-- R306, R307: a SEAL whose region reads sends the region's bytes to the seal unit; folding a contribution XORs it into the seal of
the current step and completes its SEAL with OK. R308: a SEALX of a step no exchange of which is under way or done sends the
twin its step and its seal, and is TARGET_LOST where no hub port leads there; an exchange ended gives every SEALX of the step
the joined result. That a contribution travels to the seal unit by itself is the model's reading (log entry 19). -/
def Obligations.SealsAreFoldedAndExchanged : Prop :=
  ((∀ (s : State) (t f : Nat) (x : Cmd), t < 960 → Runs s t 5 f 0x38 x → x.committed = false → s.mach.core.queues.seen = [] →
     s.mach.ReadsNow x clsMover (bits x.word 64 20) (bits x.word 84 20 + 1) →
     Completes (.seal t f) s (fun s' => s'.mach.core.bell.seals = s.mach.core.bell.seals
         ++ [⟨x.id, bits x.word 104 32, s.mach.bytesAt x (bits x.word 64 20) (bits x.word 84 20 + 1)⟩]
       ∧ MemKept s s' ∧ OutsideKept s s' ∧ Queued s' x.id (fun y => y.committed = true ∧ y.phase = .run))) ∧
   (∀ (s : State) (i : Nat) (g : SealMsg), s.live = true → s.mach.core.bell.seals[i]? = some g →
     let c := s.mach.core
     let step := c.rd R.CH_BELLSTEP_STEP
     let v := sealContrib (c.rd R.CH_JOBSEED_SEED) step g.rid g.data
     Completes (.sealContribution i) s (fun s' => MemKept s s' ∧ OutsideKept s s' ∧
       s'.mach.core.sealOf step = c.sealOf step ^^^ (v % 2 ^ 128) ∧ s'.mach.core.sealOf (step + 1) = c.sealOf (step + 1) ∧
       (∀ y ∈ c.queues.cmds, y.id = g.cmd → y.running = true → y.opcode = 0x38 → y.finish stOK ∈ s'.mach.core.queues.cmds) ∧
       (∀ y ∈ s'.mach.core.queues.cmds, y.id = g.cmd → y.running = true → y.opcode ≠ 0x38) ∧
       s'.mach.core.bell.seals = c.bell.seals.eraseIdx i))) ∧
  (∀ (s : State) (t f : Nat) (x : Cmd), t < 960 → Runs s t 5 f 0x39 x →
     let c := s.mach.core
     let way := (c.wayOut c.twinSeal c.seamRouter).isSome
     (∀ r, c.bell.exchanged.find? (fun r => decide (r.1 = x.sealStep)) = some r →
       Completes (.sealx t f) s (fun s' => Finished s' x.id r.2 ∧ RegsKept s s' ∧ MemKept s s')) ∧
     ((∀ r ∈ c.bell.exchanged, r.1 ≠ x.sealStep) → (∀ y ∈ c.sealxOf x.sealStep, y.parts = []) →
       (way = false → Completes (.sealx t f) s (fun s' => Finished s' x.id stLOST ∧ RegsKept s s' ∧ MemKept s s')) ∧
       (way = true → c.streamRoom t c.twinSeal 1 = true →
         Completes (.sealx t f) s (fun s' => MemKept s s' ∧ OutsideKept s s' ∧ Issued s' x (fun p =>
           p.pkt.typ = 10 ∧ p.pkt.dst = c.twinSeal ∧ p.pkt.payload = toBytes 4 x.sealStep ++ toBytes 12 0 ++ toBytes 16 (c.sealOf x.sealStep))))))

/-! ## Holding units (chapter 12) -/

/-- R287: a WRITE that its tile takes whole, where no slot is tagged and no error stands in memory, lands its bytes, changes no
other byte, counts its tally where TEN is set, and is gone; so does a multicast copy at the head of its store. R288, R169: a
WRITE already landed is discarded, counted, and changes no memory; one its holding unit refuses changes no memory, and a refusal
by region counts in REFUSED. R342, R343: a 512-byte packet of a broadcast at a tile's loader stands in the image the loader
takes, and no other byte changes but for its store, which takes the image once the CSEAL table is there and every chunk is held
and sealed. -/
def Obligations.WritesLandOrAreRefused : Prop :=
  (∀ (s : State) (i : Nat) (a : Arrival),
     let c := s.mach.core
     let base := c.partBase a.pkt
     let landed := fun (s' : State) => OutsideKept s s' ∧ (∀ b ∈ s'.mach.core.net.arr ++ s'.mach.core.net.mstore, b.id ≠ a.id) ∧
       (∀ k, s'.mach.byteAt k = if tileBase a.unit + base ≤ k ∧ k < tileBase a.unit + base + a.pkt.len
         then a.pkt.payload.getD (k - (tileBase a.unit + base)) 0 else s.mach.byteAt k) ∧
       (∀ n < 64, s'.mach.core.tallyCount a.unit n
         = if bit a.pkt.arg 0 = true ∧ n = a.pkt.tally then min (c.tallyCount a.unit n + 1) 0xFFFFF else c.tallyCount a.unit n)
     s.live = true → a.unit < 960 → a.pkt.typ = 1 → a.accepted = false → a.wrote = [] → adClass a.pkt.dst = 0 →
     a.pkt.payload.length = a.pkt.len → 0 < a.pkt.len → a.pkt.tally < 64 → s.mach.errs = [] →
     (∀ k ∈ touched 8 base a.pkt.len, c.taggedRegion a.unit k = none) → base + a.pkt.len ≤ 2 ^ 20 →
     c.holdRoom a.unit a.pkt = true → c.inService a = false → c.isDup a.unit a.pkt = false → c.holdStatus a = none →
     (c.net.arr[i]? = some a → Completes (.write i) s landed) ∧
     (c.net.mstore.find? (fun b => decide (b.unit = a.unit)) = some a → Completes (.multicastCopyLanding a.unit) s landed)) ∧
  (∀ (s : State) (i : Nat) (a : Arrival), s.live = true → s.mach.core.net.arr[i]? = some a → a.unit < 960 → a.pkt.typ = 1 →
     a.accepted = false → adClass a.pkt.dst = 0 → s.mach.core.holdRoom a.unit a.pkt = true → s.mach.core.inService a = false →
     (s.mach.core.isDup a.unit a.pkt = true → Completes (.write i) s (fun s' => MemKept s s' ∧ OutsideKept s s'
       ∧ (∀ b ∈ s'.mach.core.net.arr, b.id ≠ a.id)
       ∧ s'.mach.core.rd R.NET_E2E_DUPS = satAdd R.NET_E2E_DUPS.w (s.mach.core.rd R.NET_E2E_DUPS) 1)) ∧
     (∀ st, s.mach.core.isDup a.unit a.pkt = false → s.mach.core.holdStatus a = some st → Completes (.write i) s (fun s' =>
       MemKept s s' ∧ OutsideKept s s' ∧ (∀ b ∈ s'.mach.core.net.arr, b.id ≠ a.id)
       ∧ s'.mach.core.trd a.unit R.MEM_STATUS_REFUSED = satAdd R.MEM_STATUS_REFUSED.w (s.mach.core.trd a.unit R.MEM_STATUS_REFUSED)
           (if st = stDARK then 1 else 0)))) ∧
  (∀ (s : State) (t : Nat) (a : Arrival), s.live = true → t < 960 →
     s.mach.core.net.mstore.find? (fun a => decide (a.unit = t)) = some a → a.pkt.typ = 8 → adTileOff a.pkt.dst < 0x40400 →
     let n := adTileOff a.pkt.dst / 512
     let lo := incomingBase t + 512 * n
     let man := s.mach.core.cry.manifest
     let whole := (tablePackets man).all (fun i => decide (i = n) || (s.mach.core.loads t).contains i)
     Completes (.multicastCopyLanding t) s (fun s' => OutsideKept s s' ∧ s'.mach.read lo a.pkt.payload.length = a.pkt.payload
       ∧ (∀ k, k < lo ∨ lo + a.pkt.payload.length ≤ k → k < loaderBase t ∨ loaderBase (t + 1) ≤ k → s'.mach.byteAt k = s.mach.byteAt k)
       ∧ (whole = true → s'.mach.core.trd t R.SEQ_LOADER_SEALT = 1)
       ∧ (whole = true → Memory.wf s.mach.mem → (∀ j < manChunks man, bit (s'.mach.core.trd t R.SEQ_FWMAP_CHUNKS) j = true) →
         ∀ k < 2 ^ 19, s'.mach.byteAt (loaderBase t + k) = s'.mach.byteAt (incomingBase t + k))
       ∧ ∀ b ∈ s'.mach.core.net.mstore, b.id ≠ a.id))

/-- R285, R288, R274: a READREQ that its tile or scratchpad slice serves, where nothing it touches is tagged and no error stands, is
answered with its bytes and gone, its SEQ marked, and memory is as it was; one of 8 bytes of the control page is answered with
the register as it reads. R285, R286, R182: READDATA that an open part awaits: of a COPY it sends the part's WRITE of those
bytes; of a GET or GATHER whose bytes nothing holds they land and the part has OK; at a slice the line asked for is held;
READDATA that none awaits is dropped and changes nothing else. -/
def Obligations.ReadsAreServedAndAnswered : Prop :=
  (∀ (s : State) (i : Nat) (a : Arrival),
     let c := s.mach.core
     let replied := fun (s' : State) (bs : List Byte) => (c.route a.pkt.src (c.unitRouter a.unit)).isSome = true → Sent s s' (fun p =>
       p.typ = 3 ∧ p.dst = a.pkt.src ∧ p.seq = a.pkt.seq ∧ p.part = a.pkt.part ∧ p.len = bs.length ∧ p.payload = bs)
     let gone := fun (s' : State) => MemKept s s' ∧ OutsideKept s s' ∧ ∀ b ∈ s'.mach.core.net.arr, b.id ≠ a.id
     s.live = true → c.net.arr[i]? = some a → a.pkt.typ = 2 → a.accepted = false → a.seen = [] →
     (c.holdRoom a.unit a.pkt = true → c.inService a = false → c.holdStatus a = none → s.mach.errs = [] →
       (a.unit < 960 → adClass a.pkt.dst = 0 → (∀ k ∈ touched 8 (adTileOff a.pkt.dst) a.pkt.len, c.taggedRegion a.unit k = none) →
         Completes (.readreq i) s (fun s' => gone s' ∧ s'.mach.core.isDup a.unit a.pkt = true
           ∧ replied s' (s.mach.read (tileBase a.unit + adTileOff a.pkt.dst) a.pkt.len))) ∧
       (∀ k < 96, a.unit = 960 + k → adClass a.pkt.dst = 1 → c.rd (R.LAR_CTL_STATE k) ≠ 1 →
         Completes (.readreq i) s (fun s' => gone s' ∧ s'.mach.core.isDup a.unit a.pkt = true
           ∧ replied s' (s.mach.read (sliceBase k + adSliceOff a.pkt.dst) a.pkt.len)))) ∧
     (adClass a.pkt.dst = 2 → (∀ q, a.port = some q → q < 4) → adPageOff a.pkt.dst % 8 = 0 → a.pkt.len = 8 →
       (adT a.pkt.dst = 1 → c.present a.unit = true) → Completes (.readreq i) s (fun s' => gone s' ∧ replied s' (toBytes 8
         (if adT a.pkt.dst = 1 then c.tileView a.unit (adPageOff a.pkt.dst) else c.chipView s.ext (adPageOff a.pkt.dst)))))) ∧
  (∀ (s : State) (i : Nat) (a : Arrival), s.live = true → s.mach.core.net.arr[i]? = some a → a.pkt.typ = 3 → a.land = none →
     let c := s.mach.core
     let bs := a.pkt.payload
     (adClass a.pkt.dst ≠ 1 →
       (c.answered a.pkt = none → Completes (.readdata i) s (fun s' => MemKept s s' ∧ RegsKept s s' ∧ OutsideKept s s'
         ∧ ∀ b ∈ s'.mach.core.net.arr, b.id ≠ a.id)) ∧
       (∀ x k, c.answered a.pkt = some (x, k) → k.pkt.typ = 2 →
         (x.opcode = 0x33 → k.stage = 0 → c.partStatus x (cpDst x.word) (512 * k.k) bs.length = none →
           c.streamRoom x.unit (cpDst x.word) 1 = true → Completes (.readdata i) s (fun s' => MemKept s s' ∧ OutsideKept s s' ∧
             let is := fun (p : Packet) => p.typ = 1 ∧ p.dst = cpDst x.word + 512 * k.k ∧ p.payload = bs ∧ p.part = k.k
             Sent s s' is ∧ HasPart s' x.id k.k (fun p => p.stage = 1 ∧ p.status = k.status ∧ is p.pkt))) ∧
         (x.opcode = 0x31 ∨ x.opcode = 0x32 → x.unit < 960 → a.wrote = [] →
           (∀ j < bs.length, s.mach.WritesNow x (k.loc + j)) → Completes (.readdata i) s (fun s' => OutsideKept s s' ∧
             (∀ b ∈ s'.mach.core.net.arr, b.id ≠ a.id) ∧ HasPart s' x.id k.k (fun p => p.status = some stOK) ∧
             ∀ j, s'.mach.byteAt j = if tileBase x.unit + k.loc ≤ j ∧ j < tileBase x.unit + k.loc + bs.length
               then bs.getD (j - (tileBase x.unit + k.loc)) 0 else s.mach.byteAt j)))) ∧
     (∀ f, adClass a.pkt.dst = 1 → c.fetchOf a.pkt = some f → f.write = false → f.shut = false → f.waiters = [] → bs.length = 64 →
       c.noAlloc f.slice f.addr = false → c.cline? f.slice (lineTag f.addr) = none →
       Completes (.readdata i) s (fun s' => OutsideKept s s' ∧ (∀ g ∈ s'.mach.core.lar.fetches, g.tag ≠ f.tag) ∧
         ∃ l ∈ s'.mach.core.lar.lines, l.slice = f.slice ∧ l.tag = lineTag f.addr ∧ l.dirty = false
           ∧ s'.mach.read (sliceBase l.slice + 64 * l.place) 64 = bs)))

/-- R194, R195, R286: a TINC that its unit takes adds its N to the named tally; one already applied changes no tally. R275, R186: a
SUBMIT that its queue takes stands in the ring entry at PI, and PI has advanced; no other byte changes. -/
def Obligations.TincAndSubmitPacketsAct : Prop :=
  (∀ (s : State) (i : Nat) (a : Arrival), s.live = true → s.mach.core.net.arr[i]? = some a → a.pkt.typ = 5 → a.unit < 960 →
     adClass a.pkt.dst = 0 → a.pkt.tally < 64 → s.mach.core.holdRoom a.unit a.pkt = true → s.mach.core.inService a = false →
     let c := s.mach.core
     (c.isDup a.unit a.pkt = true → Completes (.tincPacket i) s (fun s' => MemKept s s' ∧ OutsideKept s s' ∧
       ∀ n < 64, s'.mach.core.tallyCount a.unit n = c.tallyCount a.unit n)) ∧
     (c.isDup a.unit a.pkt = false → c.present a.unit = true → bits a.pkt.arg 0 20 ≠ 0 → Completes (.tincPacket i) s (fun s' =>
       MemKept s s' ∧ OutsideKept s s' ∧ s'.mach.core.isDup a.unit a.pkt = true ∧
       ∀ n < 64, s'.mach.core.tallyCount a.unit n
         = if n = a.pkt.tally then min (c.tallyCount a.unit n + bits a.pkt.arg 0 20) 0xFFFFF else c.tallyCount a.unit n))) ∧
  (∀ (s : State) (i u q : Nat) (a : Arrival), s.live = true → s.mach.core.net.arr[i]? = some a → a.pkt.typ = 6 →
     let c := s.mach.core
     submitQueue a.pkt.dst = some (u, q) → c.holdRoom unitSeam a.pkt = true → c.inService a = false → c.isDup unitSeam a.pkt = false →
     a.pkt.payload.length = 64 → leAt a.pkt.payload 40 24 = 0 → c.maySubmit a.port u = true → c.unitThere u = true →
     countFrom (c.ringPI u q) (c.ringCI u q) < 64 →
     Completes (.submit i) s (fun s' => s'.mach.core.ringPI u q = (c.ringPI u q + 1) % 65536 ∧ OutsideKept s s'
       ∧ s'.mach.read (storeBase (u - 960) q (c.ringPI u q % 64)) 64 = a.pkt.payload
       ∧ ∀ k, (k < storeBase (u - 960) q (c.ringPI u q % 64) ∨ storeBase (u - 960) q (c.ringPI u q % 64) + 64 ≤ k) →
         s'.mach.byteAt k = s.mach.byteAt k))

/-! ## The larder (chapter 8) -/

/-- R180, R182: a read of one line that a slice holds is answered with its bytes, counted a hit, and changes no memory; one of a
line it does not hold, and that no read under way serves, is counted a miss and has the line fetched for it. R286: LWB and LINV
write every dirty line of their range back to its hub, LINV drops the clean ones, and lines outside stand; each ends, with OK or
with the first line refused, once no request of its own is open; LPF fetches its next line where it is not held, and ends after
its last; where the larder is bypassed each completes with OK. -/
def Obligations.LarderServesAndIsMaintained : Prop :=
  (∀ (s : State) (i k : Nat) (a : Arrival) (x : Nat), s.live = true → s.mach.core.net.arr[i]? = some a → k < 96 → a.unit = 960 + k →
     (adClass a.pkt.dst = 4 ∨ adClass a.pkt.dst = 5) → a.pkt.typ = 2 → a.accepted = false →
     let c := s.mach.core
     c.rd (R.LAR_CTL_STATE k) ≠ 1 → c.holdRoom a.unit a.pkt = true → c.inService a = false → c.unitThere a.unit = true →
     a.pkt.dst % 2 ^ 42 + a.pkt.len ≤ 2 ^ 42 → s.mach.errs = [] → (∀ f ∈ c.lar.fetches, a.id ∉ f.waiters) →
     lineAddrs a.pkt.dst a.pkt.len = [x] → c.merge? x = none →
     let h := c.sliceFor x
     h < 96 →
     (∀ l, c.cline? h (lineTag x) = some l → Completes (.larderRequest i) s (fun s' => MemKept s s' ∧ OutsideKept s s'
       ∧ (∀ b ∈ s'.mach.core.net.arr, b.id ≠ a.id) ∧ s'.mach.core.isDup a.unit a.pkt = true
       ∧ s'.mach.core.rd (R.LAR_HIT_HITS h) = (c.rd (R.LAR_HIT_HITS h) + 1) % 2 ^ (R.LAR_HIT_HITS h).w
       ∧ ((c.route a.pkt.src (c.unitRouter a.unit)).isSome = true → Sent s s' (fun p => p.typ = 3 ∧ p.dst = a.pkt.src ∧ p.seq = a.pkt.seq
         ∧ p.payload = ((s.mach.read (sliceBase h + 64 * l.place) 64).drop (a.pkt.dst % 64)).take a.pkt.len)))) ∧
     (c.cline? h (lineTag x) = none → c.joinable x = none → c.writing x = false →
       (c.wayOut x (c.unitRouter (960 + h))).isSome = true →
       Completes (.larderRequest i) s (fun s' => MemKept s s' ∧ OutsideKept s s'
         ∧ s'.mach.core.rd (R.LAR_MISS_MISSES h) = (c.rd (R.LAR_MISS_MISSES h) + 1) % 2 ^ (R.LAR_MISS_MISSES h).w
         ∧ (∃ f ∈ s'.mach.core.lar.fetches, f.addr = x ∧ f.write = false ∧ f.waiters = [a.id] ∧ f.done = false)
         ∧ Sent s s' (fun p => p.typ = 2 ∧ p.dst = x ∧ p.len = 64)
         ∧ ∃ b ∈ s'.mach.core.net.arr, b.id = a.id ∧ b.accepted = true))) ∧
  (∀ (s : State) (u q f : Nat) (x : Cmd),
     let c := s.mach.core
     let bypass := decide (c.rd R.LAR_ILVCTL_BYPASS = 1)
     let idle := ∀ g ∈ c.lar.fetches, g.owner.map Prod.fst ≠ some x.owner
     let way := fun (l : CLine) => (c.wayOut (c.lineAddr l.tag) (c.unitRouter (960 + l.slice))).isSome
     let bytes := fun (l : CLine) => s.mach.read (sliceBase l.slice + 64 * l.place) 64
     let ok := fun (s' : State) => Finished s' x.id stOK ∧ MemKept s s' ∧ OutsideKept s s'
     let ends := fun (s' : State) => Finished s' x.id ((x.lineBad.map Prod.snd).getD stOK) ∧ MemKept s s' ∧ OutsideKept s s'
     let back := fun (s' : State) => MemKept s s' ∧ OutsideKept s s' ∧
       (∀ l ∈ c.lar.lines, c.lineIn x l = none → l ∈ s'.mach.core.lar.lines) ∧
       (∀ l ∈ s'.mach.core.lar.lines, c.lineIn x l ≠ none → way l = true → l.dirty = false) ∧
       (∀ l ∈ c.lar.lines, ∀ k, c.lineIn x l = some k → l.dirty = true → way l = true →
         (∃ g ∈ s'.mach.core.lar.fetches, g.write = true ∧ g.addr = c.lineAddr l.tag ∧ g.data = bytes l ∧ g.owner = some (x.owner, k)) ∧
         ∃ g ∈ s'.mach.core.net.fly, g.pkt.typ = 1 ∧ g.pkt.dst = c.lineAddr l.tag ∧ g.pkt.payload = bytes l) ∧
       ((∀ l ∈ c.lar.lines, c.lineIn x l ≠ none → l.dirty = false) → idle → x.lineBad = none → Finished s' x.id stOK)
     (Runs s u q f 0x3C x → (bypass = true → Completes (.lwb u q f) s ok) ∧
       (bypass = false → x.committed = true → idle → Completes (.lwb u q f) s ends) ∧
       (bypass = false → x.committed = false → s.mach.errs = [] → Completes (.lwb u q f) s back)) ∧
     (Runs s u q f 0x3D x → (bypass = true → Completes (.linv u q f) s ok) ∧
       (bypass = false → x.committed = true → idle → Completes (.linv u q f) s ends) ∧
       (bypass = false → x.committed = false → s.mach.errs = [] → Completes (.linv u q f) s (fun s' => back s' ∧
         ∀ l ∈ s'.mach.core.lar.lines, c.lineIn x l ≠ none → ∃ l0 ∈ c.lar.lines, l0.dirty = true ∧ l = { l0 with dirty := l.dirty }))) ∧
     (Runs s u q f 0x3E x → (bypass = true → Completes (.lpf u q f) s ok) ∧
       (bypass = false → lnLines x.word ≤ x.cursor → idle → Completes (.lpf u q f) s ends) ∧
       (∀ a, bypass = false → x.cursor < lnLines x.word → partAddr (rmRemote x.word) (64 * x.cursor) = some a →
         c.unitThere (960 + c.sliceFor a) = true → c.noAlloc (c.sliceFor a) a = false →
         let on := fun (s' : State) => MemKept s s' ∧ OutsideKept s s' ∧ Queued s' x.id (fun y => y.cursor = x.cursor + 1 ∧ y.phase = .run)
         (∀ l, c.cline? (c.sliceFor a) (lineTag a) = some l → Completes (.lpf u q f) s (fun s' => on s' ∧ s'.mach.core.lar = c.lar)) ∧
         (c.cline? (c.sliceFor a) (lineTag a) = none → c.writing a = false → c.joinable a = none →
           (c.wayOut a (c.unitRouter (960 + c.sliceFor a))).isSome = true → Completes (.lpf u q f) s (fun s' => on s' ∧
             Sent s s' (fun p => p.typ = 2 ∧ p.dst = a ∧ p.len = 64) ∧
             ∃ g ∈ s'.mach.core.lar.fetches, g.write = false ∧ g.addr = a ∧ g.owner = some (x.owner, x.cursor))))))

/-! ## The mesh (chapter 10) -/

/-- R217, R219, R220, R221, R222: a packet whose next link works and whose next input has room, none before it at the output,
crosses whole and unchanged but for HOPS; a packet at its last router that its unit takes is ejected to it; one that waits at
its source enters the mesh, in the ACTIVE epoch, once its input has room; one whose next input has none stays. R231, R232, R233:
a crossing found uncorrectable counts in RESEND and is tried again, the fourth in a row over the link retires it; a packet at
HOPS = 255 is discarded and counted in LOOP. R227: a unicast packet of VC2 to VC5 that has waited ESCWAIT is marked for the
escape route; nothing else changes. -/
def Obligations.PacketsHopRetryAndEscape : Prop :=
  (∀ (s : State) (i : Nat) (f : Flying) (p : Packet), s.live = true → s.mach.core.net.fly[i]? = some f →
     let c := s.mach.core
     let moved := fun (s' : State) => MemKept s s' ∧ OutsideKept s s' ∧ s'.mach.core.net.arr = c.net.arr
     (f.queued = true → c.hasRoom f.here f.plane f.inp f.pkt.vc f.pkt.flits = true → Completes (.packetHop i []) s (fun s' =>
       moved s' ∧ s'.mach.core.net.fly = c.net.fly.set i { f with queued := false, pkt := { f.pkt with epoch := c.rd R.NET_RTCTL_ACTIVE } })) ∧
     (f.queued = false → f.pkt.hops < 255 →
       (∀ out m, c.nextPort f = (p, some out) → neighbour f.here out = some m → c.linkState f.here f.plane out = 0 →
         (c.hasRoom m f.plane (opposite out) p.vc p.flits = true → c.firstAt f = true → Completes (.packetHop i []) s (fun s' =>
           moved s' ∧ s'.mach.core.net.fly = c.net.fly.set i { f with
             pkt := { p with hops := p.hops + 1 }, here := m, inp := opposite out, out := 6, resends := 0, waited := false, heldAt := none })) ∧
         (c.hasRoom m f.plane (opposite out) p.vc p.flits = false → Completes (.packetHop i []) s (fun s' =>
           moved s' ∧ s'.mach.core.net.fly = c.net.fly.set i { f with heldAt := f.heldAt.or (some c.now) }))) ∧
       (c.nextPort f = (p, none) → p.mcast = false → f.port = none → c.takesHere f p = true → c.firstAt f = true →
         c.routerAnswers f.unit = false → Completes (.packetHop i []) s (fun s' => MemKept s s' ∧ OutsideKept s s' ∧
           s'.mach.core.net.fly = c.net.fly.eraseIdx i ∧ ∃ a ∈ s'.mach.core.net.arr, a.unit = f.unit ∧ a.pkt = p)))) ∧
  (∀ (s : State) (i : Nat) (errs : List (Nat × Nat × Nat)) (f : Flying) (p : Packet), s.live = true → s.mach.core.net.fly[i]? = some f →
     f.queued = false →
     let c := s.mach.core
     (∀ out m, f.pkt.hops < 255 → c.nextPort f = (p, some out) → neighbour f.here out = some m →
       c.linkState f.here f.plane out = 0 → c.hasRoom m f.plane (opposite out) p.vc p.flits = true → c.firstAt f = true →
       decodePacket p.wire errs = none → f.here < 1104 → f.plane < 3 → out < 6 →
       let n := if f.out = out then f.resends else 0
       (n ≠ 3 → Completes (.packetHop i errs) s (fun s' => MemKept s s' ∧
         s'.mach.core.net.fly = c.net.fly.set i { f with out := out, resends := n + 1 }
         ∧ s'.mach.core.rd (R.NET_LINK_RESEND m f.plane (opposite out))
           = satAdd (R.NET_LINK_RESEND m f.plane (opposite out)).w (c.rd (R.NET_LINK_RESEND m f.plane (opposite out))) 1)) ∧
       (n = 3 → Completes (.packetHop i errs) s (fun s' => MemKept s s' ∧
         s'.mach.core.rd (R.NET_LINK_STATE f.here f.plane out) = 1 ∧ ∃ g ∈ s'.mach.core.net.fly, g.pkt.typ = 9
           ∧ g.pkt.src = c.pageAddr (R.NET_LINK_STATE f.here f.plane out).off))) ∧
     (255 ≤ f.pkt.hops → f.pkt.epoch < 2 → Completes (.packetHop i errs) s (fun s' => MemKept s s' ∧ s'.mach.core.rd R.NET_STATUS_LOOP
       = satAdd R.NET_STATUS_LOOP.w (c.rd R.NET_STATUS_LOOP) 1))) ∧
  (∀ (s : State) (i : Nat) (f : Flying), s.live = true → s.mach.core.net.fly[i]? = some f → 2 ≤ f.pkt.vc → f.pkt.esc = false →
     f.queued = false → Completes (.escape i) s (fun s' => MemKept s s' ∧ RegsKept s s' ∧ OutsideKept s s'
       ∧ s'.mach.core.net.fly = s.mach.core.net.fly.set i { f with waited := true } ∧ s'.mach.core.net.arr = s.mach.core.net.arr))

/-- R232, R240, R388: a router's link notice is recorded in the ledger and has new tables made; an epoch that drains past EPOCHTMO
is job-fatal; a health notice that is due, or comes from upstream, leaves towards LDG_NOTIFY by a hub. -/
def Obligations.NoticesAreRecordedAndSent : Prop :=
  ∀ (s : State) (i : Nat) (a : Arrival), s.live = true →
    let c := s.mach.core
    let way := c.hubActive = true ∧ c.rd R.LDG_NOTIFY_ADDR ≠ 0 ∧ (c.route (c.rd R.LDG_NOTIFY_ADDR) (c.unitRouter unitSeam)).isSome = true
    let l := linkOf a.pkt.src
    let e : LEntry := ⟨8, meshUnit l.1 l.2.1 l.2.2, 0, 0⟩
    let other := 1 - c.rd R.NET_RTCTL_ACTIVE
    (c.arrOf i 9 unitSeam = some a → a.linkNotice = true → c.ledgerFull e = false →
      Completes (.linkNotice i) s (fun s' => MemKept s s' ∧ OutsideKept s s' ∧ e ∈ s'.mach.core.led.entries ∧
        (c.net.own = false → c.epochState other = 0 → s'.mach.core.epochState other = 1))) ∧
    (c.arrOf i 9 unitSeam = some a → c.forwarded a = true → way → Completes (.healthForward i) s (fun s' => MemKept s s' ∧
      Sent s s' (fun p => p.typ = 9 ∧ p.arg = a.pkt.arg ∧ p.src = a.pkt.src ∧ p.dst = c.rd R.LDG_NOTIFY_ADDR))) ∧
    (∀ n rest, c.log.due = n :: rest → (∀ t, c.log.lastNotice = some t → 1000 ≤ c.now - t) → way →
      Completes .healthNotice s (fun s' => MemKept s s' ∧ s'.mach.core.log.due = rest ∧ s'.mach.core.log.lastNotice = some c.now ∧
        Sent s s' (fun p => p.typ = 9 ∧ p.arg = n.arg ∧ p.dst = c.rd R.LDG_NOTIFY_ADDR))) ∧
    (∀ t0, c.net.draining = some t0 → c.rd R.NET_TIMERS_EPOCHTMO ≤ c.now - t0 → Completes .epochtmoExpiry s (fun s' =>
      MemKept s s' ∧ OutsideKept s s' ∧ s'.mach.core.rd R.LDG_ALERT_JOBF = 1 ∧ s'.mach.core.net.draining = none))

/-! ## Ports and links (chapter 11) -/

/-- R241, R242, R220: the first packet of an ACTIVE hub port that passes its entry checks enters the mesh where its router has room;
a refused request with a valid SRC is answered with the status of the first check it fails. R263: a ring packet for another slot
is relayed to the other ring port with HOPS one higher; it does not enter the die. -/
def Obligations.PortArrivalsEnterOrAreRelayed : Prop :=
  (∀ (s : State) (p : Nat) (x : Rx), s.live = true → p < 4 →
     let c := s.mach.core
     c.ports.rx.find? (fun x => decide (x.port = p) && (decide (p < 4) || decide (c.ringWay x.pkt ≠ .relay))) = some x →
     c.rd (R.PRT_STATE_STATE p) = 2 →
     (∀ r, c.entryStatus p x.pkt = none → c.route x.pkt.dst (c.entryOf p x.strand) = some r →
       c.entryWaits p x.strand x.pkt = false → Completes (.portArrival p) s (fun s' =>
       MemKept s s' ∧ OutsideKept s s' ∧ s'.mach.core.ports.rx = c.ports.rx.erase x ∧
       ∃ g, s'.mach.core.net.fly = c.net.fly ++ [g] ∧ g.pkt.dst = x.pkt.dst ∧ g.pkt.typ = x.pkt.typ ∧ g.via = some p)) ∧
     (∀ e, c.entryStatus p x.pkt = some e → x.pkt.isRequest = true → c.srcValid x.pkt.src = true → Completes (.portArrival p) s (fun s' =>
       MemKept s s' ∧ s'.mach.core.net.fly = c.net.fly ∧ s'.mach.core.ports.rx = c.ports.rx.erase x ∧
       ∃ h ∈ s'.mach.core.ports.held, h.port = p ∧ h.pkt.typ = 4 ∧ h.pkt.status = e ∧ h.pkt.dst = x.pkt.src))) ∧
  (∀ (s : State) (p : Nat) (x : Rx), s.live = true → p = 4 ∨ p = 5 →
     s.mach.core.ports.rx.find? (fun x => decide (x.port = p) && decide (s.mach.core.ringWay x.pkt = .relay)) = some x →
     x.pkt.hops + 1 < 255 → Completes (.ringRelay p) s (fun s' => MemKept s s' ∧ OutsideKept s s' ∧
       s'.mach.core.net = s.mach.core.net ∧ s'.mach.core.ports.rx = s.mach.core.ports.rx.erase x ∧
       ∃ h ∈ s'.mach.core.ports.held, h.port = 9 - p ∧ h.relay = true ∧ h.pkt = { x.pkt with hops := x.pkt.hops + 1 }))

/-- R247, R249, R252: a frame that carries a one-block packet, its control whole: with its block corrected it is received and
accepted where it is new, and not received again where it was accepted before; with an uncorrectable block it is counted in
RESEND and not received. R252, R258, R260: a held packet without ACCEPT for ACCTMO is sent again or due again under its own
LSEQ; a strand idle for IDLEPER sends a frame with the port's state; a count window that has ended begins again with counts of
zero. -/
def Obligations.FramesAreAcceptedOnceAndTimersAct : Prop :=
  (∀ (s : State) (p l k : Nat) (o : FrameObs), s.live = true → isStrand p l = true →
     let c := s.mach.core
     let half := c.half p 1 l
     let hits := o.hits half (goodLanes (c.excluded p 1 l) (laneCount half)) (laneBytes o.frame)
     let known := (c.link p l).accepted.contains o.frame.lseq
     c.usable p 1 l = true → frameOf (frameControl o.frame) o.frame.block = o.frame → o.frame.ftype = 4 →
     o.frame.accept = none → o.frame.resend = none → o.frame.credit = none → decodeHits 12 controlPlace hits = .word [] k →
     (∀ left n, decodeHits 64 blockPlace hits = .word left n →
       (known = false → Completes (.frame p l o) s (fun s' => MemKept s s' ∧ OutsideKept s s' ∧
         s'.mach.core.ports.rx = c.ports.rx
           ++ [{ port := p, strand := l, lvc := o.frame.lvc, blocks := 1, pkt := Packet.ofWire (withErrors o.frame.block left) }]
         ∧ s'.mach.core.peer p = o.frame.pstate
         ∧ (c.usables p 0 ≠ [] → ∃ w ∈ s'.mach.core.ports.wire, w.1 = p ∧ w.2.2.accept = some (l, o.frame.lseq)))) ∧
       (known = true → Completes (.frame p l o) s (fun s' => MemKept s s' ∧ s'.mach.core.ports.rx = c.ports.rx
         ∧ (c.usables p 0 ≠ [] → ∃ w ∈ s'.mach.core.ports.wire, w.1 = p ∧ w.2.2.accept = some (l, o.frame.lseq))))) ∧
     (decodeHits 64 blockPlace hits = .uncorrectable → Completes (.frame p l o) s (fun s' => MemKept s s' ∧ s'.mach.core.ports.rx = c.ports.rx
       ∧ s'.mach.core.rd (R.PRT_CNT_RESEND p 1 l) = satAdd (R.PRT_CNT_RESEND p 1 l).w (c.rd (R.PRT_CNT_RESEND p 1 l)) 1
       ∧ (c.usables p 0 ≠ [] → ∃ w ∈ s'.mach.core.ports.wire, w.1 = p ∧ w.2.2.resend = some (l, o.frame.lseq))))) ∧
  (∀ (s : State), s.live = true →
     let c := s.mach.core
     (∀ i h, c.ports.held[i]? = some h → h.strand.isSome = true → h.again = false → c.rd R.PRT_TIMERS_ACCTMO ≤ c.now - h.sentAt →
       Completes (.acctmoExpiry i) s (fun s' => MemKept s s' ∧ RegsKept s s' ∧ ∃ h', s'.mach.core.ports.held[i]? = some h' ∧ h'.pkt = h.pkt
         ∧ h'.strand = h.strand ∧ h'.lseq = h.lseq ∧ (h'.again = true ∨ h'.sentAt = c.now))) ∧
     (∀ p l, isStrand p l = true → c.usable p 0 l = true → c.rd R.PRT_TIMERS_IDLEPER ≤ c.now - (c.link p l).lastOut →
       Completes (.idleFrame p l) s (fun s' => MemKept s s' ∧ RegsKept s s' ∧
         s'.mach.core.ports.wire = c.ports.wire ++ [(p, l, { pstate := c.rd (R.PRT_STATE_STATE p) })])) ∧
     (∀ p l, isStrand p l = true → c.rd R.PRT_THRESH_WIN ≤ c.now - (c.link p l).window →
       Completes (.countWindow p l) s (fun s' => MemKept s s' ∧ s'.mach.core.rd (R.PRT_CNT_CODEV p 1 l) = 0
         ∧ s'.mach.core.rd (R.PRT_CNT_HARD p 0 l) = 0 ∧ s'.mach.core.rd (R.PRT_CNT_HARD p 1 l) = 0
         ∧ (s'.mach.core.link p l).window = c.now)))

/-- R255, R257: a link in training takes, in each direction that is not RETIRED, the state its lanes, rate and confirmation give; a
partner whose descriptor fails its test retires both. R255, R261: no partner within 1,000,000 ticks makes a link OFF, a partner
seen sends it back to training, silence makes it LOST or, with its port's last strand, sends it back to training; a RETIRED
direction stays RETIRED through each. -/
def Obligations.LinksTrainAndSettle : Prop :=
  (∀ (s : State) (p l : Nat) (o : TrainObs), s.live = true → isStrand p l = true →
     let c := s.mach.core
     c.sst p 0 l = 1 → c.sst p 1 l = 1 → c.linkOpen p l = true → c.led.entries.length ≤ 65000 →
     (descCause p o.desc = 0 → Completes (.linkTraining p l o) s (fun s' => MemKept s s' ∧ OutsideKept s s' ∧
       s'.mach.core.sst p 0 l = c.trainState p 0 l o.outDir ∧ s'.mach.core.sst p 1 l = c.trainState p 1 l o.inDir)) ∧
     (descCause p o.desc ≠ 0 → Completes (.linkTraining p l o) s (fun s' => MemKept s s' ∧ OutsideKept s s' ∧
       s'.mach.core.sst p 0 l = 4 ∧ s'.mach.core.sst p 1 l = 4))) ∧
  (∀ (s : State) (p l : Nat) (silent : Bool), s.live = true → isStrand p l = true →
     let c := s.mach.core
     (c.sst p 0 l = 1 → c.sst p 1 l = 1 ∨ c.sst p 1 l = 4 → 1000000 ≤ c.now - (c.link p l).since →
       Completes (.partnerTimeout p l) s (fun s' => MemKept s s' ∧ s'.mach.core.sst p 0 l = 0
         ∧ s'.mach.core.sst p 1 l = if c.sst p 1 l = 4 then 4 else 0)) ∧
     (c.sst p 0 l = 0 ∨ c.sst p 0 l = 5 → c.linkOpen p l = true → c.rd (R.PRT_STATE_STATE p) ≠ 0 →
       Completes (.partnerPresent p l) s (fun s' => MemKept s s' ∧ s'.mach.core.sst p 0 l = 1
         ∧ s'.mach.core.sst p 1 l = if c.sst p 1 l = 4 then 4 else 1)) ∧
     (c.usable p 0 l = true → silent = true ∨ c.rd R.PRT_TIMERS_STRTMO ≤ c.now - (c.link p l).lastIn →
       Completes (.strandLost p l silent) s (fun s' => MemKept s s' ∧ (s'.mach.core.sst p 0 l = 5 ∨ s'.mach.core.sst p 0 l = 1)
         ∧ (c.sst p 1 l = 4 → s'.mach.core.sst p 1 l = 4))))

/-- R248, R258, Table 11.7: a lane failed by violations or by a stall is excluded and its link retrains; a strand at its hard-event
limit retrains, its count standing; an acknowledge wire more than 16 behind is marked, and with both the strand is RETIRED. -/
def Obligations.DegradationRetrainsOrRetires : Prop :=
  ∀ (s : State) (p l lane k0 k1 : Nat), s.live = true → isStrand p l = true →
    let c := s.mach.core
    let bad := setBit (c.excluded p 1 l) lane true
    let enough := 64 ≤ 72 - popCount bad 72 ∧ c.laneRoom p 1 l bad = true
    let fails := fun (s' : State) => MemKept s s' ∧ s'.mach.core.sst p 1 l = 1 ∧ bit (s'.mach.core.excluded p 1 l) lane = true
    (lane < 72 → bit (c.excluded p 1 l) lane = false → c.rd R.PRT_THRESH_CVLIM ≤ SMap.get 0 (c.link p l).lanes lane →
      (c.sst p 1 l = 2 ∧ enough) ∨ c.sst p 1 l = 3 → Completes (.laneFail p l lane) s fails) ∧
    (lane < 72 → bit (c.excluded p 1 l) lane = false → c.sst p 1 l = 2 ∨ c.sst p 1 l = 3 → Completes (.laneStall p l lane) s fails) ∧
    ((c.sst p 1 l = 2 ∧ c.rd R.PRT_THRESH_HDEG ≤ c.rd (R.PRT_CNT_HARD p 1 l))
        ∨ (c.sst p 1 l = 3 ∧ c.rd R.PRT_THRESH_HRET ≤ c.rd (R.PRT_CNT_HARD p 1 l)) →
      Completes (.hardEventLimit p l) s (fun s' => MemKept s s' ∧ s'.mach.core.sst p 1 l = 1
        ∧ s'.mach.core.rd (R.PRT_CNT_HARD p 1 l) = c.rd (R.PRT_CNT_HARD p 1 l))) ∧
    (wiresBehind k0 k1 ≠ 0 → Completes (.ackWireFail p l ⟨k0, k1⟩) s (fun s' => MemKept s s' ∧
      let ackf := c.rd (R.PRT_STRAND_ACKF p 0 l) ||| wiresBehind k0 k1
      s'.mach.core.rd (R.PRT_STRAND_ACKF p 0 l) = ackf ∧ (ackf = 3 → s'.mach.core.sst p 0 l = 4)))

/-- R252, R258, R259, R261: the four link messages: ABSENT counts a hub partner ABSENT and empties what the port holds; RETRAIN
sends the link back to training; RETIRE retires the strand; DEDUP drops the packets it lists. A link message names its port and
strand in the row (log entry 24). -/
def Obligations.LinkMessagesAct : Prop :=
  ∀ (s : State) (p : Nat) (m : Lctl) (c' : Core), s.live = true → p < 6 →
    let c := s.mach.core
    let d := 1 - m.dir
    (p < 4 → c.takeLctl p 1 = some (m, c') → Completes (.absentNotice p) s (fun s' => MemKept s s' ∧ p ∈ s'.mach.core.ports.absent
      ∧ ∀ h ∈ s'.mach.core.ports.held, h.port ≠ p)) ∧
    (p < 4 → p ∈ c.ports.absent → c.rd R.PRT_TIMERS_LOSSTMO ≤ c.now - SMap.get 0 c.ports.lastFrame p →
      Completes (.portLoss p) s (fun s' => MemKept s s' ∧ ∀ h ∈ s'.mach.core.ports.held, h.port ≠ p)) ∧
    (c.takeLctl p 2 = some (m, c') → m.link < nStrands p → c.sst p 0 m.link ≠ 1 → c.sst p 1 m.link ≠ 1 → c.sst p d m.link ≠ 4 →
      Completes (.retrain p) s (fun s' => MemKept s s' ∧ s'.mach.core.sst p d m.link = 1)) ∧
    (c.takeLctl p 3 = some (m, c') → m.link < nStrands p → c.sst p d m.link ≠ 1 →
      Completes (.retire p) s (fun s' => MemKept s s' ∧ s'.mach.core.sst p d m.link = 4)) ∧
    (c.takeLctl p 4 = some (m, c') → (c.sst p 0 m.link ≠ 4 ∨ 30 ≤ m.entries.length) → Completes (.dedup p) s (fun s' => MemKept s s' ∧
      s'.mach.core.ports.held = c.ports.held.filter (fun h =>
        !(decide (h.port = p) && decide (h.strand = some m.link) && m.entries.contains h.lseq)))) ∧
    (c.takeLctl p 4 = some (m, c') → c.sst p 0 m.link = 4 → m.entries.length < 30 → Completes (.dedup p) s (fun s' => MemKept s s' ∧
      ∀ h ∈ s'.mach.core.ports.held, h.port = p → h.strand ≠ some m.link))

/-- R267: at a position whose turn it is, a first attempt, a retry 100 ms after a failure, and an attempt on traffic resumed insert
the position where its four strands train, and else count the failure. The times are looked at when the row runs (log entry 4). -/
def Obligations.RingInsertionByPosition : Prop :=
  ∀ (s : State) (k : Nat) (o : InsertObs), s.live = true → k < 4 →
    let c := s.mach.core
    let n := SMap.get 0 c.ports.tries k
    let good := c.positionTrains k o
    let result := fun (s' : State) => MemKept s s' ∧ OutsideKept s s' ∧
      (good = true → bit (s'.mach.core.rd (R.PRT_STATE_BYPOS 4)) k = false ∧ SMap.get 0 s'.mach.core.ports.tries k = 0) ∧
      (good = false → SMap.get 0 s'.mach.core.ports.tries k = min 4 (n + 1) ∧ SMap.get 0 s'.mach.core.ports.failedAt k = c.now
        ∧ s'.mach.core.rd (R.PRT_STATE_BYPOS 4) = c.rd (R.PRT_STATE_BYPOS 4))
    c.insertTurn k = true → o.clean = true →
    (n = 0 → Completes (.ringInsertion k o) s result) ∧
    (1 ≤ n → n ≤ 3 → 100000000 ≤ c.now - SMap.get 0 c.ports.failedAt k → Completes (.insertionRetry k o) s result) ∧
    (n = 4 → Completes (.positionTrafficResumed k o) s result)

/-! ## The timebase (chapter 2) -/

/-- R37, R240, log entry 3: with no command waiting, a step is one oscillator cycle: the accumulator takes in INC and at most 100
ppm of slew, its carries advance TMB_NOW, and besides the timebase only an epoch change of the counting-house's own goes one
step on: tables wanted are LOADING once the inactive epoch is INVALID, and tables LOADING become VALID and ACTIVE. -/
def Obligations.IdleStepIsOneOscillatorCycle : Prop :=
  ∀ (s : State), s.live = true → s.pending = [] →
    let c := s.mach.core
    let x := c.tmb.frac + ((c.inc : Int) + c.slewStep).toNat
    let e := 1 - c.rd R.NET_RTCTL_ACTIVE
    ∃ t, step s = .next t ∧ MemKept s t ∧ OutsideKept s t ∧ t.mach.core.now = (c.now + x / 2 ^ 24) % 2 ^ R.TMB_NOW_NOW.w
      ∧ t.mach.core.tmb.frac = x % 2 ^ 24 ∧ t.mach.core.tmb.slew = c.tmb.slew - c.slewStep
      ∧ (∀ o, o ≠ R.TMB_NOW_NOW.off → o ≠ R.NET_RTCTL_ACTIVE.off → t.mach.core.cword o = c.cword o) ∧ t.mach.core.treg = c.treg
      ∧ t.mach.core.queues = c.queues ∧ t.mach.core.net.fly = c.net.fly ∧ t.mach.core.net.arr = c.net.arr
      ∧ (c.net.own = false → c.net.want = none → t.mach.core.net = c.net
        ∧ t.mach.core.cword R.NET_RTCTL_ACTIVE.off = c.cword R.NET_RTCTL_ACTIVE.off)
      ∧ (c.net.own = false → c.net.want.isSome = true → c.epochState e = 0 → t.mach.core.epochState e = 1
        ∧ t.mach.core.rd R.NET_RTCTL_ACTIVE = c.rd R.NET_RTCTL_ACTIVE)
      ∧ (c.net.own = true → c.epochState e = 1 → t.mach.core.epochState e = 2 ∧ t.mach.core.rd R.NET_RTCTL_ACTIVE = e)

/-- R37, R38: the first beacon sets a local time that is behind it and else has the offset slewed out; a later one within bounds is
applied; one whose interval is off by 1% or more, or does not grow, is rejected with DRIFT_ERR; SLEWING ends with the offset.
R38, R86, R243: a read of SEQ_NFLAGS_RC returns and clears the five flag sets, one of TMB_STATUS returns it and clears
DRIFT_ERR, one of NET_QDEPTH returns it and clears MAXD. Where a read leaves what it returned is the model's own (log entry 8). -/
def Obligations.BeaconsAndClearingReads : Prop :=
  (∀ (s : State) (hub : Nat), s.live = true →
     let c := s.mach.core
     let h := hub + 45
     (c.tmb.beacon = none → Completes (.timeBeacon hub) s (fun s' => MemKept s s' ∧ OutsideKept s s' ∧
       s'.mach.core.tmb.beacon.isSome = true ∧
       (c.now < h → s'.mach.core.now = h % 2 ^ R.TMB_NOW_NOW.w) ∧
       (h ≤ c.now → s'.mach.core.now = c.now ∧ s'.mach.core.tmb.slew = ((h : Int) - c.now) * 2 ^ 24
         ∧ s'.mach.core.rd R.TMB_STATUS_SLEWING = if h = c.now then 0 else 1))) ∧
     (∀ h0 l0, c.tmb.beacon = some (h0, l0) →
       let he : Int := (h : Int) - h0
       let le : Int := (c.now : Int) - l0
       let bad := he ≤ 0 ∨ le ≤ 0 ∨ le < (max (he - le) (le - he)) * 100
       Completes (.timeBeacon hub) s (fun s' => MemKept s s' ∧ OutsideKept s s' ∧ s'.mach.core.now = c.now ∧
         (bad → s'.mach.core.rd R.TMB_STATUS_DRIFT_ERR = 1 ∧ s'.mach.core.inc = c.inc ∧ s'.mach.core.tmb.beacon = c.tmb.beacon) ∧
         (¬ bad → (∃ r < 2, s'.mach.core.inc = (c.inc * he.toNat * 2 ^ 24 / (le * 2 ^ 24 - c.tmb.slewed).toNat + r) % 2 ^ 32)
           ∧ s'.mach.core.tmb.beacon = some (h, c.now) ∧ s'.mach.core.tmb.slew = ((h : Int) - c.now) * 2 ^ 24
           ∧ s'.mach.core.rd R.TMB_STATUS_DRIFT_ERR = c.rd R.TMB_STATUS_DRIFT_ERR))) ∧
     (c.tmb.slew = 0 → Completes .slewComplete s (fun s' => MemKept s s' ∧ s'.mach.core.rd R.TMB_STATUS_SLEWING = 0
       ∧ s'.mach.core.tmb = c.tmb))) ∧
  (∀ (s : State), s.live = true →
     let c := s.mach.core
     (∀ t < 960, Completes (.nflagsRcRead t) s (fun s' => MemKept s s' ∧ OutsideKept s s' ∧
       s'.mach.core.lastRead = (c.tword t 0x200).toNat ∧ s'.mach.core.tword t 0x200 = 0
         ∧ RegsOnly (fun t' o => t' = t ∧ o = 0x200) (fun _ => False) s s')) ∧
     (Completes .tmbStatusRead s (fun s' => MemKept s s' ∧ OutsideKept s s' ∧
       s'.mach.core.lastRead = (c.cword R.TMB_STATUS_DRIFT_ERR.off).toNat ∧ s'.mach.core.rd R.TMB_STATUS_DRIFT_ERR = 0
         ∧ s'.mach.core.rd R.TMB_STATUS_SLEWING = c.rd R.TMB_STATUS_SLEWING ∧ s'.mach.core.rd R.TMB_STATUS_CAL_VALID = c.rd R.TMB_STATUS_CAL_VALID)) ∧
     (∀ n < 1104, ∀ k < 3, ∀ p < 6, Completes (.netQdepthRead n k p) s (fun s' => MemKept s s' ∧ OutsideKept s s' ∧
       s'.mach.core.lastRead = (c.cword (R.NET_QDEPTH_MAXD n k p).off).toNat ∧ s'.mach.core.rd (R.NET_QDEPTH_MAXD n k p) = 0
         ∧ s'.mach.core.rd (R.NET_QDEPTH_DEPTH n k p) = c.rd (R.NET_QDEPTH_DEPTH n k p))))

/-! ## The bell and the seals (chapter 13) -/

/-- R296: POST commits: it clears the tallies it enables, marks its tile as waiting for a ring, raises PACE to its own, and sends
its status to the bell unit. R297, R302: in RUN a participating tile's first post, a child's post of the current step and the
notice of a lost child each count and join their status; a second post of a tile, or one of no participant, joins FAILED. R297,
Table 13.2: the joined status of a step does not depend on the order in which posts arrive. -/
def Obligations.PostsCommitAndJoinTheStep : Prop :=
  (∀ (s : State) (t : Nat) (x : Cmd), t < 960 → Runs s t 7 0 0x0B x → x.committed = false →
     Completes (.post t) s (fun s' => MemKept s s' ∧ OutsideKept s s' ∧ s'.mach.core.trd t R.SEQ_BELL_PEND = 1 ∧
       s'.mach.core.rd R.CH_BELLTMO_PACE = max (s.mach.core.rd R.CH_BELLTMO_PACE) (bits x.word 78 24) ∧
       (bit x.word 70 = true → s'.mach.core.tallyCount t (bits x.word 64 6) = 0 ∧ s'.mach.core.tallyFault t (bits x.word 64 6) = false) ∧
       (bit x.word 77 = true → s'.mach.core.tallyCount t (bits x.word 71 6) = 0 ∧ s'.mach.core.tallyFault t (bits x.word 71 6) = false) ∧
       Queued s' x.id (fun y => y.committed = true ∧ y.phase = .run) ∧
       ((s.mach.core.route s.mach.core.bellAddr (s.mach.core.unitRouter t)).isSome = true → Sent s s' (fun p =>
         p.typ = 7 ∧ p.dst = s.mach.core.bellAddr
           ∧ p.arg = 4 * (if x.waitN ≠ 0 ∧ s.mach.core.tallyFault t x.waitT = true then stFAILED else stOK))))) ∧
  (∀ (s : State) (i : Nat) (a : Arrival), s.live = true → s.mach.core.rd R.CH_BELLSTEP_STATE = 1 →
     let c := s.mach.core
     let joined := fun (st : Nat) (s' : State) => MemKept s s' ∧ OutsideKept s s' ∧
       s'.mach.core.rd R.CH_BELLSTAT_JSTAT = joinStatus (c.rd R.CH_BELLSTAT_JSTAT) st % 16 ∧ ∀ b ∈ s'.mach.core.net.arr, b.id ≠ a.id
     (∀ t, c.bellArr i 0 = some a → c.poster a = some t → t ∉ c.bell.tiles → Completes (.tilePost i) s (fun s' =>
       joined a.pkt.bstat s' ∧ s'.mach.core.bell.tiles = c.bell.tiles ++ [t])) ∧
     (∀ t, c.bellArr i 0 = some a → (c.poster a = none ∨ (c.poster a = some t ∧ t ∈ c.bell.tiles)) → Completes (.tilePost i) s (fun s' =>
       joined stFAILED s' ∧ s'.mach.core.bell.tiles = c.bell.tiles)) ∧
     (∀ k, c.bellArr i 1 = some a → c.childOf a.pkt.src = some k → k ∉ c.bell.kids → Completes (.chipletPost i) s (fun s' =>
       joined (if a.pkt.bellStep = c.rd R.CH_BELLSTEP_STEP then a.pkt.bstat else stFAILED) s'
         ∧ s'.mach.core.bell.kids = c.bell.kids ++ [k])) ∧
     (∀ k, c.bellArr i 2 = some a → c.childOf a.pkt.src = some k → k < 16 → k ∉ c.bell.kids → Completes (.lossNotice i) s (fun s' =>
       joined a.pkt.bstat s' ∧ s'.mach.core.bell.kids = c.bell.kids ++ [k] ∧ (k, a.pkt.bstat) ∈ s'.mach.core.bell.lost
         ∧ bit (s'.mach.core.rd R.CH_BELLSTAT_LOST) k = true))) ∧
  (∀ (st : Nat) (ps qs : List Nat), ps.Perm qs → ps.foldl joinStatus st = qs.foldl joinStatus st)

/-- R298, R300: the root's ring, once every post is in, begins the next step; any other unit's begins the step its parent's ring
names; the new step's seal is cleared; a status other than OK puts the step in HOLD with that status and is job-fatal. R298,
R301: a ring copy at a tile that has posted ends its POST; the watchdog puts the step in HOLD with TIMEOUT, sets WDOG and is
job-fatal. -/
def Obligations.RingsBeginHoldOrTimeOut : Prop :=
  (∀ (s : State), s.live = true → s.mach.core.rd R.CH_BELLSTEP_STATE = 1 → s.mach.core.bell.change = none →
     let c := s.mach.core
     let rung := fun (step st : Nat) (s' : State) => MemKept s s' ∧ OutsideKept s s' ∧
       s'.mach.core.rd R.CH_BELLSTEP_STEP = step % 2 ^ 32 ∧ s'.mach.core.sealOf step = 0 ∧
       (st = stOK → s'.mach.core.rd R.CH_BELLSTEP_STATE = 1) ∧
       (st ≠ stOK → s'.mach.core.rd R.CH_BELLSTEP_STATE = 2 ∧ s'.mach.core.rd R.CH_BELLSTAT_HSTAT = st % 16 ∧ s'.mach.core.rd R.LDG_ALERT_JOBF = 1)
     (c.rd R.CH_BELLCFG_ROOT = 1 → c.allIn = true → Completes (.ring none) s
       (rung ((c.rd R.CH_BELLSTEP_STEP + 1) % 2 ^ 32) (c.rd R.CH_BELLSTAT_JSTAT))) ∧
     (∀ i a, c.bellArr i 3 = some a → c.rd R.CH_BELLCFG_ROOT = 0 → a.pkt.src = c.rd R.CH_BELLPAR_PARENT →
       Completes (.ring (some i)) s (rung a.pkt.bellStep (joinNorm a.pkt.bstat)))) ∧
  ((∀ (s : State) (t : Nat) (a : Arrival), s.live = true → t < 960 →
     s.mach.core.net.arr.find? (fun a => decide (a.unit = t) && decide (a.pkt.typ = 7)) = some a → a.pkt.bellKind = 3 →
     s.mach.core.trd t R.SEQ_BELL_PEND = 1 → Completes (.ringAtTile t) s (fun s' => MemKept s s' ∧ OutsideKept s s' ∧
       s'.mach.core.trd t R.SEQ_BELL_PEND = 0 ∧
       ∀ y ∈ s.mach.core.queues.cmds, y.unit = t → y.q = 7 → y.opcode = 0x0B → y.running = true → y.committed = true →
         y.finish a.pkt.bstat ∈ s'.mach.core.queues.cmds)) ∧
   (∀ (s : State) (t0 : Nat), s.live = true → s.mach.core.bell.armed = some t0 → s.mach.core.rd R.CH_BELLSTEP_STATE = 1 →
     s.mach.core.rd R.CH_BELLTMO_WDOG ≤ s.mach.core.now - t0 → Completes .bellWatchdog s (fun s' => MemKept s s' ∧
       s'.mach.core.rd R.CH_BELLSTEP_STATE = 2 ∧ s'.mach.core.rd R.CH_BELLSTAT_HSTAT = stTIMEOUT ∧ s'.mach.core.rd R.CH_BELLSTAT_WDOG = 1
         ∧ s'.mach.core.rd R.LDG_ALERT_JOBF = 1 ∧ s'.mach.core.bell.armed = none)))

/-- R308: the twin's seal of the step just ended is compared with this chiplet's own, at once or once it is final, and the result
kept; a mismatch is job-fatal; one for the current step is held. -/
def Obligations.TwinSealsAreCompared : Prop :=
  ∀ (s : State) (i : Nat) (a : Arrival), s.live = true → s.mach.core.arrOf i 10 unitSeam = some a →
    let c := s.mach.core
    let step := leAt a.pkt.payload 0 4
    let same := decide (leAt a.pkt.payload 16 16 = c.sealOf step)
    let compared := fun (s' : State) => MemKept s s' ∧ (step, if same then stOK else stFAILED) ∈ s'.mach.core.bell.compared
      ∧ (∀ b ∈ s'.mach.core.net.arr, b.id ≠ a.id) ∧ (same = false → s'.mach.core.rd R.LDG_ALERT_JOBF = 1)
    let due := (step + 1) % 2 ^ 32 = c.rd R.CH_BELLSTEP_STEP ∧ ∀ r ∈ c.bell.compared, r.1 ≠ step
    (a.accepted = false → c.sealxHeld a = false → due → Completes (.sealxPacket i) s compared) ∧
    (a.accepted = false → c.sealxHeld a = true → Completes (.sealxPacket i) s (fun s' => MemKept s s' ∧
      (∃ b ∈ s'.mach.core.net.arr, b.id = a.id) ∧ ∀ b ∈ s'.mach.core.net.arr, b.id = a.id → b.accepted = true)) ∧
    (a.accepted = true → c.sealxHeld a = false → due → Completes (.sealxCompare i) s compared)

/-! ## The weigh-house (chapter 14) -/

/-- R313, R314, R316: at the boundary of a window the measured power and the grants of the larder domains are set; a second look
within the same window changes nothing. R320, R377: a domain's thermal state follows the hotter of its sensors in service, with
none in service it is LIMIT; a sensor out of range, and the lower of two that disagree, is out of service. -/
def Obligations.WindowsAndHeatSetTheWeighHouse : Prop :=
  (∀ (s : State) (obs : WghObs), s.live = true → s.pwr.comp = false →
     let c := s.mach.core
     (c.now / 10000 = c.wgh.last → Completes (.wghWindow obs) s (fun s' => s' = s)) ∧
     (c.now / 10000 ≠ c.wgh.last → Completes (.wghWindow obs) s (fun s' => MemKept s s' ∧ OutsideKept s s' ∧
       s'.mach.core.wgh.last = c.now / 10000 ∧ s'.mach.core.rd R.WGH_POWER_PWR = min 65535 (obs.vin / 1000) ∧
       ∀ d, 24 ≤ d → d < 28 → s'.mach.core.rd (R.WGH_DOMST_GRANT d) = (if c.rd (R.WGH_DOMST_THST d) = 2 then c.rd R.WGH_CTL_GFLOOR
         else c.rd R.WGH_CTL_TCAP / 4) % 2 ^ (R.WGH_DOMST_GRANT d).w))) ∧
  (∀ (s : State) (d : Nat) (a b : Int), s.live = true → d < 29 →
     let c := s.mach.core
     (c.sensorsOf d = [0, 1] → -40 ≤ a → a ≤ 150 → -40 ≤ b → b ≤ 150 → Completes (.thermalState d a b) s (fun s' => MemKept s s' ∧ OutsideKept s s' ∧
       s'.mach.core.rd (R.WGH_DOMST_THST d) = c.thermState (c.rd (R.WGH_DOMST_THST d)) (max a b)
         ∧ (s'.mach.core.rd (R.WGH_DOMST_THST d) = 2 → s'.mach.core.rd R.LDG_ALERT_THERM = 1))) ∧
     (c.sensorsOf d = [] → Completes (.thermalState d a b) s (fun s' => s'.mach.core.rd (R.WGH_DOMST_THST d) = 2
       ∧ s'.mach.core.rd R.LDG_ALERT_THERM = 1)) ∧
     (a < -40 ∨ 150 < a → Completes (.sensorRemoval d a b) s (fun s' => MemKept s s' ∧ (d, 0) ∈ s'.mach.core.wgh.sensors)) ∧
     (-40 ≤ a → a ≤ 150 → -40 ≤ b → b ≤ 150 → c.sensorsOf d = [0, 1] → 5 < a - b →
       c.ledgerFull ⟨11, d, 1, 0⟩ = false → Completes (.sensorRemoval d a b) s (fun s' =>
       MemKept s s' ∧ (d, 1) ∈ s'.mach.core.wgh.sensors ∧ (⟨11, d, 1, 0⟩ : LEntry) ∈ s'.mach.core.led.entries)) ∧
     (∀ i n, c.net.arr[i]? = some n → n.pkt.typ = 9 → n.linkNotice = false → c.forwarded n = false → stackOk n.pkt.arg = true →
       Completes (.stackNotice i) s (fun s' => MemKept s s' ∧ s'.mach.core.rd (R.WGH_STACK_LEVEL (bits n.pkt.arg 4 5)) = bits n.pkt.arg 9 2
         ∧ s'.mach.core.rd (R.WGH_STACK_TEMP (bits n.pkt.arg 4 5)) = bits n.pkt.arg 11 8 ∧ bits n.pkt.arg 4 5 ∉ s'.mach.core.wgh.hot)))

/-- R322, R323, R377: a row pair's ramp down ends DARK once no accepted part is left, a ramp up ends LIT with the pair's lit memory
zeroed; a failed phase is counted, the first noted in the ledger, and one of a domain without a spare left is device-fatal. -/
def Obligations.RampsAndPhasesEnd : Prop :=
  ∀ (s : State) (d : Nat), s.live = true →
    let c := s.mach.core
    let zeroed := fun (s' : State) => ∀ t g k, t / 40 = d → g ∈ c.litSegs t → tileBase t + 2 ^ 14 * g ≤ k →
      k < tileBase t + 2 ^ 14 * (g + 1) → s'.mach.byteAt k = 0
    (d < 24 → c.rd (R.WGH_DOMST_MODE d) = 1 → c.pairQuiet d = true → Completes (.domainRampDone d) s (fun s' =>
      OutsideKept s s' ∧ s'.mach.core.rd (R.WGH_DOMST_MODE d) = 2 ∧ zeroed s')) ∧
    (d < 24 → c.rd (R.WGH_DOMST_MODE d) = 3 → Completes (.domainRampDone d) s (fun s' =>
      OutsideKept s s' ∧ s'.mach.core.rd (R.WGH_DOMST_MODE d) = 0 ∧ zeroed s')) ∧
    (24 ≤ d → d < 28 → c.rd (R.WGH_DOMST_MODE d) = 1 ∨ c.rd (R.WGH_DOMST_MODE d) = 3 → Completes (.domainRampDone d) s (fun s' =>
      s'.mach.core.rd (R.WGH_DOMST_MODE d) = if c.rd (R.WGH_DOMST_MODE d) = 1 then 2 else 0)) ∧
    (∀ k, d < 30 → c.ledgerFull ⟨10, d, k % 16 + 16, 0⟩ = false → Completes (.phaseFail d k) s (fun s' => MemKept s s' ∧ OutsideKept s s' ∧
      SMap.get 0 s'.mach.core.wgh.phases d = SMap.get 0 c.wgh.phases d + 1 ∧
      (SMap.get 0 c.wgh.phases d = 0 → (⟨10, d, k % 16 + 16, 0⟩ : LEntry) ∈ s'.mach.core.led.entries) ∧
      (SMap.get 0 c.wgh.phases d ≠ 0 → 24 ≤ d → s'.mach.core.rd R.LDG_ALERT_DEVF = 1)))

/-! ## Upkeep of memory (chapters 8 and 17) -/

/-- R174, R175, R181: a scrub visit, of tile memory or of a weight-class scratchpad, and the write-back of a correction, leave a
correctable line without errors, its bytes those the code decodes, and no other byte changed; a line found uncorrectable is
counted and keeps its bytes. -/
def Obligations.ScrubbingRewritesCorrectableLines : Prop :=
  ∀ (s : State) (t line n : Nat), s.live = true → t < 960 → line < 16384 →
    let c := s.mach.core
    let id := lineId t line
    let weight := c.weightLine t line
    let clean := fun (l : List (Nat × Nat)) (s' : State) => OutsideKept s s' ∧ s'.mach.lineErrs id = [] ∧
      s'.mach.read (tileBase t + 64 * line) 64 = withErrors (s.mach.read (tileBase t + 64 * line) 64) l ∧
      ∀ k, k < tileBase t + 64 * line ∨ tileBase t + 64 * line + 64 ≤ k → s'.mach.byteAt k = s.mach.byteAt k
    (c.regionOf t (line / 256) = some n → c.present t = true → c.trd t (R.MEM_RGN_WCLASS n) = 1 → c.trd t (R.MEM_RGN_MODE n) ≤ 1 →
      (c.trd t (R.MEM_RGN_MODE n) = 1 ∨ c.tileDark t = false) → c.bankRetired t (line / 1024) = false → s.mach.lineErrs id ≠ [] →
      (∀ l k, decodeLine weight (s.mach.lineErrs id) = .word l k → Completes (.scrub t line) s (clean l)) ∧
      (decodeLine weight (s.mach.lineErrs id) = .uncorrectable → Completes (.scrub t line) s (fun s' =>
        s'.mach.mem = s.mach.mem ∧ s'.mach.errs = s.mach.errs ∧ s'.mach.core.trd t R.MEM_ERRCNT_UNCORR
          = satAdd R.MEM_ERRCNT_UNCORR.w (c.trd t R.MEM_ERRCNT_UNCORR) 1))) ∧
    (∀ i l k, s.mach.corr[i]? = some id → decodeLine weight (s.mach.lineErrs id) = .word l k →
      Completes (.correctionWriteback i) s (fun s' => clean l s' ∧ id ∉ s'.mach.corr)) ∧
    (∀ i < 96, ∀ j < 65536, ∀ l k, c.unitThere (960 + i) = true → c.rd (R.LAR_CTL_MODE i) = 1 → c.rd (R.LAR_CTL_STATE i) = 0 →
      c.rd (R.LAR_CTL_WCLASS i) = 1 → s.mach.lineErrs (sliceLineId i j) ≠ [] → decodeLine true (s.mach.lineErrs (sliceLineId i j)) = .word l k →
      Completes (.scrub (960 + i) j) s (fun s' => s'.mach.lineErrs (sliceLineId i j) = [] ∧
        s'.mach.read (sliceBase i + 64 * j) 64 = withErrors (s.mach.read (sliceBase i + 64 * j) 64) l))

/-- R373, R378: a called row with a spare left is remapped: it is called no more and its entry stands in the ledger; a rate below
its margin writes a record of code 42h, a limit reached adds its entry, a worn strand retrains. -/
def Obligations.WearIsRecordedAndMended : Prop :=
  ∀ (s : State), s.live = true →
    let c := s.mach.core
    (∀ i u b r, c.led.called[i]? = some (u, b, r) → u < 960 → c.present u = true → c.bankRetired u b = false →
      let unit := c.ledUnit u
      c.rowCount unit b r ≠ 3 → c.nextRow unit b < 8 →
      let e : LEntry := ⟨3, unit, b + 64 * r + 2 ^ 16 * c.nextRow unit b + 2 ^ 19 * (c.rowCount unit b r + 1), 0⟩
      c.ledgerFull e = false → s.mach.rowStuck u (1024 * b + r) = false →
      Completes (.rowRemap i) s (fun s' => OutsideKept s s' ∧ (u, b, r) ∉ s'.mach.core.led.called ∧
        e ∈ s'.mach.core.led.entries)) ∧
    (∀ d f, d < 29 → c.floorOf s.grade d = some f →
      (c.rd (R.TMB_DOMRATE_RATE d) * 256 < f * (256 + c.rd R.LDG_THRESH_DMARGIN) → Completes (.wearThreshold (.rate d)) s (fun s' =>
        MemKept s s' ∧ ∃ r ∈ s'.mach.core.log.flog, r.code = 0x42 ∧ r.unit = d ∧ r.time = c.now)) ∧
      (880 ≤ c.rd (R.TMB_DOMRATE_VOLT d) → c.rd (R.TMB_DOMRATE_RATE d) < f →
        c.ledgerFull ⟨12, d, c.rd (R.TMB_DOMRATE_RATE d), 0⟩ = false → Completes (.wearThreshold (.limit d)) s (fun s' =>
        MemKept s s' ∧ (⟨12, d, c.rd (R.TMB_DOMRATE_RATE d), 0⟩ : LEntry) ∈ s'.mach.core.led.entries))) ∧
    (∀ p l, isStrand p l = true → c.hardLimit p 1 l = true →
      Completes (.wearThreshold (.strand p l)) s (fun s' => MemKept s s' ∧ s'.mach.core.sst p 1 l = 1
        ∧ s'.mach.core.rd (R.PRT_CNT_HARD p 1 l) = c.rd (R.PRT_CNT_HARD p 1 l)))

/-! ## The counting-house (chapters 15, 12, 10, 8, 14) -/

/-- R328, R329, R330: a request that passes every check is accepted: counted, its slot BUSY, and in turn; a refused one is counted
with its status in LASTREF and no request joins; one answered before has its kept response sent again. -/
def Obligations.MailboxAcceptsOnce : Prop :=
  ∀ (s : State) (i p : Nat) (a : Arrival), s.live = true → s.mach.core.net.arr[i]? = some a → a.port = some p → p < 6 → a.pkt.typ = 8 →
    a.unit ≠ unitSeam →
    let c := s.mach.core
    let r := mbRequest p a.pkt
    (c.mbCheck p a.unit a.pkt = .accepted → c.mbPlain r = none → r.slot < 16 → (∀ x ∈ c.mb.reqs, x.port = p → x.slot ≠ r.slot) → SlotsOk s →
      Completes (.mailboxRequest i) s (fun s' => MemKept s s' ∧ OutsideKept s s' ∧ r ∈ s'.mach.core.mb.reqs
        ∧ bit (s'.mach.core.rd (R.CH_MBSTAT_BUSY p)) r.slot = true
        ∧ s'.mach.core.rd (R.CH_MBSTAT_ACCEPTED p) = satAdd (R.CH_MBSTAT_ACCEPTED p).w (c.rd (R.CH_MBSTAT_ACCEPTED p)) 1)) ∧
    (∀ st, c.mbCheck p a.unit a.pkt = .refused st → Completes (.mailboxRequest i) s (fun s' => MemKept s s' ∧ OutsideKept s s' ∧
      s'.mach.core.mb = c.mb ∧ s'.mach.core.rd (R.CH_MBSTAT_LASTREF p) = st % 2 ^ (R.CH_MBSTAT_LASTREF p).w
        ∧ s'.mach.core.rd (R.CH_MBSTAT_REFUSED p) = satAdd (R.CH_MBSTAT_REFUSED p).w (c.rd (R.CH_MBSTAT_REFUSED p)) 1)) ∧
    (∀ d, c.mbCheck p a.unit a.pkt = .again d → c.rd (R.PRT_STATE_STATE p) = 2 → Completes (.mailboxRequest i) s (fun s' =>
      MemKept s s' ∧ s'.mach.core.mb = c.mb ∧ ∃ g ∈ s'.mach.core.net.fly, g.pkt.payload = d.pkt.payload ∧ g.pkt.dst = d.pkt.dst))

/-- R332, R387: MB_INFO answers the release, the certificate's bytes, the stage and the straps; MB_FAULTLOG answers the indices and
records asked for and, where it acknowledges, moves AI past them. R402: MB_ATTEST at offset 0 stores and answers a new signed
report, and at another offset a piece of the stored one where the nonce is that report's, and else FAILED. R382: MB_LDG_READ
makes a snapshot at offset 0 and answers a piece of the one in force. R381: a piece of a presented history is kept in the state
store, and no other byte changes; the last piece has the whole checked: a good one gives its entries and HIST, a bad one is
DENIED and gives none; after part 4L every piece is DENIED. -/
def Obligations.InformationAndHistoryAreExchanged : Prop :=
  ((∀ (s : State) (r : MbReq), Turn s (mbIs 0x01) r → Completes .mbInfo s (fun s' => MemKept s s' ∧ OutsideKept s s' ∧
     Responds s' r stOK 0 (s.mach.core.mbInfo s.fuses))) ∧
   (∀ (s : State) (r : MbReq), Turn s (mbIs 0x02) r →
     let c := s.mach.core
     let lo := max (r.field 0 4) (c.rd R.LDG_FLOG_WI - 1024)
     let rs := (c.log.flog.filter (fun x => decide (lo ≤ x.index))).take 14
     Completes .mbFaultlog s (fun s' => MemKept s s' ∧ OutsideKept s s' ∧ s'.mach.core.log.flog = c.log.flog ∧
       Responds s' r stOK 0 (toBytes 4 (c.rd R.LDG_FLOG_WI) ++ toBytes 4 lo ++ toBytes 1 rs.length ++ toBytes 7 0 ++ rs.flatMap FaultRec.bytes)
       ∧ (r.byte 4 = 1 → s'.mach.core.rd R.LDG_FLOG_AI = (lo + rs.length) % 2 ^ R.LDG_FLOG_AI.w)
       ∧ (r.byte 4 ≠ 1 → s'.mach.core.rd R.LDG_FLOG_AI = c.rd R.LDG_FLOG_AI)))) ∧
  (∀ (s : State) (r : MbReq),
     let c := s.mach.core
     let key := s.fuses.signer s.pwr.erased
     let nonce := padTo 32 r.body
     let rep := signedBy key (c.reportBody s.fuses nonce)
     (Turn s (mbIs 0x03) r →
       (r.field 32 4 = 0 → Completes .mbAttest s (fun s' => MemKept s s' ∧ OutsideKept s s' ∧ s'.mach.core.hm.report = rep
         ∧ Responds s' r stOK 0 (pieceOf rep 0 0))) ∧
       (r.field 32 4 ≠ 0 → c.hm.report ≠ [] → (c.hm.report.drop 16).take 32 = nonce → Completes .mbAttest s (fun s' => MemKept s s'
         ∧ OutsideKept s s' ∧ s'.mach.core.hm = c.hm ∧ Responds s' r stOK 0 (pieceOf c.hm.report 0 (r.field 32 4)))) ∧
       (r.field 32 4 ≠ 0 → c.hm.report = [] ∨ (c.hm.report.drop 16).take 32 ≠ nonce → Completes .mbAttest s (fun s' =>
         s'.mach.core.hm = c.hm ∧ Responds s' r stFAILED 0 []))) ∧
     (Turn s (mbIs 0x69) r →
       (r.field 0 4 = 0 →
         let sn : Snap := ⟨(c.rd R.LDG_STATUS_LGEN + 1) % 2 ^ 32, c.now, c.led.entries⟩
         Completes .mbLdgRead s (fun s' => MemKept s s' ∧ OutsideKept s s' ∧ s'.mach.core.led.snap = some sn
           ∧ s'.mach.core.rd R.LDG_STATUS_LGEN = sn.lgen ∧ Responds s' r stOK 0 (pieceOf (s.fuses.snapRecord key sn) sn.lgen 0))) ∧
       (∀ sn, r.field 0 4 ≠ 0 → c.led.snap = some sn → Completes .mbLdgRead s (fun s' => MemKept s s' ∧ OutsideKept s s'
         ∧ s'.mach.core.led = c.led ∧ Responds s' r stOK 0 (pieceOf (s.fuses.snapRecord key sn) sn.lgen (r.field 0 4)))))) ∧
  (∀ (s : State) (r : MbReq), Turn s (mbIs 0x68) r →
     let c := s.mach.core
     let at' := historyBase + r.field 0 4
     let bs := r.data (r.field 4 2)
     let m := s.mach.write at' bs
     let got := c.led.got ++ [(r.field 0 4, r.field 4 2)]
     let all := m.read historyBase (presentedEnd got)
     let good := decide (coveredTo got got.length 0 = presentedEnd got) && s.fuses.historyGood all
     let late := c.rd R.STG_STATUS_PASSL = 1 ∨ c.rd R.LDG_FP_SUMMARY_VALID = 1
     let stored := fun (s' : State) => OutsideKept s s' ∧ s'.mach.read at' bs.length = bs
       ∧ ∀ k, k < at' ∨ at' + bs.length ≤ k → s'.mach.byteAt k = s.mach.byteAt k
     (late → Completes .mbLdgHistory s (fun s' => MemKept s s' ∧ s'.mach.core.led = c.led ∧ Responds s' r stDENIED 2 [])) ∧
     (¬ late → r.byte 6 = 0 → Completes .mbLdgHistory s (fun s' => stored s' ∧ s'.mach.core.led.got = got
       ∧ s'.mach.core.led.hist = c.led.hist ∧ Responds s' r stOK 0 [])) ∧
     (¬ late → r.byte 6 ≠ 0 → good = true → Completes .mbLdgHistory s (fun s' => stored s' ∧ s'.mach.core.led.got = []
       ∧ s'.mach.core.led.hist = historyEntries all ∧ s'.mach.core.rd R.LDG_STATUS_HIST = 1
       ∧ s'.mach.core.rd R.LDG_STATUS_LGEN = leAt all 4 4 ∧ Responds s' r stOK 0 [])) ∧
     (¬ late → r.byte 6 ≠ 0 → good = false → Completes .mbLdgHistory s (fun s' => stored s' ∧ s'.mach.core.led.hist = []
       ∧ s'.mach.core.rd R.LDG_STATUS_HIST = 0 ∧ Responds s' r stDENIED 3 [])))

/-- R336, R337: MB_FW_BEGIN stages a header for the bank not running, MB_FW_WRITE writes its piece of the body there and no other
byte, MB_FW_COMMIT of a verified image starts it from the boot ROM or marks it for the next reset, and of another fails. What a
good signature is stays open (log entry 32); the answers out of turn are the model's reading (log entry 36). -/
def Obligations.FirmwareIsStagedWrittenAndCommitted : Prop :=
  (∀ (s : State) (r : MbReq), Turn s (mbIs 0x18) r →
    let c := s.mach.core
    let h := padTo 160 r.body
    (c.fw.staged = none → Completes .mbFwBegin s (fun s' => MemKept s s' ∧ OutsideKept s s' ∧
      s'.mach.core.fw.staged = some (c.nextBank, h) ∧ s'.mach.core.fw.written = [] ∧ Responds s' r stOK 0 (toBytes 1 c.nextBank))) ∧
    (c.fw.staged.isSome = true → Completes .mbFwBegin s (fun s' => s'.mach.core.fw.staged = none ∧ Responds s' r stDENIED 2 []))) ∧
  (∀ (s : State) (r : MbReq) (b : Nat) (h : List Byte), Turn s (mbIs 0x19) r → s.mach.core.fw.staged = some (b, h) →
    r.field 0 4 + r.field 4 2 ≤ leAt h 4 4 →
    let at' := bankBase b + r.field 0 4
    let bs := r.data (r.field 4 2)
    Completes .mbFwWrite s (fun s' => OutsideKept s s' ∧ Responds s' r stOK 0 [] ∧ s'.mach.read at' bs.length = bs
      ∧ (∀ k, k < at' ∨ at' + bs.length ≤ k → s'.mach.byteAt k = s.mach.byteAt k)
      ∧ s'.mach.core.fw.written = s.mach.core.fw.written ++ [(r.field 0 4, r.field 4 2)])) ∧
  (∀ (s : State) (r : MbReq) (b : Nat) (h : List Byte), Turn s (mbIs 0x1A) r → s.mach.core.fw.staged = some (b, h) →
    let c := s.mach.core
    let whole := decide (coveredTo c.fw.written c.fw.written.length 0 = leAt h 4 4)
    let good := s.fuses.imageGood h (s.mach.read (bankBase b) (leAt h 4 4)) whole
    (good = false → Completes .mbFwCommit s (fun s' => MemKept s s' ∧ Responds s' r stFAILED 0 [] ∧ s'.mach.core.fw = c.fw)) ∧
    (good = true → leAt h 12 2 < s.fuses.fwsvn → Completes .mbFwCommit s (fun s' => Responds s' r stDENIED 3 [] ∧ s'.mach.core.fw = c.fw)) ∧
    (good = true → s.fuses.fwsvn ≤ leAt h 12 2 → c.rd R.CH_FWVER_ROM = 0 → Completes .mbFwCommit s (fun s' => MemKept s s' ∧
      s'.mach.core.rd R.CH_FWVER_PEND = 1 ∧ s'.mach.core.rd R.CH_FWVER_NEXT = b % 2 ^ R.CH_FWVER_NEXT.w ∧ s'.mach.core.fw.staged = none
        ∧ s'.mach.core.rd R.CH_FWVER_RELEASE = c.rd R.CH_FWVER_RELEASE)) ∧
    (good = true → s.fuses.fwsvn ≤ leAt h 12 2 → c.rd R.CH_FWVER_ROM = 1 → Completes .mbFwCommit s (fun s' => MemKept s s' ∧
      s'.mach.core.rd R.CH_FWVER_ROM = 0 ∧ s'.mach.core.rd R.CH_FWVER_RELEASE = leAt h 8 4 % 2 ^ R.CH_FWVER_RELEASE.w
        ∧ s'.mach.core.fw.staged = none)))

/-- R272, R293, R299, R305: MB_SELF sets the coordinates within the job scale; MB_BELLCFG the bell's configuration; MB_JOB_START the
participants, the seed, the step and RUN; MB_ROLE the role, at once or for the named ring. -/
def Obligations.JobsAreConfiguredAndStarted : Prop :=
  ∀ (s : State) (r : MbReq),
    let c := s.mach.core
    (Turn s (mbIs 0x30) r →
      let v := r.field 0 8
      (bits v 19 5 + 1) * (bits v 24 5 + 1) * (bits v 29 4 + 1) * perAssembly (c.rd R.STG_STRAP_ASM) ≤ scaleOf (c.rd R.CH_HMSTAT_SCALE) →
      Completes .mbSelf s (fun s' => MemKept s s' ∧ Responds s' r stOK 0 [] ∧
        (∀ f ∈ [R.PRT_SELF_PLANE, R.PRT_SELF_X, R.PRT_SELF_Y, R.PRT_SELF_Z, R.PRT_SELF_XNM1, R.PRT_SELF_YNM1, R.PRT_SELF_ZNM1,
          R.PRT_SELF_VALID], s'.mach.core.rd f = bits v f.lo f.w) ∧ s'.mach.core.rd R.PRT_SELF_SLOT = c.rd R.PRT_SELF_SLOT)) ∧
    (Turn s (mbIs 0x31) r →
      let v := r.field 0 8
      bits v 3 5 ≤ 16 → c.rd R.CH_BELLSTEP_STATE ≠ 1 → c.rd R.CH_HMSTAT_TWIN ≠ 0 → bits v 0 2 = c.rd R.CH_BELLCFG_ROLE →
      Completes .mbBellcfg s (fun s' => MemKept s s' ∧ Responds s' r stOK 0 [] ∧
        s'.mach.core.rd R.CH_BELLPAR_PARENT = r.field 8 8 ∧ (∀ f ∈ [R.CH_BELLCFG_ROOT, R.CH_BELLCFG_NCHILD, R.CH_BELLCFG_NTILES],
          s'.mach.core.rd f = bits v f.lo f.w) ∧ ∀ k < bits v 3 5, s'.mach.core.rd (R.CH_BELLCHILD_CHILD k) = r.field (16 + 8 * k) 8)) ∧
    (Turn s (mbIs 0x32) r → c.rd R.CH_BELLSTEP_STATE ≠ 1 → c.serving = true →
      let part := fun t => bit (r.field 12 120) t && c.present t && !c.tileDark t
      Completes .mbJobStart s (fun s' => MemKept s s' ∧ s'.mach.core.rd R.CH_BELLSTEP_STATE = 1 ∧
        s'.mach.core.rd R.CH_JOBSEED_SEED = r.field 0 8 ∧ s'.mach.core.rd R.CH_BELLSTEP_STEP = (r.field 8 4 + 2 ^ 32 - 1) % 2 ^ 32 ∧
        (∀ t < 960, s'.mach.core.trd t R.SEQ_BELL_PART = b2n (part t)) ∧
        s'.mach.core.rd R.CH_BELLCFG_NTILES = ((List.range 960).filter part).length)) ∧
    (Turn s (mbIs 0x33) r → c.rd R.CH_BELLSTEP_STATE ≠ 1 → r.field 4 4 = 0 → Completes .mbRole s (fun s' => MemKept s s' ∧
      s'.mach.core.rd R.CH_BELLCFG_ROLE = r.byte 0 % 4 ∧ Responds s' r stOK 0 [])) ∧
    (Turn s (mbIs 0x33) r → c.rd R.CH_BELLSTEP_STATE = 1 → r.field 4 4 ≠ 0 → Completes .mbRole s (fun s' => MemKept s s' ∧
      s'.mach.core.bell.change = some (r.field 4 4, r.byte 0) ∧ s'.mach.core.rd R.CH_BELLCFG_ROLE = c.rd R.CH_BELLCFG_ROLE
        ∧ Responds s' r stOK 0 []))

/-- R279, R280: MB_WIN_OPEN opens a closed window over its run with a new generation; MB_WIN_CLOSE of a window with no part in
flight closes it, and one with parts in flight leaves it CLOSING and waits. R240: MB_RT_BUILD makes the inactive INVALID epoch
LOADING and, its tables written, VALID, MB_RT_FLIP makes it ACTIVE and the old one DRAINING, MB_RT_FREE frees a DRAINING epoch
with no packet left and else waits; out of turn each answers DENIED and changes no state of an epoch. -/
def Obligations.WindowsAndRouteEpochsTurn : Prop :=
  (∀ (s : State) (r : MbReq),
     let c := s.mach.core
     let w := r.field 0 2
     let v := r.field 2 16
     w < 1024 →
     (Turn s (mbIs 0x38) r → c.winRefused w v = none → Completes .mbWinOpen s (fun s' => MemKept s s' ∧
       s'.mach.core.rd (R.LAR_WIN_OPEN w) = 1 ∧ s'.mach.core.rd (R.LAR_WIN_GEN w) = (c.rd (R.LAR_WIN_GEN w) + 1) % 2 ^ (R.LAR_WIN_GEN w).w
         ∧ s'.mach.core.rd (R.LAR_WIN_LENGTH w) = bits v 70 23 ∧ s'.mach.core.rd (R.LAR_WIN_KIND w) = bits v 4 1
         ∧ Responds s' r stOK 0 (toBytes 2 ((c.rd (R.LAR_WIN_GEN w) + 1) % 2 ^ (R.LAR_WIN_GEN w).w)))) ∧
     (∀ d, Turn s (mbIs 0x38) r → c.winRefused w v = some d → Completes .mbWinOpen s (fun s' => MemKept s s' ∧
       s'.mach.core.rd (R.LAR_WIN_OPEN w) = c.rd (R.LAR_WIN_OPEN w) ∧ Responds s' r stDENIED d [])) ∧
     (Turn s (mbIs 0x39) r → r.note = [] → c.rd (R.LAR_WIN_OPEN w) = 1 → c.rd (R.LAR_WIN_CLOSING w) = 0 →
       (c.rd (R.LAR_WIN_INBOUND w) = 0 → Completes .mbWinClose s (fun s' => MemKept s s' ∧ s'.mach.core.rd (R.LAR_WIN_OPEN w) = 0
         ∧ ∃ g, Responds s' r stOK 0 (toBytes 2 g))) ∧
       (c.rd (R.LAR_WIN_INBOUND w) ≠ 0 → Completes .mbWinClose s (fun s' => MemKept s s' ∧ s'.mach.core.rd (R.LAR_WIN_CLOSING w) = 1
         ∧ Waits s' r [1])))) ∧
  (∀ (s : State) (r : MbReq),
     let c := s.mach.core
     let act := c.rd R.NET_RTCTL_ACTIVE
     let e := 1 - act
     let same := fun (s' : State) => MemKept s s' ∧ s'.mach.core.epochState 0 = c.epochState 0 ∧ s'.mach.core.epochState 1 = c.epochState 1
       ∧ s'.mach.core.rd R.NET_RTCTL_ACTIVE = act
     (Turn s (mbIs 0x40) r → (c.epochState e = 0 → Completes .mbRtBuild s (fun s' => MemKept s s' ∧ s'.mach.core.epochState e = 1
         ∧ s'.mach.core.rd R.NET_RTCTL_ACTIVE = act ∧ Waits s' r [1])) ∧
       (c.epochState e ≠ 0 → Completes .mbRtBuild s (fun s' => same s' ∧ Responds s' r stDENIED 2 []))) ∧
     (Resumes s (mbIs 0x40) r → r.note = [1] → Completes .mbRtBuild s (fun s' => MemKept s s' ∧ s'.mach.core.epochState e = 2
         ∧ s'.mach.core.rd R.NET_RTCTL_ACTIVE = act ∧ Responds s' r stOK 0 (toBytes 1 e))) ∧
     (Turn s (mbIs 0x41) r → (c.epochState e = 2 → Completes .mbRtFlip s (fun s' => MemKept s s' ∧ s'.mach.core.rd R.NET_RTCTL_ACTIVE = e
         ∧ s'.mach.core.epochState act = 3 ∧ s'.mach.core.net.draining = some c.now ∧ Responds s' r stOK 0 (toBytes 1 e))) ∧
       (c.epochState e ≠ 2 → Completes .mbRtFlip s (fun s' => same s' ∧ Responds s' r stDENIED 2 []))) ∧
     (Turn s (mbIs 0x42) r → r.note = [] →
       (c.epochState e = 3 → c.rd (R.NET_EPCNT_COUNT e) = 0 → Completes .mbRtFree s (fun s' => MemKept s s' ∧ s'.mach.core.epochState e = 0
         ∧ Responds s' r stOK 0 (toBytes 1 e))) ∧
       (c.epochState e = 3 → c.rd (R.NET_EPCNT_COUNT e) ≠ 0 → Completes .mbRtFree s (fun s' => same s' ∧ Waits s' r [1])) ∧
       (c.epochState e ≠ 3 → Completes .mbRtFree s (fun s' => same s' ∧ Responds s' r stDENIED 2 []))))

/-- R176, R178: MB_LAR_SET of a slice's own mode writes its settings, and of another begins its switch; MB_LAR_ILV sets BYPASS once
no line is held and no write-back is under way. R176, R178: a slice whose write-backs are done ends its switch: it is ACTIVE,
holds no line, and reads as zero; where it becomes a cache the interleave is written anew and every slice's lines leave. -/
def Obligations.LarderModesAreSetAndSwitched : Prop :=
  (∀ (s : State) (r : MbReq),
     let c := s.mach.core
     let k := r.byte 0
     let v := r.field 8 8
     (Turn s (mbIs 0x48) r → r.note = [] → c.reduced = false → k < 96 → c.unitThere (960 + k) = true →
       ¬ (c.rd R.CH_CRCTL_SLICE = k ∧ c.rd R.STG_STATUS_PASSU = 1) →
       (bits v 0 1 = c.rd (R.LAR_CTL_MODE k) → Completes .mbLarSet s (fun s' => MemKept s s' ∧ Responds s' r stOK 0 []
         ∧ s'.mach.core.rd (R.LAR_CTL_MWIN k) = bits v 2 8 ∧ s'.mach.core.rd (R.LAR_CTL_FARNC k) = bits v 10 1
         ∧ s'.mach.core.rd (R.LAR_CTL_MODE k) = c.rd (R.LAR_CTL_MODE k))) ∧
       (bits v 0 1 ≠ c.rd (R.LAR_CTL_MODE k) → Completes .mbLarSet s (fun s' => s'.mach.core.rd (R.LAR_CTL_MODE k) = bits v 0 1
         ∧ s'.mach.core.rd (R.LAR_CTL_STATE k) = 1 ∧ s'.mach.core.lar.lines = [] ∧ Waits s' r [1]))) ∧
     (Resumes s (mbIs 0x48) r → r.note = [1] → c.rd (R.LAR_CTL_STATE k) ≠ 1 → Completes .mbLarSet s (fun s' => MemKept s s'
       ∧ Responds s' r stOK 0 [])) ∧
     (Turn s (mbIs 0x49) r → c.reduced = false → c.lar.lines = [] → c.evictsDone = true → Completes .mbLarIlv s (fun s' => MemKept s s' ∧
       s'.mach.core.rd R.LAR_ILVCTL_BYPASS = k % 2 ∧ Responds s' r stOK 0 []))) ∧
  (∀ (s : State) (l : Nat), s.live = true → l < 96 → s.mach.core.rd (R.LAR_CTL_STATE l) = 1 →
     (∀ f ∈ s.mach.core.lar.fetches, f.slice = l ∨ f.evict = true → f.write = true → f.done = true) →
     Completes (.sliceSwitchDone l) s (fun s' => OutsideKept s s' ∧ s'.mach.core.rd (R.LAR_CTL_STATE l) = 0 ∧
       (∀ x ∈ s'.mach.core.lar.lines, x.slice ≠ l) ∧
       (s.mach.core.rd (R.LAR_CTL_MODE l) = 0 → s'.mach.core.lar.lines = []) ∧
       (s.mach.core.rd (R.LAR_CTL_MODE l) ≠ 0 → ∀ x ∈ s.mach.core.lar.lines, x.slice ≠ l → x ∈ s'.mach.core.lar.lines) ∧
       ∀ k, s'.mach.byteAt k = if sliceBase l ≤ k ∧ k < sliceBase (l + 1) then 0 else s.mach.byteAt k))

/-- R316, R335: MB_CAP sets CAPW within 300 and 750 W with k back at 1, and refuses others; MB_SETREG writes the masked bits of a
register it may write and no other register, and refuses a mask or value its chapter forbids. -/
def Obligations.CapAndSetregSetTheirRegisters : Prop :=
  ∀ (s : State) (r : MbReq),
    let c := s.mach.core
    let w := r.field 0 2
    let off := r.field 0 4
    let mask := r.field 16 8
    let old := (c.cword off).toNat
    let new := masked old (r.field 8 8) (mask &&& setregKeep off)
    let bad := setregMask off = 0 ∨ mask &&& (2 ^ 64 - 1 - setregMask off) ≠ 0 ∨ c.setregBad off old new = true
    (Turn s (mbIs 0x50) r → (300 ≤ w → w ≤ 750 → Completes .mbCap s (fun s' => MemKept s s' ∧ Responds s' r stOK 0 []
        ∧ s'.mach.core.rd R.WGH_CTL_CAPW = w ∧ s'.mach.core.wgh.kNum = 1 ∧ s'.mach.core.wgh.kDen = 1 ∧ s'.mach.core.rd R.WGH_POWER_K = 256)) ∧
      (w < 300 ∨ 750 < w → Completes .mbCap s (fun s' => s'.mach.core.rd R.WGH_CTL_CAPW = c.rd R.WGH_CTL_CAPW ∧ Responds s' r stDENIED 4 []))) ∧
    (Turn s (mbIs 0x51) r → (¬ bad → Completes .mbSetreg s (fun s' => MemKept s s' ∧ Responds s' r stOK 0 []
        ∧ s'.mach.core.cword off = BitVec.ofNat 64 new)) ∧
      (bad → Completes .mbSetreg s (fun s' => Responds s' r stDENIED 4 [] ∧ (off < 0x60000 → s'.mach.core.cword off = c.cword off))))

/-- R322, R323: MB_DARK orders a lit row pair that may darken DARKENING and waits, and one already dark answers OK; MB_DARK with bit
0 orders a dark pair LIGHTING; MB_PARK empties the larder, has tables made without the half, then orders its larder domains
dark; unparking lights them and spreads the interleave again; each answers OK at its end. -/
def Obligations.PairsAndHalvesAreOrdered : Prop :=
  ∀ (s : State) (r : MbReq),
    let c := s.mach.core
    let d := r.byte 0
    let dark := fun r => mbIs 0x52 r && !bit (r.byte 1) 0
    let light := fun r => mbIs 0x52 r && bit (r.byte 1) 0
    (Turn s dark r → r.note = [] → d < 24 →
      (c.rd (R.WGH_DOMST_MODE d) = 2 → c.darkRefused d = false → Completes .mbDark s (fun s' => MemKept s s' ∧ Responds s' r stOK 0 [])) ∧
      (c.rd (R.WGH_DOMST_MODE d) = 0 → c.darkRefused d = true → Completes .mbDark s (fun s' => MemKept s s' ∧ Responds s' r stDENIED 2 []
        ∧ s'.mach.core.rd (R.WGH_DOMST_MODE d) = 0)) ∧
      (c.rd (R.WGH_DOMST_MODE d) = 0 → c.darkRefused d = false → Completes .mbDark s (fun s' => MemKept s s' ∧ Waits s' r [1]
        ∧ s'.mach.core.rd (R.WGH_DOMST_MODE d) = 1))) ∧
    (Resumes s dark r → r.note = [1] → d < 24 → c.rd (R.WGH_DOMST_MODE d) = 2 → Completes .mbDark s (fun s' => MemKept s s'
      ∧ Responds s' r stOK 0 [])) ∧
    (Resumes s light r → r.note = [1] → d < 24 → c.rd (R.WGH_DOMST_MODE d) = 0 → Completes .mbDarkLight s (fun s' => MemKept s s'
      ∧ Responds s' r stOK 0 [])) ∧
    (Turn s light r → r.note = [] → d < 24 → c.rd (R.WGH_DOMST_MODE d) = 2 → c.disabled (2 * d) = false →
      (c.reduced && darkReduced d) = false → Completes .mbDarkLight s (fun s' => MemKept s s' ∧ Waits s' r [1]
        ∧ s'.mach.core.rd (R.WGH_DOMST_MODE d) = 3)) ∧
    (Turn s (fun r => mbIs 0x53 r && !bit (r.byte 1) 0) r → r.note = [] → d < 2 → c.halfParked (decide (d = 1)) = false →
      (c.mayPark d = true → Completes .mbPark s (fun s' => s'.mach.core.lar.lines = [] ∧ Waits s' r [1])) ∧
      (c.mayPark d = false → Completes .mbPark s (fun s' => MemKept s s' ∧ Responds s' r stDENIED 2 []))) ∧
    (Resumes s (fun r => mbIs 0x53 r && !bit (r.byte 1) 0) r → d < 2 →
      (r.note = [1] → c.evictsDone = true → Completes .mbPark s (fun s' => MemKept s s' ∧ Waits s' r [2])) ∧
      (r.note = [2] → c.net.own = false → c.net.want = none → c.epochState (1 - c.rd R.NET_RTCTL_ACTIVE) = 0 → Completes .mbPark s (fun s' =>
        MemKept s s' ∧ Waits s' r [3] ∧ s'.mach.core.rd (R.WGH_DOMST_MODE (24 + 2 * d)) = 1
          ∧ s'.mach.core.rd (R.WGH_DOMST_MODE (24 + 2 * d + 1)) = 1)) ∧
      (r.note = [3] → c.halfParked (decide (d = 1)) = true → Completes .mbPark s (fun s' => MemKept s s' ∧ Responds s' r stOK 0 []))) ∧
    (Resumes s (fun r => mbIs 0x53 r && bit (r.byte 1) 0) r → r.note = [2] → d < 2 → c.net.own = false → c.net.want = none →
      c.epochState (1 - c.rd R.NET_RTCTL_ACTIVE) = 0 → Completes .mbParkUnpark s (fun s' => s'.mach.mem = s.mach.mem
        ∧ s'.mach.core.lar.lines = [] ∧ Responds s' r stOK 0 [])) ∧
    (Turn s (fun r => mbIs 0x53 r && bit (r.byte 1) 0) r → r.note = [] → d < 2 → c.halfParked (decide (d = 1)) = true →
      Completes .mbParkUnpark s (fun s' => MemKept s s' ∧ Waits s' r [1] ∧ s'.mach.core.rd (R.WGH_DOMST_MODE (24 + 2 * d)) = 3
        ∧ s'.mach.core.rd (R.WGH_DOMST_MODE (24 + 2 * d + 1)) = 3))

/-! ## Identity, hallmarks and the ledger record (chapters 17 and 18) -/

/-- R396, R397, R400: before stage 7 PRESENT fills its feature's slot and CLEAR empties all four, after it both are DENIED; ADVANCE
of a good notice raises the three counters and answers them, and of another is DENIED and leaves the fuses; a request out of
form is answered FORMAT with the offset of the field. What a good signature is stays open (log entry 32). -/
def Obligations.HallmarksArePresentedClearedAndAdvanced : Prop :=
  ∀ (s : State) (r : MbReq),
    let c := s.mach.core
    let n := hmFeature r.blob - 1
    let wrongForm := fun (op : Nat) (row : Instr) => ∀ i, Turn s (mbHallmark op) r → r.hallmarkForm = some i →
      Completes row s (fun s' => MemKept s s' ∧ OutsideKept s s' ∧ s'.mach.core.hm = c.hm ∧ Responds s' r stFORMAT i [])
    (Turn s (mbHallmark 0) r → r.hallmarkForm = none →
      (c.rd R.CH_HMSTAT_APPLIED = 0 → Completes .mbHallmarkPresent s (fun s' => MemKept s s' ∧ OutsideKept s s' ∧
        SMap.get [] s'.mach.core.hm.slots n = r.blob ∧ s'.mach.core.rd (R.CH_HMSLOT_RESULT n) = 6
          ∧ s'.mach.core.rd (R.CH_HMSLOT_TIER n) = hmTier r.blob ∧ s'.mach.core.rd (R.CH_HMSLOT_SERIAL n) = hmSerial r.blob
          ∧ s'.mach.core.rd R.CH_HMSTAT_PRESENTED = s'.mach.core.hm.slots.length % 16 ∧ Responds s' r stOK 0 (toBytes 1 n))) ∧
      (c.rd R.CH_HMSTAT_APPLIED = 1 → Completes .mbHallmarkPresent s (fun s' => s'.mach.core.hm = c.hm ∧ Responds s' r stDENIED 2 []))) ∧
    wrongForm 0 .mbHallmarkPresent ∧ wrongForm 1 .mbHallmarkClear ∧ wrongForm 2 .mbHallmarkAdvance ∧
    (Turn s (mbHallmark 1) r → r.hallmarkForm = none →
      (c.rd R.CH_HMSTAT_APPLIED = 0 → Completes .mbHallmarkClear s (fun s' => MemKept s s' ∧ OutsideKept s s' ∧
        s'.mach.core.hm.slots = [] ∧ s'.mach.core.rd R.CH_HMSTAT_PRESENTED = 0
          ∧ (∀ k < 4, s'.mach.core.cword (0x60310 + 8 * k) = 0) ∧ Responds s' r stOK 0 [])) ∧
      (c.rd R.CH_HMSTAT_APPLIED = 1 → Completes .mbHallmarkClear s (fun s' => s'.mach.core.hm = c.hm ∧ Responds s' r stDENIED 2 []))) ∧
    (Turn s (mbHallmark 2) r → r.hallmarkForm = none →
      (s.fuses.noticeGood r.blob = true → Completes .mbHallmarkAdvance s (fun s' => MemKept s s' ∧ s'.pwr = s.pwr ∧ s'.tap = s.tap ∧
        s'.fuses.hmepoch = max s.fuses.hmepoch (hmEpoch r.blob) ∧ s'.fuses.fwsvn = max s.fuses.fwsvn (hmFwsvn r.blob)
          ∧ s'.fuses.tsvn = max s.fuses.tsvn (hmTsvn r.blob) ∧ Responds s' r stOK 0 (toBytes 4 s'.fuses.word))) ∧
      (s.fuses.noticeGood r.blob = false → Completes .mbHallmarkAdvance s (fun s' => MemKept s s' ∧ OutsideKept s s'
        ∧ Responds s' r stDENIED 3 [])))

/-! ## Repair at the host's word (chapter 17) -/

/-- R374, R375, R376, R383, Table 17.5: MB_LDG_REPAIR sets the thresholds and the rescue area; takes a present tile, a strand, a
present slice and a quiet bank out of service; a bank that is not quiet is waited for, and answered once it is; what is not
there is DENIED. R375, R383: an in-service build brings OOS into BAD in every row and clears OOS, with one new GEN, where the
bell and every queue are IDLE and no tile that moves covers a retired bank, has errors standing or has an open window; it waits
for the windows that still count parts, and goes on when they are CLOSED; otherwise it is DENIED. -/
def Obligations.RepairsAndRebuildsAreCarriedOut : Prop :=
  (∀ (s : State) (r : MbReq),
     let c := s.mach.core
     let t := 20 * r.byte 1 + r.byte 2
     let b := r.byte 3
     let refused := fun (d : Nat) (s' : State) => MemKept s s' ∧ s'.mach.core.led = c.led ∧ Responds s' r stDENIED d []
     let a := r.field 24 8
     let old := c.physSlice (r.byte 1)
     let spare := if c.ledgerFull ⟨5, sliceUnit old, 0, 0⟩ then none else chooseSpare (r.byte 1) c.freeSpares
     let retired := fun (s' : State) => OutsideKept s s' ∧ s'.mach.mem = s.mach.mem ∧ s'.mach.core.bankRetired t b = true
       ∧ ∃ body, Responds s' r stOK 0 body
     (Turn s (mbRepair 0) r → (c.rescueOk a = true → Completes .config s (fun s' => MemKept s s' ∧ OutsideKept s s' ∧
         s'.mach.core.cword R.LDG_THRESH_ROWCORR.off = BitVec.ofNat 64 (r.field 8 8)
           ∧ s'.mach.core.rd R.LDG_NOTIFY_ADDR = r.field 16 8 % 2 ^ R.LDG_NOTIFY_ADDR.w
           ∧ s'.mach.core.rd R.LDG_RESCUE_ADDR = a % 2 ^ R.LDG_RESCUE_ADDR.w ∧ s'.mach.core.rd R.LDG_STATUS_RUSED = 0
           ∧ ∃ body, Responds s' r stOK 0 body)) ∧
       (c.rescueOk a = false → Completes .config s (refused 2))) ∧
     (Turn s (mbRepair 2) r →
       (48 ≤ r.byte 1 ∨ 20 ≤ r.byte 2 → Completes .retireTile s (refused 4)) ∧
       (r.byte 1 < 48 → r.byte 2 < 20 → c.present t = true → Completes .retireTile s (fun s' => MemKept s s' ∧ OutsideKept s s'
         ∧ s'.mach.core.present t = false ∧ s'.mach.core.rd R.LDG_FP_SUMMARY_GEN = (c.rd R.LDG_FP_SUMMARY_GEN + 1) % 2 ^ 16
         ∧ ∃ body, Responds s' r stOK 0 body)) ∧
       (r.byte 1 < 48 → r.byte 2 < 20 → c.present t = false → Completes .retireTile s (refused 2))) ∧
     (Turn s (mbRepair 3) r → r.note = [] →
       (48 ≤ r.byte 1 ∨ 20 ≤ r.byte 2 ∨ 16 ≤ b → Completes .retireBank s (refused 4)) ∧
       (r.byte 1 < 48 → r.byte 2 < 20 → b < 16 →
         (c.present t = false ∨ c.bankRetired t b = true → Completes .retireBank s (refused 2)) ∧
         (c.present t = true → c.bankRetired t b = false → c.bankQuiet t b = true → Completes .retireBank s retired) ∧
         (c.present t = true → c.bankRetired t b = false → c.bankQuiet t b = false → c.trd t R.MEM_TIMERS_DARKTMO ≠ 0 →
           (∀ x ∈ c.led.retiring, x.tile = t → x.bank = b → c.now - x.since < c.trd t R.MEM_TIMERS_DARKTMO) →
           Completes .retireBank s (fun s' => OutsideKept s s' ∧ s'.mach.mem = s.mach.mem ∧ s'.mach.core.bankRetired t b = false
             ∧ (∃ x ∈ s'.mach.core.led.retiring, x.tile = t ∧ x.bank = b) ∧ ∃ n, Waits s' r [n])))) ∧
     (Resumes s (mbRepair 3) r → r.note ≠ [] → r.byte 1 < 48 → r.byte 2 < 20 → b < 16 →
       (c.bankRetired t b = true ∨ c.bankQuiet t b = true → Completes .retireBank s retired)) ∧
     (Turn s (mbRepair 4) r →
       (isStrand (r.byte 1) b = false ∨ 2 ≤ r.byte 2 → Completes .retireStrand s (refused 4)) ∧
       (isStrand (r.byte 1) b = true → r.byte 2 < 2 →
         (¬ (r.byte 1 = c.rd R.STG_STRAP_WARD ∧ c.usables (r.byte 1) (r.byte 2) = [b]) → Completes .retireStrand s (fun s' => MemKept s s'
           ∧ OutsideKept s s' ∧ s'.mach.core.sst (r.byte 1) (r.byte 2) b = 4 ∧ ∃ body, Responds s' r stOK 0 body)) ∧
         (r.byte 1 = c.rd R.STG_STRAP_WARD → c.usables (r.byte 1) (r.byte 2) = [b] → Completes .retireStrand s (refused 2)))) ∧
     (Turn s (mbRepair 5) r →
       (96 ≤ r.byte 1 → Completes .retireSlice s (refused 4)) ∧
       (r.byte 1 < 96 → c.slicePresent (r.byte 1) = true → Completes .retireSlice s (fun s' => OutsideKept s s'
         ∧ s'.mach.core.slicePresent (r.byte 1) = spare.isSome ∧ (∀ p, spare = some p → s'.mach.core.physSlice (r.byte 1) = p)
         ∧ s'.mach.core.lar.lines = [] ∧ ∃ body, Responds s' r stOK 0 body)) ∧
       (r.byte 1 < 96 → c.slicePresent (r.byte 1) = false → Completes .retireSlice s (refused 2)))) ∧
  (∀ (s : State) (r : MbReq),
     let c := s.mach.core
     let sound := ∀ t ∈ c.moved, c.present t = true → s.mach.errorLines t = []
     let shut := ∀ w < 1024, c.rd (R.LAR_WIN_OPEN w) = 1 → c.winUnit w ∉ c.moved
     let built := fun (s' : State) => OutsideKept s s' ∧ (∀ i < 48, s'.mach.core.bad i = c.builtBad i ∧ s'.mach.core.oos i = 0)
       ∧ s'.mach.core.rd R.LDG_FP_SUMMARY_GEN = (c.rd R.LDG_FP_SUMMARY_GEN + 1) % 2 ^ 16
       ∧ s'.mach.core.rd R.NET_STATUS_RETIRED = 0 ∧ ∃ body, Responds s' r stOK 0 body
     (Turn s (mbRepair 1) r → r.note = [] →
       let may := c.rd R.CH_BELLSTEP_STATE = 0 ∧ c.allIdle = true ∧ c.moved.any c.coversRetired = false
       (may → sound → shut → Completes .rebuild s built) ∧
       (may → (∃ w < 1024, c.rd (R.LAR_WIN_OPEN w) = 1 ∧ c.winUnit w ∈ c.moved ∧ c.rd (R.LAR_WIN_INBOUND w) ≠ 0) →
         Completes .rebuild s (fun s' => MemKept s s' ∧ OutsideKept s s'
           ∧ (∀ i < 48, s'.mach.core.bad i = c.bad i ∧ s'.mach.core.oos i = c.oos i) ∧ Waits s' r [1])) ∧
       (¬ may → Completes .rebuild s (fun s' => MemKept s s' ∧ s'.mach.core.led = c.led
         ∧ (∀ i < 48, s'.mach.core.bad i = c.bad i ∧ s'.mach.core.oos i = c.oos i) ∧ Responds s' r stDENIED 2 []))) ∧
     (Resumes s (mbRepair 1) r → r.note ≠ [] → sound → shut → Completes .rebuild s built))

/-- R326: a swap after stage 0 counts, retires every core that fails its self-test and takes up two good ones as the pair, or is
device-fatal with fewer than two, and, by R380, with no ledger room where an active core fails; a spare that fails its test is
retired, and there is no spare. That a swap is one step is the model's choice (log entry 21). -/
def Obligations.CoresAreSwappedAndTested : Prop :=
  ∀ (s : State), s.live = true →
    let c := s.mach.core
    let roomy := ∀ n < 3, c.ledgerFull ⟨9, n, 0, 0⟩ = false
    let retires := fun (pass : Nat) (s' : State) => MemKept s s' ∧ OutsideKept s s' ∧
      s'.mach.core.rd R.CH_CORES_SWAPS = satAdd R.CH_CORES_SWAPS.w (c.rd R.CH_CORES_SWAPS) 1 ∧
      ∀ n < 3, bit (s'.mach.core.rd R.CH_CORES_RETIRED) n = (bit (c.rd R.CH_CORES_RETIRED) n || !bit pass n)
    (∀ pass, c.rd R.STG_STATUS_STAGE ≠ 0 → 2 ≤ c.coresLeft → roomy → Completes (.coreSwap pass) s (fun s' => retires pass s' ∧
      (2 ≤ s'.mach.core.coresLeft → s'.mach.core.rd R.CH_CORES_ACTA < s'.mach.core.rd R.CH_CORES_ACTB
        ∧ s'.mach.core.rd R.CH_CORES_ACTA ∈ s'.mach.core.goodCores ∧ s'.mach.core.rd R.CH_CORES_ACTB ∈ s'.mach.core.goodCores) ∧
      (s'.mach.core.coresLeft < 2 → s'.mach.core.rd R.LDG_ALERT_DEVF = 1))) ∧
    (∀ pass n, c.rd R.STG_STATUS_STAGE ≠ 0 → 2 ≤ c.coresLeft → n ∈ c.goodCores → bit pass n = false →
      n = c.rd R.CH_CORES_ACTA ∨ n = c.rd R.CH_CORES_ACTB → c.ledgerFull ⟨9, n, 0, 0⟩ = true → Completes (.coreSwap pass) s (fun s' =>
        retires pass s' ∧ s'.mach.core.rd R.CH_CORES_SPARE = 3 ∧ s'.mach.core.rd R.LDG_ALERT_DEVF = 1)) ∧
    (∀ pass, c.rd R.STG_STATUS_STAGE = 0 ∨ c.coresLeft < 2 → Completes (.coreSwap pass) s (fun s' => s' = s)) ∧
    Completes (.spareSelfTest true) s (fun s' => s' = s) ∧
    (c.rd R.CH_CORES_SPARE = 3 ∨ c.rd R.STG_STATUS_STAGE = 0 → Completes (.spareSelfTest false) s (fun s' => s' = s)) ∧
    (c.rd R.STG_STATUS_STAGE ≠ 0 → c.rd R.CH_CORES_SPARE < 3 → Completes (.spareSelfTest false) s (fun s' => MemKept s s'
      ∧ OutsideKept s s' ∧ bit (s'.mach.core.rd R.CH_CORES_RETIRED) (c.rd R.CH_CORES_SPARE) = true ∧ s'.mach.core.rd R.CH_CORES_SPARE = 3))

/-! ## Bring-up (chapter 16) -/

/-- R353 to R361, R398: a request for a stage already reached, out of form or out of place is answered and changes no stage; stage 1
pairs the cores; stage 3 shows each tile whose banks pass, and fails with the state store; stage 4 maps every row and loads
epoch 0, or opens reduced service where that is asked; stage 5 ends reduced service and lights every row pair. R360, R361, R398:
stage 6 begins the broadcast, of the default image where none is staged, and waits for it, and ends with it; stage 7 applies the
hallmarks' tiers and disables rows; stage 8 opens full service. R363, R370: while parts 3U and 4U run, which BUSY shows, the
chiplet completes stages 3 and 4 by itself; otherwise nothing happens. That a stage is one or two steps is the model's choice
(log entry 21). -/
def Obligations.StagesAreReachedAndFollow : Prop :=
  (∀ (s : State) (o : StageObs) (r : MbReq), Turn s (fun r => mbIs 0x10 r && (s.mach.core.stageFree || decide (r.byte 0 < 4))) r →
     r.note = [] →
     let c := s.mach.core
     let check := c.stageCheck (r.byte 0) (bit (r.byte 1) 0)
     let low := fun (n : Nat) => toBytes 1 n ++ toBytes 1 (c.rd R.STG_STATUS_RSVC + 2 * c.rd R.STG_STATUS_FULL) ++ toBytes 1 0 ++ toBytes 13 0
     let passed := fun (x : TestObs) (t : Nat) => b2n (!(faultyTiles x).contains (t / 20, c.pcol t))
     let reached := fun (n : Nat) (s' : State) => OutsideKept s s' ∧ s'.mach.core.rd R.STG_STATUS_STAGE = n ∧ ∃ body, Responds s' r stOK 0 body
     let l := c.buildEntries s.fuses (c.led.low.getD {})
     (∀ st d, check = some (st, d) → Completes (.mbStage o) s (fun s' => MemKept s s' ∧ OutsideKept s s'
       ∧ s'.mach.core.cword R.STG_STATUS_STAGE.off = c.cword R.STG_STATUS_STAGE.off
       ∧ Responds s' r st d (if st = stOK then c.stageBody 0 else []))) ∧
     (check = none → r.byte 0 = 1 → c.rd R.CH_CORES_RETIRED = 0 → (∀ n < 3, bit o.cores n = true) → Completes (.mbStage o) s (fun s' =>
       MemKept s s' ∧ OutsideKept s s' ∧ s'.mach.core.rd R.STG_STATUS_STAGE = 1 ∧ s'.mach.core.rd R.CH_CORES_ACTA = 0
         ∧ s'.mach.core.rd R.CH_CORES_ACTB = 1 ∧ s'.mach.core.rd R.CH_CORES_SPARE = 2 ∧ Responds s' r stOK 0 (low 1))) ∧
     (check = none → r.byte 0 = 3 → c.rd R.STG_STATUS_STAGE = 2 → c.rd R.STG_STATUS_PASSL = 0 → c.rd R.LDG_ALERT_DEVF = 0 →
       (o.low.storeFail = false → Completes (.mbStage o) s (fun s' => MemKept s s' ∧ reached 3 s'
         ∧ (∀ t < 960, s'.mach.core.trd t R.MEM_STATUS_LO_OK = passed o.low t ∧ s'.mach.core.trd t R.MEM_STATUS_HI_OK = passed o.high t)
         ∧ Responds s' r stOK 0 (low 3))) ∧
       (o.low.storeFail = true → Completes (.mbStage o) s (fun s' => MemKept s s' ∧ OutsideKept s s'
         ∧ s'.mach.core.rd R.STG_STATUS_STAGE = 2 ∧ s'.mach.core.rd R.STG_STATUS_FAIL = 1 ∧ s'.mach.core.rd R.STG_STATUS_FSTAGE = 3
         ∧ s'.mach.core.rd R.LDG_ALERT_DEVF = 1 ∧ ∃ body, Responds s' r stFAILED 3 body))) ∧
     (check = none → r.byte 0 = 4 → c.rd R.STG_STATUS_STAGE = 3 → c.rd R.STG_STATUS_PASSL = 0 → c.rd R.LDG_ALERT_DEVF = 0 →
       c.rd R.CH_CORES_RETIRED = 0 → (∀ e ∈ l, e.kind ∉ [7, 9, 11]) → bit (r.byte 1) 0 = false → Completes (.mbStage o) s (fun s' =>
         MemKept s s' ∧ reached 4 s' ∧ s'.mach.core.rd R.STG_STATUS_PASSL = 1 ∧ s'.mach.core.rd R.STG_STATUS_PASSU = 1
           ∧ s'.mach.core.rd R.LDG_FP_SUMMARY_VALID = 1 ∧ s'.mach.core.epochState 0 = 2 ∧ s'.mach.core.rd R.NET_RTCTL_ACTIVE = 0
           ∧ ∀ i < 48, s'.mach.core.bad i = badOf l i % 2 ^ 21)) ∧
     (check = none → 4 ≤ r.byte 0 → bit (r.byte 1) 0 = true → c.rd R.STG_STATUS_STAGE = 3 → c.rd R.STG_STATUS_PASSL = 1 →
       c.rd R.LDG_ALERT_DEVF = 0 → c.reduced = false → Completes (.mbStage o) s (fun s' => reached 3 s'
         ∧ s'.mach.core.rd R.STG_STATUS_RSVC = 1 ∧ s'.mach.core.rd R.STG_STATUS_BUSY = 1
         ∧ (∀ d < 24, darkReduced d = true → s'.mach.core.rd (R.WGH_DOMST_MODE d) = 2)
         ∧ ∀ t < 960, s'.mach.core.trd t R.LOOM_CAP_REDUCED = 1)) ∧
     (check = none → r.byte 0 = 5 → c.rd R.STG_STATUS_STAGE = 4 → Completes (.mbStage o) s (fun s' => reached 5 s'
       ∧ s'.mach.core.rd R.STG_STATUS_RSVC = 0 ∧ (∀ d < 24, s'.mach.core.pairLit d = true)
       ∧ (c.reduced = true → ∀ t < 960, s'.mach.core.trd t R.LOOM_CAP_REDUCED = 0)))) ∧
  (∀ (s : State) (o : StageObs) (r : MbReq),
     let c := s.mach.core
     let mine := fun (r : MbReq) => mbIs 0x10 r && (c.stageFree || decide (r.byte 0 < 4))
     let check := c.stageCheck (r.byte 0) (bit (r.byte 1) 0)
     let m := s.mach.onCore (fun c => ((c.wr R.STG_STATUS_FAIL 0).wr R.STG_STATUS_FSTAGE 0).wr R.STG_STATUS_FSTAT 0)
     let begun := (m.cry s.fuses (!m.imageStaged) false m.core.cryTargets 0).2
     let failed := fun (s' : State) => OutsideKept s s' ∧ s'.mach.core.rd R.STG_STATUS_STAGE = 5 ∧ s'.mach.core.rd R.STG_STATUS_FAIL = 1
       ∧ s'.mach.core.rd R.STG_STATUS_FSTAGE = 6 ∧ ∃ body, Responds s' r stFAILED 6 body
     let waits := fun (n : Nat) (s' : State) => OutsideKept s s' ∧ s'.mach.core.rd R.STG_STATUS_STAGE = 5 ∧ Waits s' r [n]
     (Turn s mine r → r.note = [] → check = none →
       (r.byte 0 = 6 → c.rd R.STG_STATUS_STAGE = 5 →
         (c.cry.ended = false → Completes (.mbStage o) s (fun s' => MemKept s s' ∧ waits 5 s')) ∧
         (c.cry.ended = true → begun = true → Completes (.mbStage o) s (fun s' => waits 6 s' ∧ s'.mach.core.cry.targets = c.cryTargets
           ∧ s'.mach.core.cry.hops = 0 ∧ s'.mach.core.cry.ended = false)) ∧
         (c.cry.ended = true → begun = false → Completes (.mbStage o) s failed)) ∧
       (r.byte 0 = 7 → c.rd R.STG_STATUS_STAGE = 6 → Completes (.mbStage o) s (fun s' => OutsideKept s s'
         ∧ s'.mach.core.rd R.STG_STATUS_STAGE = 7 ∧ s'.mach.core.rd R.CH_HMSTAT_APPLIED = 1
         ∧ (∀ n b, n < 4 → (n, b) ∈ c.hm.slots → (∀ x ∈ c.hm.slots, x.1 < 4 ∧ (x.1 = n → x.2 = b)) →
             s'.mach.core.rd (R.CH_HMSLOT_RESULT n) = s.fuses.hmResult b)
         ∧ s'.mach.core.rd R.CH_HMSTAT_TILES = s'.mach.core.tierOf 0 % 4 ∧ s'.mach.core.rd R.CH_HMSTAT_SCALE = s'.mach.core.tierOf 3 % 4
         ∧ s'.mach.core.rd R.LDG_FP_SUMMARY_ENABLED = tierTiles (s'.mach.core.tierOf 0)
         ∧ (∀ i < 48, s'.mach.core.disabled i = !tierRow (s'.mach.core.tierOf 0) i)
         ∧ ∃ body, Responds s' r stOK 0 body)) ∧
       (r.byte 0 = 8 → c.rd R.STG_STATUS_STAGE = 7 → Completes (.mbStage o) s (fun s' => MemKept s s' ∧ OutsideKept s s'
         ∧ s'.mach.core.rd R.STG_STATUS_STAGE = 8 ∧ s'.mach.core.rd R.STG_STATUS_FULL = 1
         ∧ (∀ t < 960, s'.mach.core.trd t R.CHN_MODE_MONLY = 0 ∧ s'.mach.core.trd t R.LOOM_CAP_REDUCED = 0)
         ∧ ∃ body, Responds s' r stOK 0 body))) ∧
     (Resumes s mine r → r.note = [6] → r.byte 0 = 6 → c.rd R.STG_STATUS_STAGE = 5 →
       (c.cry.ended = false → Completes (.mbStage o) s (fun s' => MemKept s s' ∧ waits 6 s')) ∧
       (c.cry.ended = true → c.cryOk = true → Completes (.mbStage o) s (fun s' => MemKept s s' ∧ OutsideKept s s'
         ∧ s'.mach.core.rd R.STG_STATUS_STAGE = 6 ∧ ∃ body, Responds s' r stOK 0 body)) ∧
       (c.cry.ended = true → c.cryOk = false → Completes (.mbStage o) s (fun s' => MemKept s s' ∧ failed s')))) ∧
  (∀ (s : State) (o : StageObs), s.live = true →
     let c := s.mach.core
     (c.rd R.STG_STATUS_RSVC = 1 → c.rd R.STG_STATUS_PASSU = 0 → c.rd R.STG_STATUS_BUSY = 1 → Completes (.stage3u4u o) s (fun s' =>
       MemKept s s' ∧ OutsideKept s s' ∧ s'.mach.core.rd R.STG_STATUS_STAGE = 4 ∧ s'.mach.core.rd R.STG_STATUS_PASSU = 1
       ∧ s'.mach.core.rd R.STG_STATUS_RSVC = 1 ∧ s'.mach.core.rd R.STG_STATUS_BUSY = 0 ∧
       (c.rd R.STG_STATUS_STAGE < 3 → ∀ t < 960,
         s'.mach.core.trd t R.MEM_STATUS_HI_OK = b2n (!(faultyTiles o.high).contains (t / 20, c.pcol t))))) ∧
     (c.rd R.STG_STATUS_RSVC ≠ 1 ∨ c.rd R.STG_STATUS_PASSU = 1 ∨ c.rd R.STG_STATUS_BUSY = 0 → Completes (.stage3u4u o) s (fun s' => s' = s)))

/-! ## The crier (chapter 15) -/

/-- R341, R346: a piece of the manifest or the image, from the host or from the chiplet upstream, is written to the crier slice, and
no other byte changes; one that runs past its store ends with BOUND, and one with no slice to take it is DENIED. R342, R343: a
cry of an image that verifies, from the host or relayed, begins its broadcast to every present tile: their loaders are LOADING
with empty maps and keep their old images, and the request waits until the broadcast has ended; one that does not verify fails;
with a queue or the bell not IDLE it is DENIED. What a good signature is stays open (log entry 32). -/
def Obligations.PiecesAreStagedAndCriesBegin : Prop :=
  (∀ (s : State) (r : MbReq),
     let c := s.mach.core
     let image := decide (r.byte 0 = 1)
     let off := r.field 4 4
     let bs := r.data (r.field 8 2)
     let at' := sliceBase c.crier + (if image then imageOff else manifestOff) + off
     let far := (if image then 262144 else 4256) < off + r.field 8 2
     let staged := fun (s' : State) => OutsideKept s s' ∧ s'.mach.read at' bs.length = bs
       ∧ (∀ k, k < at' ∨ at' + bs.length ≤ k → s'.mach.byteAt k = s.mach.byteAt k)
       ∧ s'.mach.core.rd R.CH_CRSTAT_STATE = 1 ∧ Responds s' r stOK 0 []
     let refused := fun (st d : Nat) (s' : State) => MemKept s s' ∧ OutsideKept s s' ∧ Responds s' r st d []
     let all := fun (i : Instr) =>
       (c.stageRefused = none → ¬ far → (∀ l, s.mach.lineErrs (sliceLineId c.crier l) = []) → Completes i s staged) ∧
       (c.stageRefused = none → far → Completes i s (refused stBOUND 0)) ∧
       (∀ d, c.stageRefused = some d → Completes i s (refused stDENIED d))
     (Turn s (mbIs 0x20) r → all .mbTfwWrite) ∧
     (Turn s (fun r => mbIs 0x22 r && decide (r.byte 0 ≠ 2)) r → all .mbCryRelayPiece)) ∧
  (∀ (s : State) (r : MbReq),
     let c := s.mach.core
     let ts := c.cryTargets
     let idle := c.rd R.CH_BELLSTEP_STATE = 0 ∧ ts.all c.unitIdle = true
     let all := fun (i : Instr) (hops : Nat) =>
       (idle → (s.mach.cry s.fuses false false ts hops).2 = true → Completes i s (fun s' => OutsideKept s s' ∧
         s'.mach.core.cry.targets = ts ∧ s'.mach.core.cry.ended = false ∧ s'.mach.core.cry.hops = hops
           ∧ s'.mach.core.rd R.CH_CRSTAT_STATE = 2 ∧ s'.mach.core.rd R.CH_CRSTAT_TARGETS = ts.length
           ∧ (∀ k, loaderBase 0 ≤ k → k < loaderBase 960 → s'.mach.byteAt k = s.mach.byteAt k)
           ∧ (∀ t ∈ ts, s'.mach.core.trd t R.SEQ_LOADER_LSTATE = 1 ∧ s'.mach.core.trd t R.SEQ_LOADER_SEALT = 0
               ∧ s'.mach.core.trd t R.SEQ_FWMAP_CHUNKS = 0) ∧ Waits s' r [1])) ∧
       (idle → (s.mach.cry s.fuses false false ts hops).2 = false → Completes i s (fun s' => OutsideKept s s' ∧
         s'.mach.core.rd R.CH_CRSTAT_STATE = 6 ∧ (∀ k, loaderBase 0 ≤ k → k < loaderBase 960 → s'.mach.byteAt k = s.mach.byteAt k)
           ∧ Responds s' r stFAILED 0 [])) ∧
       (¬ idle → Completes i s (fun s' => MemKept s s' ∧ OutsideKept s s' ∧ s'.mach.core.cry = c.cry ∧ Responds s' r stDENIED 2 []))
     let ends := fun (i : Instr) =>
       (c.cry.ended = true → Completes i s (fun s' => MemKept s s' ∧ OutsideKept s s'
         ∧ Responds s' r (if c.rd R.CH_CRSTAT_VERIFIED ≠ 0 then stOK else stFAILED) 0 c.cryBody)) ∧
       (c.cry.ended = false → Completes i s (fun s' => MemKept s s' ∧ OutsideKept s s' ∧ Waits s' r r.note))
     let relayed := fun (r : MbReq) => mbIs 0x22 r && decide (r.byte 0 = 2)
     (r.note = [] → (Turn s (mbIs 0x21) r → all .mbTfwCry (r.byte 0 % 16)) ∧ (Turn s relayed r → all .mbCryRelayCry (r.byte 1 % 16))) ∧
     (r.note ≠ [] → (Resumes s (mbIs 0x21) r → ends .mbTfwCry) ∧ (Resumes s relayed r → ends .mbCryRelayCry)))

/-- R344, R345: a target whose broadcast is over reports its record; one told to repair has its table and reports again; a
collection settles the complete tiles as verified, sends the others a repair round, and after the third takes them out of
service. R345, R346: START lets every verified tile leave LOADING and no other; with no hops left, or no port downstream, the
broadcast ends, and else the first piece goes downstream; each response OK sends the next piece, and any other status ends the
relay. -/
def Obligations.BroadcastsAreCollectedStartedAndRelayed : Prop :=
  (∀ (s : State) (t : Nat), s.live = true →
     let c := s.mach.core
     (t < 960 → c.present t = true → c.tileDark t = false → c.cry.msgs.contains (.report, t) = true → c.broadcastOver t = true →
       Completes (.report t) s (fun s' => OutsideKept s s' ∧ s'.mach.core.cry.recs = c.cry.recs ++ [c.cryRecord t]
         ∧ s'.mach.core.cry.msgs = c.cry.msgs.erase (.report, t) ∧ s'.mach.core.rd R.CH_CRSTAT_STATE = 3
         ∧ (c.cry.own = false → s'.mach.core.tallyCount (960 + c.crier) 63 = min (c.tallyCount (960 + c.crier) 63 + 1) 0xFFFFF))) ∧
     (t < 960 → c.present t = false ∨ c.tileDark t = true → c.cry.msgs.contains (.report, t) = true → c.broadcastOver t = true →
       Completes (.report t) s (fun s' => MemKept s s' ∧ OutsideKept s s' ∧ s'.mach.core.cry.recs = c.cry.recs
         ∧ s'.mach.core.cry.msgs = c.cry.msgs.erase (.report, t))) ∧
     (t < 960 → c.present t = true → c.tileDark t = false → c.cry.msgs.contains (.repair, t) = true →
       Completes (.repair t) s (fun s' => OutsideKept s s' ∧ s'.mach.core.cry.msgs = c.cry.msgs.erase (.repair, t)
         ∧ s'.mach.core.trd t R.SEQ_LOADER_SEALT = 1
         ∧ ∃ x, s'.mach.core.cry.recs = c.cry.recs ++ [x] ∧ x.tile = t ∧ x.round = c.rd R.CH_CRSTAT_ROUND ∧ x.sealt = true)) ∧
     (c.cry.ended = false → c.cry.msgs.contains (.start, 0) = false → c.rd R.CH_CRSTAT_STATE ≠ 5 → c.collected = true → t ∈ c.unsettled →
       Completes .cryCollect s (fun s' => MemKept s s' ∧ OutsideKept s s' ∧
         (c.complete t = true → (t, .verified) ∈ s'.mach.core.cry.settled) ∧
         (c.complete t = false → c.rd R.CH_CRSTAT_ROUND < 3 → (.repair, t) ∈ s'.mach.core.cry.msgs
           ∧ s'.mach.core.rd R.CH_CRSTAT_ROUND = c.rd R.CH_CRSTAT_ROUND + 1 ∧ s'.mach.core.rd R.CH_CRSTAT_STATE = 4) ∧
         (c.complete t = false → c.rd R.CH_CRSTAT_ROUND = 3 → (t, .oos) ∈ s'.mach.core.cry.settled
           ∧ s'.mach.core.present t = false ∧ (.start, 0) ∈ s'.mach.core.cry.msgs)))) ∧
  (∀ (s : State), s.live = true →
     let c := s.mach.core
     let started := fun (s' : State) => OutsideKept s s' ∧ ∀ t < 960, s'.mach.core.trd t R.SEQ_LOADER_LSTATE =
       if c.cry.settled.any (fun x => decide (x.1 = t) && decide (x.2 = .verified)) && c.present t then 0
       else c.trd t R.SEQ_LOADER_LSTATE
     let ended := fun (st : Nat) (s' : State) => s'.mach.core.cry.ended = true ∧ s'.mach.core.cry.relayStatus = st
       ∧ s'.mach.core.cry.waiting = none ∧ s'.mach.core.rd R.CH_CRSTAT_STATE = if c.rd R.CH_CRSTAT_VERIFIED = 0 then 6 else 0
     let sent := fun (p : RelayPiece) (s' : State) => (∃ w, s'.mach.core.cry.waiting = some w ∧ w.kind = p.kind ∧ w.offset = p.offset)
       ∧ ∃ g ∈ s'.mach.core.net.fly, g.pkt.typ = 8 ∧ g.port = some 5 ∧ leAt g.pkt.payload 0 2 = 0x22
     (c.cry.msgs.contains (.start, 0) = true →
       (c.cry.hops = 0 → Completes .start s (fun s' => MemKept s s' ∧ started s' ∧ ended stOK s')) ∧
       (c.cry.hops ≠ 0 → c.downActive = false → Completes .start s (fun s' => MemKept s s' ∧ started s' ∧ ended stLOST s')) ∧
       (c.cry.hops ≠ 0 → c.downActive = true → Completes .start s (fun s' => MemKept s s' ∧ started s' ∧
         s'.mach.core.rd R.CH_CRSTAT_STATE = 5 ∧ sent { kind := 0, offset := 0, len := 256 } s'))) ∧
     (∀ i a, c.arrOf i 8 unitSeam = some a →
       let st := leAt a.pkt.payload 2 1 % 16
       (c.answersPiece a = false → Completes (.mailboxResponse i) s (fun s' => MemKept s s' ∧ OutsideKept s s' ∧ s'.mach.core.cry = c.cry
         ∧ ∀ b ∈ s'.mach.core.net.arr, b.id ≠ a.id)) ∧
       (c.answersPiece a = true → st ≠ stOK → Completes (.mailboxResponse i) s (fun s' => MemKept s s' ∧ ended st s')) ∧
       (c.answersPiece a = true → st = stOK → c.cry.relay = [] → Completes (.mailboxResponse i) s (fun s' => MemKept s s' ∧ ended stOK s')) ∧
       (∀ p ps, c.answersPiece a = true → st = stOK → c.cry.relay = p :: ps → p.kind ≠ 1 → c.downActive = true →
         Completes (.mailboxResponse i) s (fun s' => MemKept s s' ∧ OutsideKept s s' ∧ s'.mach.core.cry.relay = ps ∧ sent p s'))))

/-! ## Resets, supplies and pins (chapters 16 and 19) -/

/-- R365, R366, R369, R331: a compute-only reset, by its pin or by MB_RESET, empties queues, fabric, larder, bell and mailboxes,
holds the ports, counts itself with its cause, and keeps the code memories, what RETAIN regions hold, the generations of the
windows and the fuses; a warm restart reopens service, and is shown where such a reset came before it. What else a compute-only
reset leaves is the model's reading (log entry 37). -/
def Obligations.ComputeOnlyResetKeepsCode : Prop :=
  ∀ (s : State), s.live = true →
    let c := s.mach.core
    let entered := fun (cause : Nat) (s' : State) =>
      s'.fuses = s.fuses ∧ s'.tap = s.tap ∧ s'.pending = s.pending ∧ s'.pwr.comp = true ∧
      s'.mach.core.rd R.STG_CAUSE_LAST = cause ∧ s'.mach.core.rd R.STG_CAUSE_WARMS = satAdd R.STG_CAUSE_WARMS.w (c.rd R.STG_CAUSE_WARMS) 1 ∧
      s'.mach.core.queues = {} ∧ s'.mach.core.lar = {} ∧ s'.mach.core.bell = {} ∧ s'.mach.core.mb = {} ∧
      s'.mach.core.net.fly = [] ∧ s'.mach.core.net.arr = [] ∧ s'.mach.core.net.mstore = [] ∧
      (∀ w < 1024, s'.mach.core.winOpen w = false ∧ s'.mach.core.rd (R.LAR_WIN_OPEN w) = 0 ∧ s'.mach.core.rd (R.LAR_WIN_WR w) = 0
        ∧ s'.mach.core.rd (R.LAR_WIN_LENGTH w) = 0 ∧ s'.mach.core.rd (R.LAR_WIN_GEN w)
          = (c.rd (R.LAR_WIN_GEN w) + b2n (c.winOpen w)) % 2 ^ (R.LAR_WIN_GEN w).w) ∧
      (∀ d < 29, s'.mach.core.rd (R.WGH_DOMST_GRANT d) = 0) ∧
      s'.mach.core.ports.hold = true ∧ (∀ p < 6, c.rd (R.PRT_STATE_STATE p) = 2 → s'.mach.core.rd (R.PRT_STATE_STATE p) = 3) ∧
      (∀ k, loaderBase 0 ≤ k → k < tregBase 0 → s'.mach.byteAt k = s.mach.byteAt k) ∧
      (∀ t g n k, t < 960 → g < 64 → c.regionOf t g = some n → c.trd t (R.MEM_RGN_MODE n) = 1 → tileBase t + 2 ^ 14 * g ≤ k →
        k < tileBase t + 2 ^ 14 * (g + 1) → s'.mach.byteAt k = s.mach.byteAt k)
    Completes .computeOnlyReset s (fun s' => entered 4 s' ∧ s'.pwr.compRstN = false) ∧
    (∀ r, Turn s (mbReset false) r → Completes .mbResetComputeOnly s (entered 5)) ∧
    (∀ o, s.pwr.comp = true → Completes (.warmRestart o) s (fun s' => s'.fuses = s.fuses ∧ s'.tap = s.tap ∧ s'.pwr.comp = false
      ∧ s'.pwr.compRstN = true ∧ s'.mach.core.ports.hold = false
      ∧ s'.mach.core.rd R.STG_STATUS_WARM = b2n (decide (4 ≤ c.rd R.STG_CAUSE_LAST)))) ∧
    (∀ o, s.pwr.comp = false → Completes (.warmRestart o) s (fun s' => s' = s))

/-- R349, R350, R351, R368, R411: a full reset, by FULL_RST_N, PWRGOOD, the mailbox, the supply or the trip, empties every memory
and returns every register to its reset value but the cause, VRLOW and the by-pass positions; the release samples the straps and
starts training on every hub port, ports that train presenting HELD while COMP_RST_N stays low; the ring ports are FAILED until
a position is inserted (R267). That one step carries out a full reset, and that FULL_RST_N_RISE samples the straps at once, is
the model's choice (log entry 5). -/
def Obligations.FullResetsClearAndRelease : Prop :=
  ∀ (s : State),
    let c := s.mach.core
    let but := [R.STG_CAUSE_LAST.off, R.LDG_ALERT_VRLOW.off] ++ (List.range 6).map (fun p => (R.PRT_STATE_STATE p).off)
    let cleared := fun (cause : Nat) (s' : State) => s'.fuses = s.fuses ∧ s'.mach.mem = [] ∧ s'.mach.errs = [] ∧ s'.mach.corr = [] ∧
      s'.mach.core.queues = {} ∧ s'.mach.core.net = {} ∧ s'.mach.core.mb = {} ∧ s'.mach.core.led = {} ∧ s'.mach.core.fw = {} ∧
      s'.mach.core.rd R.STG_CAUSE_LAST = cause ∧ (∀ off, off ∉ but → s'.mach.core.cword off = cResetWord off) ∧
      ∀ t off, s'.mach.core.tword t off = tResetWord off
    (∀ i ∈ [Instr.fullReset, Instr.vinLow],
      (s.pwr.on = true → s.pwr.fullRstN = true → s.pwr.trip = false → Completes i s (fun s' => cleared 1 s' ∧ s'.tap = s.tap
        ∧ s'.pwr.fullRstN = false)) ∧
      (s.pwr.on = true → s.pwr.fullRstN = true → s.pwr.trip = true → Completes i s (fun s' => MemKept s s' ∧ s'.fuses = s.fuses
        ∧ s'.tap = s.tap ∧ s'.pwr = { s.pwr with fullRstN := false })) ∧
      (s.pwr.on = false ∨ s.pwr.fullRstN = false → Completes i s (fun s' => s' = s))) ∧
    (∀ r, Turn s (mbReset true) r → Completes .mbResetFull s (fun s' => s'.fuses = s.fuses ∧ s'.mach.mem = [] ∧ s'.mach.core.queues = {} ∧
      s'.pwr.fullRstN = true ∧ s'.mach.core.rd R.STG_CAUSE_LAST = 2 ∧ s'.mach.core.rd R.STG_STATUS_STAGE = 0 ∧
      ∀ f ∈ [R.STG_STRAP_SLOT, R.STG_STRAP_WARD, R.STG_STRAP_ASM], s'.mach.core.rd f = c.rd f)) ∧
    (∀ slot ward asm comp, slot < 16 → ward < 4 → asm < 8 →
      (s.pwr.on = true → s.pwr.fullRstN = false → s.pwr.trip = false → Completes (.fullRstNRise slot ward ⟨asm, comp⟩) s (fun s' =>
        MemKept s s' ∧ s'.fuses = s.fuses ∧ s'.pwr.fullRstN = true ∧ s'.pwr.compRstN = !comp ∧ s'.pwr.comp = comp
        ∧ s'.mach.core.ports.hold = comp
        ∧ s'.mach.core.rd R.STG_STRAP_SLOT = slot ∧ s'.mach.core.rd R.STG_STRAP_WARD = ward ∧ s'.mach.core.rd R.STG_STRAP_ASM = asm
        ∧ s'.mach.core.rd R.STG_STRAP_STRAPERR = b2n (strapErr slot asm) ∧ s'.mach.core.rd (R.PRT_STATE_WARDEN ward) = 1
        ∧ (∀ p < 4, s'.mach.core.rd (R.PRT_STATE_STATE p) = 1)
        ∧ ∀ p, p = 4 ∨ p = 5 → s'.mach.core.rd (R.PRT_STATE_STATE p) = 5 ∧ s'.mach.core.rd (R.PRT_STATE_CAUSE p) = 1)) ∧
      (s.pwr.on = true → s.pwr.fullRstN = false → s.pwr.trip = true → Completes (.fullRstNRise slot ward ⟨asm, comp⟩) s (fun s' =>
        s'.pwr.fullRstN = true ∧ s'.live = false ∧ s'.mach.core.cword R.STG_STRAP_SLOT.off = c.cword R.STG_STRAP_SLOT.off)) ∧
      (s.pwr.on = false ∨ s.pwr.fullRstN = true → Completes (.fullRstNRise slot ward ⟨asm, comp⟩) s (fun s' => s' = s))) ∧
    (s.pwr.on = true → Completes .supplyLoss s (fun s' => cleared 0 s' ∧ s'.pwr.on = false ∧ s'.pwr.trip = false ∧ s'.tap = {})) ∧
    (s.pwr.on = false → Completes .supplyLoss s (fun s' => s' = s)) ∧
    (s.pwr.on = false → Completes .powerOn s (fun s' => cleared 0 s' ∧ s'.pwr.on = true ∧ s'.pwr.fullRstN = false ∧ s'.tap = {}
      ∧ ∀ p, p = 4 ∨ p = 5 → s'.mach.core.rd (R.PRT_STATE_BYPOS p) = if s.pwr.vring then 15 else 0)) ∧
    (s.pwr.on = true → Completes .powerOn s (fun s' => s' = s))

/-- R414, R412, R266: the trip sets its latch and a full reset; the latch clears only cool and with FULL_RST_N low; VRING low shows
in every port and drives ALERT_N, and its return clears both; a closed by-pass shows at both ring ports and their usable links
are lost. -/
def Obligations.TripVringAndBypassAct : Prop :=
  ∀ (s : State),
    (s.pwr.on = true → s.pwr.trip = false → Completes .thermalTrip s (fun s' => s'.fuses = s.fuses ∧ s'.pwr.trip = true ∧ s'.thermtrip = true
      ∧ s'.mach.mem = [] ∧ s'.mach.core.queues = {} ∧ s'.mach.core.rd R.STG_CAUSE_LAST = 3 ∧ s'.live = false)) ∧
    (s.pwr.on = false ∨ s.pwr.trip = true → Completes .thermalTrip s (fun s' => s' = s)) ∧
    (∀ cool, Completes (.tripLatchClear cool) s (fun s' => s'.mach = s.mach ∧ s'.fuses = s.fuses ∧ s'.tap = s.tap
      ∧ s'.pwr = if cool && !s.pwr.fullRstN then { s.pwr with trip := false } else s.pwr)) ∧
    Completes .vringLow s (fun s' => MemKept s s' ∧ s'.fuses = s.fuses ∧ s'.tap = s.tap ∧ s'.pwr = { s.pwr with vring := false }
      ∧ (∀ p < 6, s'.mach.core.rd (R.PRT_STATE_VRLOW p) = b2n s.pwr.on) ∧ (s.pwr.on = true → s'.alert = true)) ∧
    Completes .vringRestored s (fun s' => MemKept s s' ∧ s'.fuses = s.fuses ∧ s'.tap = s.tap ∧ s'.pwr = { s.pwr with vring := true }
      ∧ (∀ p < 6, s'.mach.core.rd (R.PRT_STATE_VRLOW p) = 0) ∧ s'.mach.core.rd R.LDG_ALERT_VRLOW = 0) ∧
    (s.live = true → Completes .bypassClose s (fun s' => MemKept s s' ∧ OutsideKept s s' ∧ s'.mach.core.rd (R.PRT_STATE_BYPOS 4) = 15
      ∧ s'.mach.core.rd (R.PRT_STATE_BYPOS 5) = 15 ∧ s'.mach.core.ports.tries = []
      ∧ ∀ p l, p = 4 ∨ p = 5 → l < 4 → s'.mach.core.usable p 0 l = false ∧ s'.mach.core.usable p 1 l = false))

/-! ## The test port (chapter 19) -/

/-- R419, R420, R421, R422: an instruction row puts its code in effect, BYPASS for one that a locked chiplet does not take, and
captures its register; SCAN and WS_INTEST of an unlocked chiplet erase the identity key and remove it from operation; TRST_N low
and five rising edges with TMS high reach Test-Logic-Reset. That an instruction row is a whole scan that ends with a capture is
the model's choice (log entry 34). -/
def Obligations.TestPortLoadsItsInstructions : Prop :=
  ∀ (s : State), s.pwr.on = true →
    let rows : List (Instr × Nat) := [(.extest, 0x00), (.idcode, 0x01), (.samplePreload, 0x02), (.clamp, 0x03), (.highz, 0x04),
      (.dwExtest, 0x10), (.dwSample, 0x11), (.tstread, 0x18), (.wsSelect, 0x20), (.wsIntest, 0x21), (.scan, 0x30), (.mbist, 0x31),
      (.bypass, 0xFF)]
    (∀ x ∈ rows, Completes x.1 s (fun s' => MemKept s s' ∧ s'.fuses = s.fuses ∧ s'.pending = s.pending ∧ s'.tap.tap = .idle ∧
      s'.tap.ir = (if s.fuses.locked && lockedCodes.contains x.2 then 0xFF else x.2) ∧
      (x.2 = 0x01 → s'.tap.drShift = idcodeWord ∧ s'.tap.drLen = 32) ∧ (x.2 = 0xFF → s'.tap.drLen = 1) ∧
      (x.2 = 0x18 → s'.tap.drLen = 64 ∧ s'.mach.core.lastRead = s'.tstStatus) ∧
      s'.pwr.out = (s.pwr.out || (!s.fuses.locked && (decide (x.2 = 0x30) || decide (x.2 = 0x21)))) ∧
      s'.pwr.erased = (s.pwr.erased || (!s.fuses.locked && (decide (x.2 = 0x30) || decide (x.2 = 0x21)))))) ∧
    Completes .tapReset s (fun s' => MemKept s s' ∧ s'.tap.tap = .reset ∧ s'.tap.ir = 1 ∧ s'.pwr = s.pwr) ∧
    (∀ rise tms tdi, s.tap.tck = rise → Completes (.tckEdge rise tms tdi) s (fun s' => s' = s)) ∧
    (∀ tms tdi, s.tap.tck = false → Completes (.tckEdge true tms tdi) s (fun s' => MemKept s s' ∧ s'.fuses = s.fuses ∧ s'.pwr = s.pwr
      ∧ s'.tap.tck = true ∧ s'.tap.tap = s.tap.tap.next tms
      ∧ (s.tap.tap = .shIr → s'.tap.irShift = shiftIn 8 s.tap.irShift tdi)
      ∧ (s.tap.tap = .shDr → s'.tap.drShift = shiftIn s.tap.drLen s.tap.drShift tdi ∧ s'.tap.drLen = s.tap.drLen)
      ∧ (s.tap.tap = .capDr → s'.tap.drLen = (s.capture s.irNow).1 ∧ s'.tap.drShift = (s.capture s.irNow).2))) ∧
    (∀ tms tdi, s.tap.tck = true → Completes (.tckEdge false tms tdi) s (fun s' => MemKept s s' ∧ s'.fuses = s.fuses ∧ s'.tap.tck = false
      ∧ s'.tap.tap = s.tap.tap ∧ (s.tap.tap = .upIr → s'.tap.ir = loadedCode s.fuses.locked s.tap.irShift)
      ∧ (s.tap.tap ≠ .upIr → s'.tap.ir = s.tap.ir ∧ s'.pwr = s.pwr)
      ∧ (s.tap.tap = .shDr → s'.tap.tdo = some (bit s.tap.drShift 0)) ∧ (s.tap.tap = .shIr → s'.tap.tdo = some (bit s.tap.irShift 0))
      ∧ (s.tap.tap ≠ .shDr → s.tap.tap ≠ .shIr → s'.tap.tdo = none))) ∧
    ∀ t : TapState, ((((t.next true).next true).next true).next true).next true = .reset

/-! ## What no step changes -/

/-- R351, R368, R414, R422: while supplies are off, FULL_RST_N is low, the trip is latched or a test has removed the chiplet from
operation, no command but those of the supplies, the reset pins, the trip and the test port changes anything. The frame of all
but the supplies, the reset rows, ADVANCE and the test port: fuses, supplies, pins, test port and queue are as they were; of
those that act on control state alone, every byte of memory too. -/
def Obligations.NothingOutsideMovesButByItsRows : Prop :=
  (∀ (i : Instr) (s t : State), s.live = false → outsideRow i = false → exec i s = .next t → t = s) ∧
  (∀ (i : Instr) (s t : State), exec i s = .next t →
     (outsideRow i = false → crossingRow i = false → OutsideKept s t) ∧ (controlRow i = true → MemKept s t))

/-- R400, R394, R420: no step lowers a monotonic counter, raises one above 63, or changes the certificate, the revocations, the
wafer-test defects or the test lock. R414: a step that clears the trip latch is TRIP_LATCH_CLEAR with FULL_RST_N low, or the
loss or return of the supply. -/
def Obligations.FusesAndTripLatchHold : Prop :=
  (∀ (s t : State), step s = .next t →
     t.fuses = { s.fuses with hmepoch := t.fuses.hmepoch, fwsvn := t.fuses.fwsvn, tsvn := t.fuses.tsvn } ∧
     s.fuses.hmepoch ≤ t.fuses.hmepoch ∧ s.fuses.fwsvn ≤ t.fuses.fwsvn ∧ s.fuses.tsvn ≤ t.fuses.tsvn ∧
     (s.fuses.hmepoch ≤ 63 → t.fuses.hmepoch ≤ 63) ∧ (s.fuses.fwsvn ≤ 63 → t.fuses.fwsvn ≤ 63) ∧ (s.fuses.tsvn ≤ 63 → t.fuses.tsvn ≤ 63)) ∧
  (∀ (s t : State), step s = .next t → s.pwr.trip = true → t.pwr.trip = false →
     (∃ cool rest, s.pending = .tripLatchClear cool :: rest ∧ cool = true ∧ s.pwr.fullRstN = false) ∨
       ∃ rest, s.pending = .supplyLoss :: rest ∨ s.pending = .powerOn :: rest)

/-- Memory keeps its canonical form: addresses strictly rising, no byte listed at the value an unlisted one reads as. The form, and
that a byte nothing has written reads as zero, are the model's own (log entry 9). -/
def Obligations.MemoryKeepsItsForm : Prop :=
  ∀ (s t : State), Memory.wf s.mach.mem → step s = .next t → Memory.wf t.mach.mem

/-- R328: every accepted request stands in one of 16 slots of one of six mailboxes, before and after every step. -/
def Obligations.RequestsStandInSlots : Prop :=
  ∀ (s t : State), SlotsOk s → step s = .next t → SlotsOk t

/-- Reset meets what every step keeps: memory lists nothing, no request is accepted, every counter is within 63, nothing is queued,
and the logic does not run until FULL_RST_N rises. -/
def Obligations.ResetMeetsTheInvariants : Prop :=
  Memory.wf State.reset.mach.mem ∧ State.reset.mach.mem = [] ∧ SlotsOk State.reset ∧ State.reset.fuses.hmepoch ≤ 63 ∧
    State.reset.fuses.fwsvn ≤ 63 ∧ State.reset.fuses.tsvn ≤ 63 ∧ State.reset.pending = [] ∧ State.reset.live = false ∧
    State.reset.pwr.trip = false ∧ State.reset.tap.tap = .reset ∧ State.reset.tap.ir = 1

/-! ## Whole rules -/

/-- R39, R399: a compute-only reset, by its pin or by MB_RESET, leaves TMB_NOW, TMB_CAL, CAL_VALID, every hallmark slot, CH_HMSTAT
and the applied tiers as they are, and TMB_NOW counts on while the reset lasts; power-on and a full reset return every timebase
register to its reset value, empty the slots, return CH_HMSTAT to its reset value and clear APPLIED. -/
def Obligations.ResetsSpareOrClearTimebaseAndHallmarks : Prop :=
  ∀ (s : State),
    let c := s.mach.core
    let spared := fun (s' : State) => s'.mach.core.tmb = c.tmb ∧
      (∀ f ∈ [R.TMB_NOW_NOW, R.TMB_CAL_INC, R.TMB_STATUS_CAL_VALID], s'.mach.core.rd f = c.rd f) ∧
      s'.mach.core.hm.slots = c.hm.slots ∧ s'.mach.core.cword R.CH_HMSTAT_APPLIED.off = c.cword R.CH_HMSTAT_APPLIED.off ∧
      (∀ k < 4, s'.mach.core.cword (R.CH_HMSLOT_RESULT k).off = c.cword (R.CH_HMSLOT_RESULT k).off) ∧
      (∀ r < 48, s'.mach.core.rd (R.LDG_FP_ROW_DISABLED r) = c.rd (R.LDG_FP_ROW_DISABLED r)) ∧
      ∀ t < 960, s'.mach.core.trd t R.LOOM_CAP_PASS23 = c.trd t R.LOOM_CAP_PASS23
    let cleared := fun (s' : State) => s'.mach.core.tmb = {} ∧
      (∀ off, 0x10000 ≤ off → off < 0x20000 → s'.mach.core.cword off = cResetWord off) ∧ s'.mach.core.hm.slots = [] ∧
      s'.mach.core.cword R.CH_HMSTAT_APPLIED.off = cResetWord R.CH_HMSTAT_APPLIED.off ∧ s'.mach.core.rd R.CH_HMSTAT_APPLIED = 0
    (s.live = true → Completes .computeOnlyReset s spared) ∧
    (∀ r, Turn s (mbReset false) r → Completes .mbResetComputeOnly s spared) ∧
    (s.live = true → s.pwr.comp = true → s.pending = [] → ∃ t, step s = .next t ∧
      t.mach.core.now = (c.now + (c.tmb.frac + ((c.inc : Int) + c.slewStep).toNat) / 2 ^ 24) % 2 ^ R.TMB_NOW_NOW.w) ∧
    (∀ i ∈ [Instr.fullReset, Instr.vinLow], s.pwr.on = true → s.pwr.fullRstN = true → s.pwr.trip = false → Completes i s cleared) ∧
    (∀ r, Turn s (mbReset true) r → Completes .mbResetFull s cleared) ∧
    (s.pwr.on = true → s.pwr.trip = false → Completes .thermalTrip s cleared) ∧
    (s.pwr.on = true → Completes .supplyLoss s cleared) ∧
    (s.pwr.on = false → Completes .powerOn s cleared)

/-- R139: IADD, ISUB and IMUL of a lane wrap modulo 2^32 without a flag where ISAT = 0; where ISAT = 1 they saturate to
−2,147,483,648 or 2,147,483,647, with invalid exactly where that changes the result; a shift takes its count from B[4:0]. -/
def Obligations.IntegerLanesWrapOrSaturate : Prop :=
  ∀ (g : Stage) (pwq : Nat → List Byte) (row lane r a b d : Nat),
    let i := signedOf 32 a
    let j := signedOf 32 b
    let good := fun (v : Int) =>
      laneOp g pwq row lane r a b d =
        (if g.isat = true ∧ 2147483647 < v then (0x7FFFFFFF, { invalid := true })
         else if g.isat = true ∧ v < -2147483648 then (0x80000000, { invalid := true })
         else ((v % 2 ^ 32).toNat, {}))
    (g.sop = 0x20 → good (i + j)) ∧ (g.sop = 0x21 → good (i - j)) ∧ (g.sop = 0x22 → good (i * j)) ∧
    (0x28 ≤ g.sop → g.sop ≤ 0x2A → laneOp g pwq row lane r a b d = laneOp g pwq row lane r a (b % 32) d)
end

