-- ==== Sys2Proof/Laws/Bits.lean ====
section
/-! SUPPORT. Laws of bytes and bits: lengths, and a number read back from its bytes. -/

namespace Sys2Proof.Machine

@[simp] theorem toBytes_length (n x : Nat) : (toBytes n x).length = n := by
  induction n generalizing x with
  | zero => rfl
  | succ n ih => simp [toBytes, ih]

/-- The bytes of a number spell it, cut to as many bytes. -/
@[simp] theorem ofBytes_toBytes (n x : Nat) : ofBytes (toBytes n x) = x % 256 ^ n := by
  induction n generalizing x with
  | zero => simp [toBytes, ofBytes, Nat.mod_one]
  | succ n ih =>
    have h : 256 ^ (n + 1) = 256 * 256 ^ n := Nat.pow_succ'
    rw [toBytes, ofBytes, ih, BitVec.toNat_ofNat, h, Nat.mod_mul]

theorem ofBytes_lt (bs : List Byte) : ofBytes bs < 256 ^ bs.length := by
  induction bs with
  | nil => simp [ofBytes]
  | cons b bs ih =>
    have := b.isLt
    rw [ofBytes, List.length_cons, pow_succ]
    omega

/-- A field of a record whose bytes before it are `n` long. -/
theorem leAt_append_right (as bs : List Byte) (lo n : Nat) (h : as.length ≤ lo) : leAt (as ++ bs) lo n = leAt bs (lo - as.length) n := by
  unfold leAt
  rw [List.drop_append, List.drop_eq_nil_of_le h, List.nil_append]

/-- A field that lies before what is appended. -/
theorem leAt_append_left (as bs : List Byte) (lo n : Nat) (h : lo + n ≤ as.length) : leAt (as ++ bs) lo n = leAt as lo n := by
  unfold leAt
  rw [List.drop_append_of_le_length (by omega), List.take_append_of_le_length (by rw [List.length_drop]; omega)]

/-- A number written as bytes reads back. -/
@[simp] theorem leAt_toBytes (n x : Nat) : leAt (toBytes n x) 0 n = x % 256 ^ n := by
  unfold leAt
  rw [List.drop_zero, List.take_of_length_le (by simp), ofBytes_toBytes]

/-- A splice that lies within a list keeps its length. -/
theorem splice_length {α : Type} (d : α) (l : List α) (i : Nat) (v : List α) (h : i + v.length ≤ l.length) :
    (splice d l i v).length = l.length := by
  unfold splice
  have : i + v.length - l.length = 0 := by omega
  simp [this]
  omega

@[simp] theorem b2n_eq_one (b : Bool) : b2n b = 1 ↔ b = true := by cases b <;> simp [b2n]
@[simp] theorem b2n_eq_zero (b : Bool) : b2n b = 0 ↔ b = false := by cases b <;> simp [b2n]

theorem satAdd_le (w a b : Nat) : satAdd w a b ≤ 2 ^ w - 1 := Nat.min_le_right _ _
theorem satAdd_ge {w a : Nat} (b : Nat) (h : a ≤ 2 ^ w - 1) : a ≤ satAdd w a b := by unfold satAdd; omega

theorem bit_eq_testBit (x i : Nat) : bit x i = x.testBit i := by
  rw [bit, Nat.testBit_eq_decide_div_mod_eq]
  rfl

end Sys2Proof.Machine
end

