-- ==== Sys2Proof/Laws/SMap.lean ====
section
/-! SUPPORT. Laws of the sparse map and of byte memories: a read after a write, and the canonical form every operation keeps. -/

namespace Sys2Proof.Machine

section
variable {α : Type}

/-- The canonical form as a proposition: keys strictly rising, no entry the default. -/
def SMap.Good (d : α) (m : SMap α) : Prop := m.Pairwise (fun a b => a.1 < b.1) ∧ ∀ e ∈ m, e.2 ≠ d

theorem SMap.wf_iff [DecidableEq α] (d : α) (m : SMap α) : SMap.wf d m = true ↔ SMap.Good d m := by
  simp [SMap.wf, SMap.Good]

@[simp] theorem SMap.get_nil (d : α) (k : Nat) : SMap.get d [] k = d := rfl

/-- A key not listed reads as the default. -/
theorem SMap.get_absent (d : α) {m : SMap α} {k : Nat} (h : ∀ e ∈ m, e.1 ≠ k) : SMap.get d m k = d := by
  induction m with
  | nil => rfl
  | cons e m ih => simp [SMap.get, h e (by simp), ih (fun x hx => h x (by simp [hx]))]

theorem SMap.get_del_self (d : α) (m : SMap α) (k : Nat) : SMap.get d (SMap.del m k) k = d := by
  induction m with
  | nil => rfl
  | cons e m ih =>
    obtain ⟨j, x⟩ := e
    by_cases h : j = k <;> simp [SMap.del, SMap.get, h, ih]

theorem SMap.get_del_other (d : α) (m : SMap α) {j k : Nat} (h : j ≠ k) : SMap.get d (SMap.del m k) j = SMap.get d m j := by
  induction m with
  | nil => rfl
  | cons e m ih =>
    obtain ⟨i, x⟩ := e
    by_cases hk : i = k
    · have : i ≠ j := fun hi => h (hi ▸ hk)
      simp [SMap.del, SMap.get, hk, ih, Ne.symm h]
    · simp [SMap.del, SMap.get, hk, ih]

theorem SMap.get_ins_self (d v : α) (m : SMap α) (k : Nat) (h : ∀ e ∈ m, e.1 ≠ k) : SMap.get d (SMap.ins k v m) k = v := by
  induction m with
  | nil => simp [SMap.ins, SMap.get]
  | cons e m ih =>
    obtain ⟨j, x⟩ := e
    have hj : j ≠ k := h (j, x) (by simp)
    by_cases hk : k < j
    · simp [SMap.ins, SMap.get, hk]
    · simp [SMap.ins, SMap.get, hk, hj, ih (fun e he => h e (by simp [he]))]

theorem SMap.get_ins_other (d v : α) (m : SMap α) {j k : Nat} (h : j ≠ k) : SMap.get d (SMap.ins k v m) j = SMap.get d m j := by
  induction m with
  | nil => simp [SMap.ins, SMap.get, Ne.symm h]
  | cons e m ih =>
    obtain ⟨i, x⟩ := e
    by_cases hk : k < i
    · simp [SMap.ins, SMap.get, hk, Ne.symm h]
    · by_cases hi : i = j
      · subst hi; simp [SMap.ins, SMap.get, hk]
      · simp [SMap.ins, SMap.get, hk, hi, ih]

theorem SMap.del_keys (m : SMap α) (k : Nat) : ∀ e ∈ SMap.del m k, e.1 ≠ k := by
  induction m with
  | nil => simp [SMap.del]
  | cons e m ih =>
    obtain ⟨j, x⟩ := e
    by_cases h : j = k
    · simpa [SMap.del, h] using ih
    · intro e he
      simp only [SMap.del, h, if_false, List.mem_cons] at he
      rcases he with rfl | he
      · exact h
      · exact ih e he

/-- A read of the key just written gives the value written. -/
@[simp] theorem SMap.get_set_self [DecidableEq α] (d v : α) (m : SMap α) (k : Nat) : SMap.get d (SMap.set d m k v) k = v := by
  by_cases h : v = d
  · simp [SMap.set, h, SMap.get_del_self]
  · simp [SMap.set, h, SMap.get_ins_self d v _ k (SMap.del_keys m k)]

/-- A write leaves every other key alone. -/
theorem SMap.get_set_other [DecidableEq α] (d v : α) (m : SMap α) {j k : Nat} (h : j ≠ k) :
    SMap.get d (SMap.set d m k v) j = SMap.get d m j := by
  by_cases hv : v = d
  · simp [SMap.set, hv, SMap.get_del_other d m h]
  · simp [SMap.set, hv, SMap.get_ins_other d v _ h, SMap.get_del_other d m h]

/-- A write leaves every other key alone, whatever that key's own default is. -/
theorem SMap.get_set_apart [DecidableEq α] (d d' v : α) (m : SMap α) {j k : Nat} (h : j ≠ k) :
    SMap.get d' (SMap.set d m k v) j = SMap.get d' m j := by
  by_cases hv : v = d
  · simp [SMap.set, hv, SMap.get_del_other d' m h]
  · simp [SMap.set, hv, SMap.get_ins_other d' v _ h, SMap.get_del_other d' m h]

/-- A read after a write, either way. -/
theorem SMap.get_set [DecidableEq α] (d v : α) (m : SMap α) (j k : Nat) :
    SMap.get d (SMap.set d m k v) j = if j = k then v else SMap.get d m j := by
  by_cases h : j = k
  · subst h; simp
  · simp [SMap.get_set_other d v m h, h]

theorem SMap.del_sublist (m : SMap α) (k : Nat) : (SMap.del m k).Sublist m := by
  induction m with
  | nil => exact List.Sublist.refl _
  | cons e m ih =>
    obtain ⟨j, x⟩ := e
    by_cases h : j = k
    · simpa [SMap.del, h] using ih.cons _
    · simp only [SMap.del, h, if_false]
      exact ih.cons_cons _

theorem SMap.Good.sub {d : α} {m m' : SMap α} (h : SMap.Good d m) (s : m'.Sublist m) : SMap.Good d m' :=
  ⟨h.1.sublist s, fun e he => h.2 e (s.subset he)⟩

theorem SMap.Good.del {d : α} {m : SMap α} (h : SMap.Good d m) (k : Nat) : SMap.Good d (SMap.del m k) := h.sub (SMap.del_sublist m k)

theorem SMap.mem_ins (k : Nat) (v : α) (m : SMap α) (e : Nat × α) (h : e ∈ SMap.ins k v m) : e = (k, v) ∨ e ∈ m := by
  induction m with
  | nil => simpa [SMap.ins] using h
  | cons x m ih =>
    obtain ⟨j, y⟩ := x
    by_cases hk : k < j
    · simpa [SMap.ins, hk] using h
    · simp only [SMap.ins, hk, if_false, List.mem_cons] at h
      rcases h with h | h
      · exact .inr (by simp [h])
      · exact (ih h).imp id (fun h => by simp [h])

theorem SMap.Good.ins {d v : α} {m : SMap α} {k : Nat} (h : SMap.Good d m) (hv : v ≠ d) (hk : ∀ e ∈ m, e.1 ≠ k) :
    SMap.Good d (SMap.ins k v m) := by
  refine ⟨?_, fun e he => (SMap.mem_ins k v m e he).elim (fun h => by simpa [h] using hv) (h.2 e)⟩
  obtain ⟨hs, -⟩ := h
  induction m with
  | nil => simp [SMap.ins]
  | cons x m ih =>
    obtain ⟨j, y⟩ := x
    have hj : j ≠ k := hk (j, y) (by simp)
    rw [List.pairwise_cons] at hs
    by_cases hlt : k < j
    · simp only [SMap.ins, hlt, if_true, List.pairwise_cons, List.mem_cons]
      refine ⟨fun e he => ?_, hs.1, hs.2⟩
      rcases he with rfl | he
      · exact hlt
      · exact lt_trans hlt (hs.1 e he)
    · simp only [SMap.ins, hlt, if_false, List.pairwise_cons]
      refine ⟨fun e he => ?_, ih (fun e he => hk e (by simp [he])) hs.2⟩
      rcases SMap.mem_ins k v m e he with rfl | he
      · exact lt_of_le_of_ne (not_lt.mp hlt) hj
      · exact hs.1 e he

/-- A write keeps the canonical form. -/
theorem SMap.Good.set [DecidableEq α] {d : α} {m : SMap α} (h : SMap.Good d m) (k : Nat) (v : α) : SMap.Good d (SMap.set d m k v) := by
  by_cases hv : v = d
  · simpa [SMap.set, hv] using h.del k
  · simpa [SMap.set, hv] using (h.del k).ins hv (SMap.del_keys m k)

/-- Returning keys to the default keeps the canonical form. -/
theorem SMap.Good.keep {d : α} {m : SMap α} (h : SMap.Good d m) (p : Nat → Bool) : SMap.Good d (SMap.keep p m) :=
  h.sub List.filter_sublist

/-- What is kept reads as before; what is not reads as the default. -/
theorem SMap.get_keep (d : α) (p : Nat → Bool) (m : SMap α) (k : Nat) :
    SMap.get d (SMap.keep p m) k = if p k then SMap.get d m k else d := by
  induction m with
  | nil => simp [SMap.keep]
  | cons e m ih =>
    obtain ⟨j, x⟩ := e
    unfold SMap.keep at ih ⊢
    by_cases hp : p j
    · by_cases hj : j = k
      · subst hj; simp [hp, SMap.get]
      · simp [hp, SMap.get, hj, ih]
    · by_cases hj : j = k
      · subst hj; simp [hp, ih]
      · simp [hp, SMap.get, hj, ih]

end

/-! ## Byte memories -/

/-- Bytes written keep the canonical form. -/
theorem writeBytes_good {m : List Host.Cell} (h : SMap.Good (0 : Byte) m) (a : Nat) (bs : List Byte) : SMap.Good (0 : Byte) (writeBytes m a bs) := by
  induction bs generalizing m a with
  | nil => exact h
  | cons b bs ih => exact ih (h.set a b) (a + 1)

/-- A byte outside the bytes written reads as before. -/
theorem get_writeBytes_outside (m : List Host.Cell) (a : Nat) (bs : List Byte) (k : Nat) (h : k < a ∨ a + bs.length ≤ k) :
    SMap.get (0 : Byte) (writeBytes m a bs) k = SMap.get (0 : Byte) m k := by
  induction bs generalizing m a with
  | nil => rfl
  | cons b bs ih =>
    simp only [List.length_cons] at h
    rw [writeBytes, ih _ _ (by omega), SMap.get_set_other _ _ _ (by omega)]

/-- A byte written reads as it was written. -/
theorem get_writeBytes_inside (m : List Host.Cell) (a : Nat) (bs : List Byte) (i : Nat) (h : i < bs.length) :
    SMap.get (0 : Byte) (writeBytes m a bs) (a + i) = bs[i] := by
  induction bs generalizing m a i with
  | nil => simp at h
  | cons b bs ih =>
    cases i with
    | zero => rw [writeBytes, get_writeBytes_outside _ _ _ _ (by omega)]; simp
    | succ i =>
      have := ih (m := SMap.set 0 m a b) (a := a + 1) (i := i) (by simpa using h)
      rw [writeBytes, show a + (i + 1) = a + 1 + i by omega, this]; simp

/-- The bytes of a read are the bytes at its addresses. -/
theorem readBytes_eq (m : List Host.Cell) (a n : Nat) : readBytes m a n = (List.range n).map (fun i => SMap.get (0 : Byte) m (a + i)) := by
  induction n generalizing a with
  | zero => rfl
  | succ n ih =>
    rw [readBytes, ih, List.range_succ_eq_map, List.map_cons, List.map_map]
    congr 1
    exact List.map_congr_left (fun i _ => by simp [Nat.add_assoc, Nat.add_comm 1])

/-- Bytes just written are read back. -/
theorem readBytes_writeBytes (m : List Host.Cell) (a : Nat) (bs : List Byte) : readBytes (writeBytes m a bs) a bs.length = bs := by
  rw [readBytes_eq]
  apply List.ext_getElem
  · simp
  · intro i h1 h2
    have := get_writeBytes_inside m a bs i h2
    simpa using this

/-- A read apart from the bytes written gives what it gave before. -/
theorem readBytes_writeBytes_apart (m : List Host.Cell) (a : Nat) (bs : List Byte) (b n : Nat) (h : b + n ≤ a ∨ a + bs.length ≤ b) :
    readBytes (writeBytes m a bs) b n = readBytes m b n := by
  rw [readBytes_eq, readBytes_eq]
  refine List.map_congr_left (fun i hi => get_writeBytes_outside _ _ _ _ ?_)
  have := List.mem_range.mp hi
  omega

end Sys2Proof.Machine
end

