-- ==== Sys2Proof/Laws/Fields.lean ====
section
/-! SUPPORT. Laws of register fields: a field read after a field written, in a word and in both register files. -/

namespace Sys2Proof.Machine

theorem bits_lt (x lo w : Nat) : bits x lo w < 2 ^ w := Nat.mod_lt _ (Nat.two_pow_pos w)

theorem setBits_eq (x lo w v : Nat) : setBits x lo w v = x % 2 ^ lo + 2 ^ lo * (v % 2 ^ w + 2 ^ w * (x / 2 ^ (lo + w))) := rfl

/-- The field written reads back. -/
theorem bits_setBits_self (x lo w v : Nat) : bits (setBits x lo w v) lo w = v % 2 ^ w := by
  have h1 : (x % 2 ^ lo + 2 ^ lo * (v % 2 ^ w + 2 ^ w * (x / 2 ^ (lo + w)))) / 2 ^ lo
      = v % 2 ^ w + 2 ^ w * (x / 2 ^ (lo + w)) := by
    rw [Nat.add_mul_div_left _ _ (Nat.two_pow_pos lo), Nat.div_eq_of_lt (Nat.mod_lt _ (Nat.two_pow_pos lo)), Nat.zero_add]
  rw [bits, setBits_eq, h1, Nat.add_mul_mod_self_left, Nat.mod_mod]

theorem testBit_bits (x lo w i : Nat) : (bits x lo w).testBit i = (decide (i < w) && x.testBit (lo + i)) := by
  simp [bits, Nat.testBit_mod_two_pow, Nat.testBit_div_two_pow, Nat.add_comm]

theorem testBit_setBits (x lo w v i : Nat) :
    (setBits x lo w v).testBit i = if i < lo then x.testBit i else if i < lo + w then v.testBit (i - lo) else x.testBit i := by
  have hx : x % 2 ^ lo < 2 ^ lo := Nat.mod_lt _ (Nat.two_pow_pos lo)
  have hv : v % 2 ^ w < 2 ^ w := Nat.mod_lt _ (Nat.two_pow_pos w)
  rw [setBits_eq, Nat.add_comm (x % 2 ^ lo), Nat.testBit_two_pow_mul_add _ hx]
  by_cases h1 : i < lo
  · simp [h1, Nat.testBit_mod_two_pow]
  · rw [if_neg h1, if_neg h1, Nat.add_comm (v % 2 ^ w), Nat.testBit_two_pow_mul_add _ hv]
    by_cases h2 : i < lo + w
    · have : i - lo < w := by omega
      simp [h2, this, Nat.testBit_mod_two_pow]
    · have : ¬ i - lo < w := by omega
      simp [h2, this, Nat.testBit_div_two_pow]
      congr 1; omega

/-- Another field reads as before. -/
theorem bits_setBits_apart (x lo w v lo' w' : Nat) (h : lo' + w' ≤ lo ∨ lo + w ≤ lo') : bits (setBits x lo w v) lo' w' = bits x lo' w' := by
  apply Nat.eq_of_testBit_eq
  intro i
  rw [testBit_bits, testBit_bits, testBit_setBits]
  by_cases hi : i < w'
  · have h1 : (lo' + i < lo) ∨ ¬ (lo' + i < lo + w) := by omega
    rcases h1 with h1 | h1
    · simp [h1]
    · have : ¬ lo' + i < lo := by omega
      simp [h1, this]
  · simp [hi]

theorem setBits_lt (x lo w v n : Nat) (hx : x < 2 ^ n) (h : lo + w ≤ n) : setBits x lo w v < 2 ^ n := by
  apply Nat.lt_pow_two_of_testBit
  intro i hi
  rw [testBit_setBits, if_neg (by omega), if_neg (by omega)]
  exact Nat.testBit_lt_two_pow (lt_of_lt_of_le hx (Nat.pow_le_pow_right (by norm_num) hi))

theorem fldSet_toNat (f : Fld) (x : Word) (v : Nat) (hf : f.lo + f.w ≤ 64) : (fldSet f x v).toNat = setBits x.toNat f.lo f.w v := by
  rw [fldSet, BitVec.toNat_ofNat, Nat.mod_eq_of_lt (setBits_lt _ _ _ _ _ x.isLt hf)]

/-- The field written reads back, cut to its width. -/
theorem fldGet_fldSet_self (f : Fld) (x : Word) (v : Nat) (hf : f.lo + f.w ≤ 64) : fldGet f (fldSet f x v) = v % 2 ^ f.w := by
  rw [fldGet, fldSet_toNat f x v hf, bits_setBits_self]

/-- Another field of the word reads as before. -/
theorem fldGet_fldSet_apart (f g : Fld) (x : Word) (v : Nat) (hf : f.lo + f.w ≤ 64) (h : g.lo + g.w ≤ f.lo ∨ f.lo + f.w ≤ g.lo) :
    fldGet g (fldSet f x v) = fldGet g x := by
  rw [fldGet, fldSet_toNat f x v hf, bits_setBits_apart _ _ _ _ _ _ h, fldGet]

/-- A field fits its width. -/
theorem fldGet_lt (f : Fld) (x : Word) : fldGet f x < 2 ^ f.w := bits_lt _ _ _

/-! ## The register files -/

theorem Core.cword_setCword (c : Core) (off off' : Nat) (x : Word) :
    (c.setCword off x).cword off' = if off' = off then x else c.cword off' := by
  unfold Core.cword Core.setCword
  by_cases h : off' = off
  · subst h; simp
  · simp [h, SMap.get_set_apart _ _ _ _ h]

theorem Core.rd_wr_self (c : Core) (f : Fld) (v : Nat) (hf : f.lo + f.w ≤ 64) : (c.wr f v).rd f = v % 2 ^ f.w := by
  unfold Core.rd Core.wr
  rw [Core.cword_setCword, if_pos rfl, fldGet_fldSet_self f _ _ hf]

/-- Two fields that share no bit: another register, or apart in one. -/
def Fld.apart (f g : Fld) : Bool := decide (f.off ≠ g.off) || decide (f.lo + f.w ≤ g.lo) || decide (g.lo + g.w ≤ f.lo)

theorem Core.rd_wr_apart (c : Core) (f g : Fld) (v : Nat) (hf : f.lo + f.w ≤ 64) (h : f.apart g = true) : (c.wr f v).rd g = c.rd g := by
  unfold Core.rd Core.wr
  rw [Core.cword_setCword]
  by_cases ho : g.off = f.off
  · rw [if_pos ho, ho]
    have : g.lo + g.w ≤ f.lo ∨ f.lo + f.w ≤ g.lo := by
      simp [Fld.apart, ho] at h; omega
    exact fldGet_fldSet_apart f g _ v hf this
  · rw [if_neg ho]

theorem Core.rd_lt (c : Core) (f : Fld) : c.rd f < 2 ^ f.w := fldGet_lt _ _

theorem tileKey_inj {t t' off off' : Nat} (h : off < 0x4000) (h' : off' < 0x4000) (e : tileKey t off = tileKey t' off') : t = t' ∧ off = off' := by
  unfold tileKey at e; omega

theorem Core.tword_setTword (c : Core) (t t' off off' : Nat) (x : Word) (h : off < 0x4000) (h' : off' < 0x4000) :
    (c.setTword t off x).tword t' off' = if t' = t ∧ off' = off then x else c.tword t' off' := by
  unfold Core.tword Core.setTword
  by_cases hc : t' = t ∧ off' = off
  · obtain ⟨rfl, rfl⟩ := hc; simp
  · rw [if_neg hc]
    exact SMap.get_set_apart _ _ _ _ (fun e => hc (tileKey_inj h' h e))

theorem Core.trd_twr_self (c : Core) (t : Nat) (f : Fld) (v : Nat) (hf : f.lo + f.w ≤ 64) (ho : f.off < 0x4000) :
    (c.twr t f v).trd t f = v % 2 ^ f.w := by
  unfold Core.trd Core.twr
  rw [Core.tword_setTword _ _ _ _ _ _ ho ho, if_pos ⟨rfl, rfl⟩, fldGet_fldSet_self f _ _ hf]

theorem Core.trd_twr_apart (c : Core) (t t' : Nat) (f g : Fld) (v : Nat) (hf : f.lo + f.w ≤ 64) (ho : f.off < 0x4000) (hg : g.off < 0x4000)
    (h : t' ≠ t ∨ f.apart g = true) : (c.twr t f v).trd t' g = c.trd t' g := by
  unfold Core.trd Core.twr
  rw [Core.tword_setTword _ _ _ _ _ _ ho hg]
  by_cases hc : t' = t ∧ g.off = f.off
  · rw [if_pos hc]
    have h2 : f.apart g = true := h.resolve_left (fun hn => hn hc.1)
    have : g.lo + g.w ≤ f.lo ∨ f.lo + f.w ≤ g.lo := by
      simp [Fld.apart, hc.2] at h2; omega
    rw [hc.1, hc.2]
    exact fldGet_fldSet_apart f g _ v hf this
  · rw [if_neg hc]

/-- A word written in one file leaves the other file's fields as they were. -/
@[simp] theorem Core.trd_wr (c : Core) (f : Fld) (v : Nat) (t : Nat) (g : Fld) : (c.wr f v).trd t g = c.trd t g := rfl
@[simp] theorem Core.rd_twr (c : Core) (t : Nat) (f : Fld) (v : Nat) (g : Fld) : (c.twr t f v).rd g = c.rd g := rfl
@[simp] theorem Core.trd_setCword (c : Core) (off : Nat) (x : Word) (t : Nat) (g : Fld) : (c.setCword off x).trd t g = c.trd t g := rfl
@[simp] theorem Core.rd_setTword (c : Core) (t off : Nat) (x : Word) (g : Fld) : (c.setTword t off x).rd g = c.rd g := rfl

end Sys2Proof.Machine
end

