-- ==== Sys2Proof/Laws/State.lean ====
section
/-! SUPPORT. Reads of every field of the state after each of its updates. -/

namespace Sys2Proof.Machine

/-! ## A chiplet register word written -/

@[simp] theorem Core.setCword_treg (c : Core) (off : Nat) (x : Word) : (c.setCword off x).treg = c.treg := rfl
@[simp] theorem Core.setCword_queues (c : Core) (off : Nat) (x : Word) : (c.setCword off x).queues = c.queues := rfl
@[simp] theorem Core.setCword_tiles (c : Core) (off : Nat) (x : Word) : (c.setCword off x).tiles = c.tiles := rfl
@[simp] theorem Core.setCword_net (c : Core) (off : Nat) (x : Word) : (c.setCword off x).net = c.net := rfl
@[simp] theorem Core.setCword_ports (c : Core) (off : Nat) (x : Word) : (c.setCword off x).ports = c.ports := rfl
@[simp] theorem Core.setCword_lar (c : Core) (off : Nat) (x : Word) : (c.setCword off x).lar = c.lar := rfl
@[simp] theorem Core.setCword_bell (c : Core) (off : Nat) (x : Word) : (c.setCword off x).bell = c.bell := rfl
@[simp] theorem Core.setCword_led (c : Core) (off : Nat) (x : Word) : (c.setCword off x).led = c.led := rfl
@[simp] theorem Core.setCword_wgh (c : Core) (off : Nat) (x : Word) : (c.setCword off x).wgh = c.wgh := rfl
@[simp] theorem Core.setCword_tmb (c : Core) (off : Nat) (x : Word) : (c.setCword off x).tmb = c.tmb := rfl
@[simp] theorem Core.setCword_mb (c : Core) (off : Nat) (x : Word) : (c.setCword off x).mb = c.mb := rfl
@[simp] theorem Core.setCword_fw (c : Core) (off : Nat) (x : Word) : (c.setCword off x).fw = c.fw := rfl
@[simp] theorem Core.setCword_cry (c : Core) (off : Nat) (x : Word) : (c.setCword off x).cry = c.cry := rfl
@[simp] theorem Core.setCword_hm (c : Core) (off : Nat) (x : Word) : (c.setCword off x).hm = c.hm := rfl
@[simp] theorem Core.setCword_log (c : Core) (off : Nat) (x : Word) : (c.setCword off x).log = c.log := rfl
@[simp] theorem Core.setCword_free (c : Core) (off : Nat) (x : Word) : (c.setCword off x).free = c.free := rfl
@[simp] theorem Core.setCword_lastRead (c : Core) (off : Nat) (x : Word) : (c.setCword off x).lastRead = c.lastRead := rfl

/-! ## A tile register word written -/

@[simp] theorem Core.setTword_creg (c : Core) (t off : Nat) (x : Word) : (c.setTword t off x).creg = c.creg := rfl
@[simp] theorem Core.setTword_queues (c : Core) (t off : Nat) (x : Word) : (c.setTword t off x).queues = c.queues := rfl
@[simp] theorem Core.setTword_tiles (c : Core) (t off : Nat) (x : Word) : (c.setTword t off x).tiles = c.tiles := rfl
@[simp] theorem Core.setTword_net (c : Core) (t off : Nat) (x : Word) : (c.setTword t off x).net = c.net := rfl
@[simp] theorem Core.setTword_ports (c : Core) (t off : Nat) (x : Word) : (c.setTword t off x).ports = c.ports := rfl
@[simp] theorem Core.setTword_lar (c : Core) (t off : Nat) (x : Word) : (c.setTword t off x).lar = c.lar := rfl
@[simp] theorem Core.setTword_bell (c : Core) (t off : Nat) (x : Word) : (c.setTword t off x).bell = c.bell := rfl
@[simp] theorem Core.setTword_led (c : Core) (t off : Nat) (x : Word) : (c.setTword t off x).led = c.led := rfl
@[simp] theorem Core.setTword_wgh (c : Core) (t off : Nat) (x : Word) : (c.setTword t off x).wgh = c.wgh := rfl
@[simp] theorem Core.setTword_tmb (c : Core) (t off : Nat) (x : Word) : (c.setTword t off x).tmb = c.tmb := rfl
@[simp] theorem Core.setTword_mb (c : Core) (t off : Nat) (x : Word) : (c.setTword t off x).mb = c.mb := rfl
@[simp] theorem Core.setTword_fw (c : Core) (t off : Nat) (x : Word) : (c.setTword t off x).fw = c.fw := rfl
@[simp] theorem Core.setTword_cry (c : Core) (t off : Nat) (x : Word) : (c.setTword t off x).cry = c.cry := rfl
@[simp] theorem Core.setTword_hm (c : Core) (t off : Nat) (x : Word) : (c.setTword t off x).hm = c.hm := rfl
@[simp] theorem Core.setTword_log (c : Core) (t off : Nat) (x : Word) : (c.setTword t off x).log = c.log := rfl
@[simp] theorem Core.setTword_free (c : Core) (t off : Nat) (x : Word) : (c.setTword t off x).free = c.free := rfl
@[simp] theorem Core.setTword_lastRead (c : Core) (t off : Nat) (x : Word) : (c.setTword t off x).lastRead = c.lastRead := rfl

/-! ## A chiplet field written -/

@[simp] theorem Core.wr_treg (c : Core) (f : Fld) (v : Nat) : (c.wr f v).treg = c.treg := rfl
@[simp] theorem Core.wr_queues (c : Core) (f : Fld) (v : Nat) : (c.wr f v).queues = c.queues := rfl
@[simp] theorem Core.wr_tiles (c : Core) (f : Fld) (v : Nat) : (c.wr f v).tiles = c.tiles := rfl
@[simp] theorem Core.wr_net (c : Core) (f : Fld) (v : Nat) : (c.wr f v).net = c.net := rfl
@[simp] theorem Core.wr_ports (c : Core) (f : Fld) (v : Nat) : (c.wr f v).ports = c.ports := rfl
@[simp] theorem Core.wr_lar (c : Core) (f : Fld) (v : Nat) : (c.wr f v).lar = c.lar := rfl
@[simp] theorem Core.wr_bell (c : Core) (f : Fld) (v : Nat) : (c.wr f v).bell = c.bell := rfl
@[simp] theorem Core.wr_led (c : Core) (f : Fld) (v : Nat) : (c.wr f v).led = c.led := rfl
@[simp] theorem Core.wr_wgh (c : Core) (f : Fld) (v : Nat) : (c.wr f v).wgh = c.wgh := rfl
@[simp] theorem Core.wr_tmb (c : Core) (f : Fld) (v : Nat) : (c.wr f v).tmb = c.tmb := rfl
@[simp] theorem Core.wr_mb (c : Core) (f : Fld) (v : Nat) : (c.wr f v).mb = c.mb := rfl
@[simp] theorem Core.wr_fw (c : Core) (f : Fld) (v : Nat) : (c.wr f v).fw = c.fw := rfl
@[simp] theorem Core.wr_cry (c : Core) (f : Fld) (v : Nat) : (c.wr f v).cry = c.cry := rfl
@[simp] theorem Core.wr_hm (c : Core) (f : Fld) (v : Nat) : (c.wr f v).hm = c.hm := rfl
@[simp] theorem Core.wr_log (c : Core) (f : Fld) (v : Nat) : (c.wr f v).log = c.log := rfl
@[simp] theorem Core.wr_free (c : Core) (f : Fld) (v : Nat) : (c.wr f v).free = c.free := rfl
@[simp] theorem Core.wr_lastRead (c : Core) (f : Fld) (v : Nat) : (c.wr f v).lastRead = c.lastRead := rfl

/-! ## A tile field written -/

@[simp] theorem Core.twr_creg (c : Core) (t : Nat) (f : Fld) (v : Nat) : (c.twr t f v).creg = c.creg := rfl
@[simp] theorem Core.twr_queues (c : Core) (t : Nat) (f : Fld) (v : Nat) : (c.twr t f v).queues = c.queues := rfl
@[simp] theorem Core.twr_tiles (c : Core) (t : Nat) (f : Fld) (v : Nat) : (c.twr t f v).tiles = c.tiles := rfl
@[simp] theorem Core.twr_net (c : Core) (t : Nat) (f : Fld) (v : Nat) : (c.twr t f v).net = c.net := rfl
@[simp] theorem Core.twr_ports (c : Core) (t : Nat) (f : Fld) (v : Nat) : (c.twr t f v).ports = c.ports := rfl
@[simp] theorem Core.twr_lar (c : Core) (t : Nat) (f : Fld) (v : Nat) : (c.twr t f v).lar = c.lar := rfl
@[simp] theorem Core.twr_bell (c : Core) (t : Nat) (f : Fld) (v : Nat) : (c.twr t f v).bell = c.bell := rfl
@[simp] theorem Core.twr_led (c : Core) (t : Nat) (f : Fld) (v : Nat) : (c.twr t f v).led = c.led := rfl
@[simp] theorem Core.twr_wgh (c : Core) (t : Nat) (f : Fld) (v : Nat) : (c.twr t f v).wgh = c.wgh := rfl
@[simp] theorem Core.twr_tmb (c : Core) (t : Nat) (f : Fld) (v : Nat) : (c.twr t f v).tmb = c.tmb := rfl
@[simp] theorem Core.twr_mb (c : Core) (t : Nat) (f : Fld) (v : Nat) : (c.twr t f v).mb = c.mb := rfl
@[simp] theorem Core.twr_fw (c : Core) (t : Nat) (f : Fld) (v : Nat) : (c.twr t f v).fw = c.fw := rfl
@[simp] theorem Core.twr_cry (c : Core) (t : Nat) (f : Fld) (v : Nat) : (c.twr t f v).cry = c.cry := rfl
@[simp] theorem Core.twr_hm (c : Core) (t : Nat) (f : Fld) (v : Nat) : (c.twr t f v).hm = c.hm := rfl
@[simp] theorem Core.twr_log (c : Core) (t : Nat) (f : Fld) (v : Nat) : (c.twr t f v).log = c.log := rfl
@[simp] theorem Core.twr_free (c : Core) (t : Nat) (f : Fld) (v : Nat) : (c.twr t f v).free = c.free := rfl
@[simp] theorem Core.twr_lastRead (c : Core) (t : Nat) (f : Fld) (v : Nat) : (c.twr t f v).lastRead = c.lastRead := rfl

/-! ## A chiplet field counted up -/

@[simp] theorem Core.bump_treg (c : Core) (f : Fld) (n : Nat) : (c.bump f n).treg = c.treg := rfl
@[simp] theorem Core.bump_queues (c : Core) (f : Fld) (n : Nat) : (c.bump f n).queues = c.queues := rfl
@[simp] theorem Core.bump_tiles (c : Core) (f : Fld) (n : Nat) : (c.bump f n).tiles = c.tiles := rfl
@[simp] theorem Core.bump_net (c : Core) (f : Fld) (n : Nat) : (c.bump f n).net = c.net := rfl
@[simp] theorem Core.bump_ports (c : Core) (f : Fld) (n : Nat) : (c.bump f n).ports = c.ports := rfl
@[simp] theorem Core.bump_lar (c : Core) (f : Fld) (n : Nat) : (c.bump f n).lar = c.lar := rfl
@[simp] theorem Core.bump_bell (c : Core) (f : Fld) (n : Nat) : (c.bump f n).bell = c.bell := rfl
@[simp] theorem Core.bump_led (c : Core) (f : Fld) (n : Nat) : (c.bump f n).led = c.led := rfl
@[simp] theorem Core.bump_wgh (c : Core) (f : Fld) (n : Nat) : (c.bump f n).wgh = c.wgh := rfl
@[simp] theorem Core.bump_tmb (c : Core) (f : Fld) (n : Nat) : (c.bump f n).tmb = c.tmb := rfl
@[simp] theorem Core.bump_mb (c : Core) (f : Fld) (n : Nat) : (c.bump f n).mb = c.mb := rfl
@[simp] theorem Core.bump_fw (c : Core) (f : Fld) (n : Nat) : (c.bump f n).fw = c.fw := rfl
@[simp] theorem Core.bump_cry (c : Core) (f : Fld) (n : Nat) : (c.bump f n).cry = c.cry := rfl
@[simp] theorem Core.bump_hm (c : Core) (f : Fld) (n : Nat) : (c.bump f n).hm = c.hm := rfl
@[simp] theorem Core.bump_log (c : Core) (f : Fld) (n : Nat) : (c.bump f n).log = c.log := rfl
@[simp] theorem Core.bump_free (c : Core) (f : Fld) (n : Nat) : (c.bump f n).free = c.free := rfl
@[simp] theorem Core.bump_lastRead (c : Core) (f : Fld) (n : Nat) : (c.bump f n).lastRead = c.lastRead := rfl

/-! ## A tile field counted up -/

@[simp] theorem Core.tbump_creg (c : Core) (t : Nat) (f : Fld) (n : Nat) : (c.tbump t f n).creg = c.creg := rfl
@[simp] theorem Core.tbump_queues (c : Core) (t : Nat) (f : Fld) (n : Nat) : (c.tbump t f n).queues = c.queues := rfl
@[simp] theorem Core.tbump_tiles (c : Core) (t : Nat) (f : Fld) (n : Nat) : (c.tbump t f n).tiles = c.tiles := rfl
@[simp] theorem Core.tbump_net (c : Core) (t : Nat) (f : Fld) (n : Nat) : (c.tbump t f n).net = c.net := rfl
@[simp] theorem Core.tbump_ports (c : Core) (t : Nat) (f : Fld) (n : Nat) : (c.tbump t f n).ports = c.ports := rfl
@[simp] theorem Core.tbump_lar (c : Core) (t : Nat) (f : Fld) (n : Nat) : (c.tbump t f n).lar = c.lar := rfl
@[simp] theorem Core.tbump_bell (c : Core) (t : Nat) (f : Fld) (n : Nat) : (c.tbump t f n).bell = c.bell := rfl
@[simp] theorem Core.tbump_led (c : Core) (t : Nat) (f : Fld) (n : Nat) : (c.tbump t f n).led = c.led := rfl
@[simp] theorem Core.tbump_wgh (c : Core) (t : Nat) (f : Fld) (n : Nat) : (c.tbump t f n).wgh = c.wgh := rfl
@[simp] theorem Core.tbump_tmb (c : Core) (t : Nat) (f : Fld) (n : Nat) : (c.tbump t f n).tmb = c.tmb := rfl
@[simp] theorem Core.tbump_mb (c : Core) (t : Nat) (f : Fld) (n : Nat) : (c.tbump t f n).mb = c.mb := rfl
@[simp] theorem Core.tbump_fw (c : Core) (t : Nat) (f : Fld) (n : Nat) : (c.tbump t f n).fw = c.fw := rfl
@[simp] theorem Core.tbump_cry (c : Core) (t : Nat) (f : Fld) (n : Nat) : (c.tbump t f n).cry = c.cry := rfl
@[simp] theorem Core.tbump_hm (c : Core) (t : Nat) (f : Fld) (n : Nat) : (c.tbump t f n).hm = c.hm := rfl
@[simp] theorem Core.tbump_log (c : Core) (t : Nat) (f : Fld) (n : Nat) : (c.tbump t f n).log = c.log := rfl
@[simp] theorem Core.tbump_free (c : Core) (t : Nat) (f : Fld) (n : Nat) : (c.tbump t f n).free = c.free := rfl
@[simp] theorem Core.tbump_lastRead (c : Core) (t : Nat) (f : Fld) (n : Nat) : (c.tbump t f n).lastRead = c.lastRead := rfl

/-! ## A chiplet field counted up, wrapping -/

@[simp] theorem Core.bumpWrap_treg (c : Core) (f : Fld) (n : Nat) : (c.bumpWrap f n).treg = c.treg := rfl
@[simp] theorem Core.bumpWrap_queues (c : Core) (f : Fld) (n : Nat) : (c.bumpWrap f n).queues = c.queues := rfl
@[simp] theorem Core.bumpWrap_tiles (c : Core) (f : Fld) (n : Nat) : (c.bumpWrap f n).tiles = c.tiles := rfl
@[simp] theorem Core.bumpWrap_net (c : Core) (f : Fld) (n : Nat) : (c.bumpWrap f n).net = c.net := rfl
@[simp] theorem Core.bumpWrap_ports (c : Core) (f : Fld) (n : Nat) : (c.bumpWrap f n).ports = c.ports := rfl
@[simp] theorem Core.bumpWrap_lar (c : Core) (f : Fld) (n : Nat) : (c.bumpWrap f n).lar = c.lar := rfl
@[simp] theorem Core.bumpWrap_bell (c : Core) (f : Fld) (n : Nat) : (c.bumpWrap f n).bell = c.bell := rfl
@[simp] theorem Core.bumpWrap_led (c : Core) (f : Fld) (n : Nat) : (c.bumpWrap f n).led = c.led := rfl
@[simp] theorem Core.bumpWrap_wgh (c : Core) (f : Fld) (n : Nat) : (c.bumpWrap f n).wgh = c.wgh := rfl
@[simp] theorem Core.bumpWrap_tmb (c : Core) (f : Fld) (n : Nat) : (c.bumpWrap f n).tmb = c.tmb := rfl
@[simp] theorem Core.bumpWrap_mb (c : Core) (f : Fld) (n : Nat) : (c.bumpWrap f n).mb = c.mb := rfl
@[simp] theorem Core.bumpWrap_fw (c : Core) (f : Fld) (n : Nat) : (c.bumpWrap f n).fw = c.fw := rfl
@[simp] theorem Core.bumpWrap_cry (c : Core) (f : Fld) (n : Nat) : (c.bumpWrap f n).cry = c.cry := rfl
@[simp] theorem Core.bumpWrap_hm (c : Core) (f : Fld) (n : Nat) : (c.bumpWrap f n).hm = c.hm := rfl
@[simp] theorem Core.bumpWrap_log (c : Core) (f : Fld) (n : Nat) : (c.bumpWrap f n).log = c.log := rfl
@[simp] theorem Core.bumpWrap_free (c : Core) (f : Fld) (n : Nat) : (c.bumpWrap f n).free = c.free := rfl
@[simp] theorem Core.bumpWrap_lastRead (c : Core) (f : Fld) (n : Nat) : (c.bumpWrap f n).lastRead = c.lastRead := rfl

/-! ## A command replaced -/

@[simp] theorem Core.putCmd_creg (c : Core) (m : Cmd) : (c.putCmd m).creg = c.creg := rfl
@[simp] theorem Core.putCmd_treg (c : Core) (m : Cmd) : (c.putCmd m).treg = c.treg := rfl
@[simp] theorem Core.putCmd_tiles (c : Core) (m : Cmd) : (c.putCmd m).tiles = c.tiles := rfl
@[simp] theorem Core.putCmd_net (c : Core) (m : Cmd) : (c.putCmd m).net = c.net := rfl
@[simp] theorem Core.putCmd_ports (c : Core) (m : Cmd) : (c.putCmd m).ports = c.ports := rfl
@[simp] theorem Core.putCmd_lar (c : Core) (m : Cmd) : (c.putCmd m).lar = c.lar := rfl
@[simp] theorem Core.putCmd_bell (c : Core) (m : Cmd) : (c.putCmd m).bell = c.bell := rfl
@[simp] theorem Core.putCmd_led (c : Core) (m : Cmd) : (c.putCmd m).led = c.led := rfl
@[simp] theorem Core.putCmd_wgh (c : Core) (m : Cmd) : (c.putCmd m).wgh = c.wgh := rfl
@[simp] theorem Core.putCmd_tmb (c : Core) (m : Cmd) : (c.putCmd m).tmb = c.tmb := rfl
@[simp] theorem Core.putCmd_mb (c : Core) (m : Cmd) : (c.putCmd m).mb = c.mb := rfl
@[simp] theorem Core.putCmd_fw (c : Core) (m : Cmd) : (c.putCmd m).fw = c.fw := rfl
@[simp] theorem Core.putCmd_cry (c : Core) (m : Cmd) : (c.putCmd m).cry = c.cry := rfl
@[simp] theorem Core.putCmd_hm (c : Core) (m : Cmd) : (c.putCmd m).hm = c.hm := rfl
@[simp] theorem Core.putCmd_log (c : Core) (m : Cmd) : (c.putCmd m).log = c.log := rfl
@[simp] theorem Core.putCmd_free (c : Core) (m : Cmd) : (c.putCmd m).free = c.free := rfl
@[simp] theorem Core.putCmd_lastRead (c : Core) (m : Cmd) : (c.putCmd m).lastRead = c.lastRead := rfl

/-! ## Every command changed -/

@[simp] theorem Core.mapCmds_creg (c : Core) (f : Cmd → Cmd) : (c.mapCmds f).creg = c.creg := rfl
@[simp] theorem Core.mapCmds_treg (c : Core) (f : Cmd → Cmd) : (c.mapCmds f).treg = c.treg := rfl
@[simp] theorem Core.mapCmds_tiles (c : Core) (f : Cmd → Cmd) : (c.mapCmds f).tiles = c.tiles := rfl
@[simp] theorem Core.mapCmds_net (c : Core) (f : Cmd → Cmd) : (c.mapCmds f).net = c.net := rfl
@[simp] theorem Core.mapCmds_ports (c : Core) (f : Cmd → Cmd) : (c.mapCmds f).ports = c.ports := rfl
@[simp] theorem Core.mapCmds_lar (c : Core) (f : Cmd → Cmd) : (c.mapCmds f).lar = c.lar := rfl
@[simp] theorem Core.mapCmds_bell (c : Core) (f : Cmd → Cmd) : (c.mapCmds f).bell = c.bell := rfl
@[simp] theorem Core.mapCmds_led (c : Core) (f : Cmd → Cmd) : (c.mapCmds f).led = c.led := rfl
@[simp] theorem Core.mapCmds_wgh (c : Core) (f : Cmd → Cmd) : (c.mapCmds f).wgh = c.wgh := rfl
@[simp] theorem Core.mapCmds_tmb (c : Core) (f : Cmd → Cmd) : (c.mapCmds f).tmb = c.tmb := rfl
@[simp] theorem Core.mapCmds_mb (c : Core) (f : Cmd → Cmd) : (c.mapCmds f).mb = c.mb := rfl
@[simp] theorem Core.mapCmds_fw (c : Core) (f : Cmd → Cmd) : (c.mapCmds f).fw = c.fw := rfl
@[simp] theorem Core.mapCmds_cry (c : Core) (f : Cmd → Cmd) : (c.mapCmds f).cry = c.cry := rfl
@[simp] theorem Core.mapCmds_hm (c : Core) (f : Cmd → Cmd) : (c.mapCmds f).hm = c.hm := rfl
@[simp] theorem Core.mapCmds_log (c : Core) (f : Cmd → Cmd) : (c.mapCmds f).log = c.log := rfl
@[simp] theorem Core.mapCmds_free (c : Core) (f : Cmd → Cmd) : (c.mapCmds f).free = c.free := rfl
@[simp] theorem Core.mapCmds_lastRead (c : Core) (f : Cmd → Cmd) : (c.mapCmds f).lastRead = c.lastRead := rfl

/-! ## Commands -/

@[simp] theorem Core.putCmd_cmds (c : Core) (m : Cmd) : (c.putCmd m).queues.cmds = c.queues.cmds.map (fun x => if x.id = m.id then m else x) := rfl
@[simp] theorem Core.mapCmds_cmds (c : Core) (f : Cmd → Cmd) : (c.mapCmds f).queues.cmds = c.queues.cmds.map f := rfl
@[simp] theorem Core.putCmd_aborts (c : Core) (m : Cmd) : (c.putCmd m).queues.aborts = c.queues.aborts := rfl
@[simp] theorem Core.putCmd_seen (c : Core) (m : Cmd) : (c.putCmd m).queues.seen = c.queues.seen := rfl
@[simp] theorem Core.mapCmds_seen (c : Core) (f : Cmd → Cmd) : (c.mapCmds f).queues.seen = c.queues.seen := rfl
@[simp] theorem Core.putCmd_last (c : Core) (m : Cmd) : (c.putCmd m).queues.last = c.queues.last := rfl
@[simp] theorem Core.putCmd_groupCredit (c : Core) (m : Cmd) : (c.putCmd m).queues.groupCredit = c.queues.groupCredit := rfl
@[simp] theorem Core.putCmd_groupResv (c : Core) (m : Cmd) : (c.putCmd m).queues.groupResv = c.queues.groupResv := rfl
@[simp] theorem Core.putCmd_groupSkips (c : Core) (m : Cmd) : (c.putCmd m).queues.groupSkips = c.queues.groupSkips := rfl
@[simp] theorem Core.putCmd_cword (c : Core) (m : Cmd) (off : Nat) : (c.putCmd m).cword off = c.cword off := rfl
@[simp] theorem Core.putCmd_tword (c : Core) (m : Cmd) (t off : Nat) : (c.putCmd m).tword t off = c.tword t off := rfl
@[simp] theorem Core.putCmd_rd (c : Core) (m : Cmd) (g : Fld) : (c.putCmd m).rd g = c.rd g := rfl
@[simp] theorem Core.putCmd_trd (c : Core) (m : Cmd) (t : Nat) (g : Fld) : (c.putCmd m).trd t g = c.trd t g := rfl
@[simp] theorem Core.mapCmds_aborts (c : Core) (f : Cmd → Cmd) : (c.mapCmds f).queues.aborts = c.queues.aborts := rfl
@[simp] theorem Core.mapCmds_last (c : Core) (f : Cmd → Cmd) : (c.mapCmds f).queues.last = c.queues.last := rfl
@[simp] theorem Core.mapCmds_groupCredit (c : Core) (f : Cmd → Cmd) : (c.mapCmds f).queues.groupCredit = c.queues.groupCredit := rfl
@[simp] theorem Core.mapCmds_groupResv (c : Core) (f : Cmd → Cmd) : (c.mapCmds f).queues.groupResv = c.queues.groupResv := rfl
@[simp] theorem Core.mapCmds_groupSkips (c : Core) (f : Cmd → Cmd) : (c.mapCmds f).queues.groupSkips = c.queues.groupSkips := rfl
@[simp] theorem Core.mapCmds_cword (c : Core) (f : Cmd → Cmd) (off : Nat) : (c.mapCmds f).cword off = c.cword off := rfl
@[simp] theorem Core.mapCmds_tword (c : Core) (f : Cmd → Cmd) (t off : Nat) : (c.mapCmds f).tword t off = c.tword t off := rfl
@[simp] theorem Core.mapCmds_rd (c : Core) (f : Cmd → Cmd) (g : Fld) : (c.mapCmds f).rd g = c.rd g := rfl
@[simp] theorem Core.mapCmds_trd (c : Core) (f : Cmd → Cmd) (t : Nat) (g : Fld) : (c.mapCmds f).trd t g = c.trd t g := rfl
@[simp] theorem Cmd.finish_id (m : Cmd) (st : Nat) : (m.finish st).id = m.id := rfl
@[simp] theorem Cmd.finish_phase (m : Cmd) (st : Nat) : (m.finish st).phase = .done := rfl
@[simp] theorem Cmd.finish_status (m : Cmd) (st : Nat) : (m.finish st).status = st := rfl
@[simp] theorem Cmd.finish_unit (m : Cmd) (st : Nat) : (m.finish st).unit = m.unit := rfl
@[simp] theorem Cmd.finish_q (m : Cmd) (st : Nat) : (m.finish st).q = m.q := rfl
@[simp] theorem Cmd.finish_idx (m : Cmd) (st : Nat) : (m.finish st).idx = m.idx := rfl
@[simp] theorem Cmd.finish_word (m : Cmd) (st : Nat) : (m.finish st).word = m.word := rfl

/-! ## Free values -/

@[simp] theorem Core.draw_value (c : Core) : c.draw.1 = Config.freeValue c.free := rfl
@[simp] theorem Core.draw_free (c : Core) : c.draw.2.free = c.free + 1 := rfl
@[simp] theorem Core.draw_creg (c : Core) : c.draw.2.creg = c.creg := rfl
@[simp] theorem Core.draw_treg (c : Core) : c.draw.2.treg = c.treg := rfl
@[simp] theorem Core.draw_queues (c : Core) : c.draw.2.queues = c.queues := rfl
@[simp] theorem Core.draw_tiles (c : Core) : c.draw.2.tiles = c.tiles := rfl
@[simp] theorem Core.draw_net (c : Core) : c.draw.2.net = c.net := rfl
@[simp] theorem Core.draw_ports (c : Core) : c.draw.2.ports = c.ports := rfl
@[simp] theorem Core.draw_lar (c : Core) : c.draw.2.lar = c.lar := rfl
@[simp] theorem Core.draw_bell (c : Core) : c.draw.2.bell = c.bell := rfl
@[simp] theorem Core.draw_led (c : Core) : c.draw.2.led = c.led := rfl
@[simp] theorem Core.draw_wgh (c : Core) : c.draw.2.wgh = c.wgh := rfl
@[simp] theorem Core.draw_tmb (c : Core) : c.draw.2.tmb = c.tmb := rfl
@[simp] theorem Core.draw_mb (c : Core) : c.draw.2.mb = c.mb := rfl
@[simp] theorem Core.draw_fw (c : Core) : c.draw.2.fw = c.fw := rfl
@[simp] theorem Core.draw_cry (c : Core) : c.draw.2.cry = c.cry := rfl
@[simp] theorem Core.draw_hm (c : Core) : c.draw.2.hm = c.hm := rfl
@[simp] theorem Core.draw_log (c : Core) : c.draw.2.log = c.log := rfl
@[simp] theorem Core.draw_lastRead (c : Core) : c.draw.2.lastRead = c.lastRead := rfl

/-! ## The machine's memories and control state -/

@[simp] theorem Mach.write_core (m : Mach) (k : Nat) (bs : List Byte) : (m.write k bs).core = m.core := rfl
@[simp] theorem Mach.write_errs (m : Mach) (k : Nat) (bs : List Byte) : (m.write k bs).errs = m.errs := rfl
@[simp] theorem Mach.write_corr (m : Mach) (k : Nat) (bs : List Byte) : (m.write k bs).corr = m.corr := rfl
@[simp] theorem Mach.zero_core (m : Mach) (lo hi : Nat) : (m.zero lo hi).core = m.core := rfl
@[simp] theorem Mach.zero_errs (m : Mach) (lo hi : Nat) : (m.zero lo hi).errs = m.errs := rfl
@[simp] theorem Mach.zero_corr (m : Mach) (lo hi : Nat) : (m.zero lo hi).corr = m.corr := rfl
@[simp] theorem Mach.onCore_mem (m : Mach) (f : Core → Core) : (m.onCore f).mem = m.mem := rfl
@[simp] theorem Mach.onCore_errs (m : Mach) (f : Core → Core) : (m.onCore f).errs = m.errs := rfl
@[simp] theorem Mach.onCore_corr (m : Mach) (f : Core → Core) : (m.onCore f).corr = m.corr := rfl
@[simp] theorem Mach.onCore_core (m : Mach) (f : Core → Core) : (m.onCore f).core = f m.core := rfl
@[simp] theorem Mach.write_mem (m : Mach) (k : Nat) (bs : List Byte) : (m.write k bs).mem = writeBytes m.mem k bs := rfl
@[simp] theorem Mach.onCore_onCore (m : Mach) (f g : Core → Core) : (m.onCore f).onCore g = m.onCore (fun c => g (f c)) := rfl
@[simp] theorem Mach.onCore_read (m : Mach) (f : Core → Core) (k n : Nat) : (m.onCore f).read k n = m.read k n := rfl

theorem Mach.writeAll_eq (m : Mach) (bs : List (Nat × Byte)) :
    m.writeAll bs = { m with mem := bs.foldl (fun mem p => SMap.set (0 : Byte) mem p.1 p.2) m.mem } := by
  unfold Mach.writeAll
  induction bs generalizing m with
  | nil => rfl
  | cons b bs ih => simp only [List.foldl_cons, ih]

@[simp] theorem Mach.writeAll_core (m : Mach) (bs : List (Nat × Byte)) : (m.writeAll bs).core = m.core := by rw [Mach.writeAll_eq]
@[simp] theorem Mach.writeAll_errs (m : Mach) (bs : List (Nat × Byte)) : (m.writeAll bs).errs = m.errs := by rw [Mach.writeAll_eq]
@[simp] theorem Mach.writeAll_corr (m : Mach) (bs : List (Nat × Byte)) : (m.writeAll bs).corr = m.corr := by rw [Mach.writeAll_eq]

end Sys2Proof.Machine
end

