-- ==== Sys2Proof/Laws/Memory.lean ====
section
/-! SUPPORT. Laws of the byte memories: each operation keeps the canonical form, and says which bytes it leaves as they were. -/

namespace Sys2Proof.Machine

/-! ## Folds and the canonical form -/

/-- A property that each step of a fold keeps is kept by the fold. -/
theorem foldl_keeps {α β : Type} {P : α → Prop} {f : α → β → α} (h : ∀ a b, P a → P (f a b)) (l : List β) (a : α) (ha : P a) :
    P (l.foldl f a) := by
  induction l generalizing a with
  | nil => exact ha
  | cons b l ih => exact ih _ (h a b ha)

/-- What each step of a fold leaves as it was, the fold leaves as it was. -/
theorem foldl_same {α β γ : Type} {g : α → γ} {f : α → β → α} (h : ∀ a b, g (f a b) = g a) (l : List β) (a : α) :
    g (l.foldl f a) = g a := by
  induction l generalizing a with
  | nil => rfl
  | cons b l ih => rw [List.foldl_cons, ih, h]

/-- A machine's memory is in its canonical form. -/
def Mach.Wf (m : Mach) : Prop := Memory.wf m.mem

theorem Mach.wf_iff (m : Mach) : m.Wf ↔ SMap.Good (0 : Byte) m.mem := SMap.wf_iff 0 m.mem

theorem reset_memory_wf : Memory.wf State.reset.mach.mem := by decide

theorem Mach.Wf.of_mem {m m' : Mach} (h : m.Wf) (e : m'.mem = m.mem) : m'.Wf := by
  unfold Mach.Wf at *; rw [e]; exact h

@[simp] theorem Mach.wf_onCore (m : Mach) (f : Core → Core) : (m.onCore f).Wf ↔ m.Wf := Iff.rfl

theorem Mach.Wf.write {m : Mach} (h : m.Wf) (k : Nat) (bs : List Byte) : (m.write k bs).Wf :=
  (Mach.wf_iff _).mpr (writeBytes_good ((Mach.wf_iff m).mp h) k bs)

theorem Mach.Wf.zero {m : Mach} (h : m.Wf) (lo hi : Nat) : (m.zero lo hi).Wf := by
  rw [Mach.wf_iff] at h ⊢
  exact h.keep (fun k => !(decide (lo ≤ k) && decide (k < hi)))

theorem Mach.Wf.writeAll {m : Mach} (h : m.Wf) (bs : List (Nat × Byte)) : (m.writeAll bs).Wf := by
  unfold Mach.writeAll
  exact foldl_keeps (P := Mach.Wf) (fun m p hm => (Mach.wf_iff _).mpr (((Mach.wf_iff m).mp hm).set p.1 p.2)) bs m h

/-! ## One byte -/

/-- A byte outside those written reads as before. -/
theorem Mach.byteAt_write_outside (m : Mach) (a : Nat) (bs : List Byte) (k : Nat) (h : k < a ∨ a + bs.length ≤ k) :
    (m.write a bs).byteAt k = m.byteAt k := get_writeBytes_outside m.mem a bs k h

/-- A byte written reads as it was written. -/
theorem Mach.byteAt_write_inside (m : Mach) (a : Nat) (bs : List Byte) (i : Nat) (h : i < bs.length) :
    (m.write a bs).byteAt (a + i) = bs[i] := get_writeBytes_inside m.mem a bs i h

/-- Bytes just written are read back. -/
@[simp] theorem Mach.read_write_self (m : Mach) (a : Nat) (bs : List Byte) : (m.write a bs).read a bs.length = bs :=
  readBytes_writeBytes m.mem a bs

/-- A read apart from the bytes written gives what it gave. -/
theorem Mach.read_write_apart (m : Mach) (a : Nat) (bs : List Byte) (b n : Nat) (h : b + n ≤ a ∨ a + bs.length ≤ b) :
    (m.write a bs).read b n = m.read b n := readBytes_writeBytes_apart m.mem a bs b n h

/-- A zeroed byte reads as zero, any other as before. -/
theorem Mach.byteAt_zero (m : Mach) (lo hi k : Nat) :
    (m.zero lo hi).byteAt k = if lo ≤ k ∧ k < hi then 0 else m.byteAt k := by
  unfold Mach.byteAt Mach.zero
  rw [SMap.get_keep]
  by_cases h : lo ≤ k ∧ k < hi
  · simp [h.1, h.2]
  · have : (!(decide (lo ≤ k) && decide (k < hi))) = true := by
      simp only [Bool.not_eq_true', Bool.and_eq_false_iff, decide_eq_false_iff_not]
      omega
    rw [if_pos this, if_neg h]

/-- A scattered write reads the last byte given for an address, and every other byte as before. -/
theorem Mach.byteAt_writeAll_apart (m : Mach) (bs : List (Nat × Byte)) (k : Nat) (h : ∀ p ∈ bs, p.1 ≠ k) :
    (m.writeAll bs).byteAt k = m.byteAt k := by
  unfold Mach.writeAll
  induction bs generalizing m with
  | nil => rfl
  | cons b bs ih =>
    rw [List.foldl_cons, ih _ (fun p hp => h p (by simp [hp]))]
    exact SMap.get_set_other _ _ _ (Ne.symm (h b (by simp)))

/-- A read of `n` bytes is `n` bytes long. -/
@[simp] theorem Mach.read_length (m : Mach) (a n : Nat) : (m.read a n).length = n := by
  simp [Mach.read, readBytes_eq]

/-- A read gives the bytes at its addresses. -/
theorem Mach.read_eq (m : Mach) (a n : Nat) : m.read a n = (List.range n).map (fun i => m.byteAt (a + i)) := readBytes_eq m.mem a n

/-- Machines that agree on the bytes of a range read it alike. -/
theorem Mach.read_congr {m m' : Mach} {a n : Nat} (h : ∀ k, a ≤ k → k < a + n → m'.byteAt k = m.byteAt k) : m'.read a n = m.read a n := by
  rw [Mach.read_eq, Mach.read_eq]
  exact List.map_congr_left (fun i hi => h _ (Nat.le_add_right _ _) (by have := List.mem_range.mp hi; omega))

/-! ## Lines of tile memory -/

@[simp] theorem Mach.clearErrs_mem (m : Mach) (i : Nat) : (m.clearErrs i).mem = m.mem := rfl
@[simp] theorem Mach.clearErrs_core (m : Mach) (i : Nat) : (m.clearErrs i).core = m.core := rfl

/-- A line without errors reads as its bytes, and nothing changes. -/
theorem Mach.readLine_clean (m : Mach) (t i base line : Nat) (w : Bool) (h : m.lineErrs i = []) :
    m.readLine t i base line w = (m, some (m.read base 64)) := by simp [Mach.readLine, h]

/-- Reading a line stores nothing. -/
@[simp] theorem Mach.readLine_mem (m : Mach) (t i base line : Nat) (w : Bool) : (m.readLine t i base line w).1.mem = m.mem := by
  unfold Mach.readLine
  simp only
  split
  · rfl
  · split <;> rfl

/-- Reading lines stores nothing where reading one does not. -/
theorem readInOrder_mem {f : Mach → Nat → Mach × Option (List Byte)} (h : ∀ m line, (f m line).1.mem = m.mem) (m : Mach)
    (ls : List Nat) : (readInOrder f m ls).1.mem = m.mem := by
  induction ls generalizing m with
  | nil => rfl
  | cons line rest ih =>
    have e := h m line
    unfold readInOrder
    split
    · next heq => rw [heq] at e; exact e
    · next heq => rw [heq] at e; exact (ih _).trans e

/-- Lines that each read as `g` without a change read as those lines in order, without a change. -/
theorem readInOrder_clean {f : Mach → Nat → Mach × Option (List Byte)} {g : Nat → List Byte} {m : Mach} {ls : List Nat}
    (h : ∀ l ∈ ls, f m l = (m, some (g l))) : readInOrder f m ls = (m, some (ls.flatMap g)) := by
  induction ls with
  | nil => rfl
  | cons l ls ih =>
    simp [readInOrder, h l (by simp), ih (fun x hx => h x (by simp [hx]))]

/-- A byte of memory read is the byte at some address of the run. -/
theorem mem_readBytes {mem : List Host.Cell} {a n : Nat} {b : Byte} (h : b ∈ readBytes mem a n) :
    ∃ k, a ≤ k ∧ k < a + n ∧ b = SMap.get 0 mem k := by
  induction n generalizing a with
  | zero => simp [readBytes] at h
  | succ n ih =>
    simp only [readBytes, List.mem_cons] at h
    obtain rfl | h := h
    · exact ⟨a, by omega, by omega, rfl⟩
    · obtain ⟨k, h1, h2, h3⟩ := ih h
      exact ⟨k, by omega, by omega, h3⟩

/-- The units that bytes touch start at the one that holds the first. -/
theorem touched_ge {k p n l : Nat} (h : l ∈ touched k p n) : p / 2 ^ k ≤ l := by
  unfold touched at h
  split at h
  · simp at h
  · simp only [List.mem_map, List.mem_range] at h
    obtain ⟨i, _, rfl⟩ := h
    omega

/-- Reading tile memory stores nothing. -/
@[simp] theorem Mach.tileRead_mem (m : Mach) (t p n : Nat) : (m.tileRead t p n).1.mem = m.mem := by
  simp only [Mach.tileRead, readSpan]
  exact readInOrder_mem (fun m line => Mach.readLine_mem m _ _ _ _ _) m _

theorem Mach.writeLine_wf {m : Mach} (h : m.Wf) (t i base line : Nat) (w : Bool) (at' : Nat) (bs : List Byte) :
    (m.writeLine t i base line w at' bs).1.Wf := by
  unfold Mach.writeLine
  split
  · exact (h.write base bs).of_mem rfl
  · have e := Mach.readLine_mem m t i base line w
    split
    · next m' heq => rw [heq] at e; exact h.of_mem e
    · next m' old heq => rw [heq] at e; exact ((h.of_mem e).write base _).of_mem rfl

/-- A tile write keeps the canonical form. -/
theorem Mach.tileWrite_wf {m : Mach} (h : m.Wf) (t p : Nat) (bs : List Byte) : (m.tileWrite t p bs).1.Wf := by
  unfold Mach.tileWrite
  refine foldl_keeps (P := fun acc : Mach × Bool => acc.1.Wf) (fun acc ch ha => ?_) _ _ h
  split
  · exact Mach.writeLine_wf ha _ _ _ _ _ _ _
  · exact ha

/-- A line written changes no byte outside it, where the bytes lie within the line. -/
theorem Mach.writeLine_outside (m : Mach) (t i base line : Nat) (w : Bool) (at' : Nat) (bs : List Byte) (k : Nat)
    (hk : k < base ∨ base + 64 ≤ k) (hl : ∀ old, (splice (0 : Byte) old at' bs).length ≤ old.length ∨ bs.length = 64)
    (hr : ∀ m' old, m.readLine t i base line w = (m', some old) → old.length = 64) :
    (m.writeLine t i base line w at' bs).1.byteAt k = m.byteAt k := by
  unfold Mach.writeLine
  split
  · next h64 => exact Mach.byteAt_write_outside m base bs k (by omega)
  · next h64 =>
    have e := Mach.readLine_mem m t i base line w
    split
    · next m' heq => rw [heq] at e; exact congrArg (fun mem => SMap.get (0 : Byte) mem k) e
    · next m' old heq =>
      rw [heq] at e
      have := hr m' old heq
      have := (hl old).resolve_right h64
      have hw : (m'.write base (splice (0 : Byte) old at' bs)).byteAt k = m'.byteAt k := Mach.byteAt_write_outside _ _ _ _ (by omega)
      exact hw.trans (congrArg (fun mem => SMap.get (0 : Byte) mem k) e)

/-! ## Regions and slices -/

@[simp] theorem Mach.blankSegs_mem (m : Mach) (t lo hi : Nat) :
    (m.blankSegs t lo hi).mem = (m.zero (tileBase t + 2 ^ 14 * lo) (tileBase t + 2 ^ 14 * hi)).mem := rfl

theorem Mach.Wf.blankSegs {m : Mach} (h : m.Wf) (t lo hi : Nat) : (m.blankSegs t lo hi).Wf := (h.zero _ _).of_mem rfl

theorem Mach.Wf.blankLit {m : Mach} (h : m.Wf) (t : Nat) : (m.blankLit t).Wf :=
  foldl_keeps (P := Mach.Wf) (fun _ g hm => hm.blankSegs t g (g + 1)) _ _ h

/-- Reading a slice's line stores nothing. -/
@[simp] theorem Mach.sliceLine_mem (m : Mach) (s line : Nat) (w : Bool) : (m.sliceLine s line w).1.mem = m.mem := by
  unfold Mach.sliceLine
  simp only
  split
  · rfl
  · split <;> rfl

/-- Reading a slice stores nothing. -/
@[simp] theorem Mach.sliceRead_mem (m : Mach) (s p n : Nat) : (m.sliceRead s p n).1.mem = m.mem := by
  simp only [Mach.sliceRead, readSpan]
  exact readInOrder_mem (fun m line => Mach.sliceLine_mem m _ _ _) m _

/-- A slice in which no error stands reads as its bytes, and nothing changes. -/
theorem Mach.sliceRead_clean {m : Mach} {s p n : Nat} (h : ∀ l ∈ touched 6 p n, m.lineErrs (sliceLineId s l) = []) :
    m.sliceRead s p n = (m, some ((((touched 6 p n).flatMap (fun l => m.read (sliceBase s + 64 * l) 64)).drop (p % 64)).take n)) := by
  simp only [Mach.sliceRead, readSpan]
  rw [readInOrder_clean (g := fun l => m.read (sliceBase s + 64 * l) 64) (fun l hl => by simp [Mach.sliceLine, h l hl])]
  rfl

theorem Mach.writeSliceLine_wf {m : Mach} (h : m.Wf) (s line : Nat) (w : Bool) (at' : Nat) (bs : List Byte) :
    (m.writeSliceLine s line w at' bs).1.Wf := by
  unfold Mach.writeSliceLine
  simp only
  split
  · exact (h.write _ bs).of_mem rfl
  · have e := Mach.sliceLine_mem m s line w
    split
    · next m' heq => rw [heq] at e; exact h.of_mem e
    · next m' old heq => rw [heq] at e; exact ((h.of_mem e).write _ _).of_mem rfl

/-- A slice write keeps the canonical form. -/
theorem Mach.sliceWrite_wf {m : Mach} (h : m.Wf) (s p : Nat) (bs : List Byte) : (m.sliceWrite s p bs).1.Wf := by
  unfold Mach.sliceWrite
  refine foldl_keeps (P := fun acc : Mach × Bool => acc.1.Wf) (fun acc ch ha => ?_) _ _ h
  split
  · exact Mach.writeSliceLine_wf ha _ _ _ _ _
  · exact ha

/-! ## Accesses of local commands -/

/-- What holds of the machine an access answers with. -/
def Ans.All {α : Type} (P : Mach → Prop) : Ans α → Prop
  | .ok m _ => P m
  | .wait m _ => P m
  | .held => True
  | .fail m _ => P m

/-- What each of two accesses keeps, both keep one after the other. -/
theorem Ans.All.bind {α β : Type} {P : Mach → Prop} {a : Ans α} {f : Mach → α → Ans β} (h : a.All P)
    (hf : ∀ m b, P m → (f m b).All P) : (a.bind f).All P := by
  cases a with
  | ok m b => exact hf m b h
  | wait m s => exact h
  | held => trivial
  | fail m st => exact h

/-- A slot's share of a read stores nothing. -/
theorem Mach.readSlot_mem (m : Mach) (x : Cmd) (p n : Nat) : (m.readSlot x p n).All (fun m' => m'.mem = m.mem) := by
  unfold Mach.readSlot
  split
  · rfl
  · split
    · rfl
    · rfl
    · have e := Mach.tileRead_mem m x.unit p n
      split <;> next heq => rw [heq] at e; exact e

/-- A read slot by slot stores nothing. -/
theorem Mach.readChunks_mem (m : Mach) (x : Cmd) (rs : List (Nat × Nat)) : (m.readChunks x rs).All (fun m' => m'.mem = m.mem) := by
  induction rs generalizing m with
  | nil => rfl
  | cons r rs ih =>
    refine (Mach.readSlot_mem m x r.1 r.2).bind (fun m1 bs h1 => ?_)
    have e := ih m1
    split
    · next heq => rw [heq] at e; exact Eq.trans e h1
    · cases hr : m1.readChunks x rs <;> rw [hr] at e <;> first | trivial | exact Eq.trans e h1

/-- A local read stores nothing. -/
theorem Mach.localRead_mem (m : Mach) (x : Cmd) (cls off n : Nat) : (m.localRead x cls off n).All (fun m' => m'.mem = m.mem) := by
  unfold Mach.localRead
  split
  · rfl
  · simp only
    split
    · trivial
    · split
      · rfl
      · refine (Mach.readChunks_mem m x _).bind (fun m1 bs h1 => ?_)
        show Mach.mem (if _ then _ else _) = _
        split <;> exact h1

/-- A local write keeps the canonical form. -/
theorem Mach.localWrite_wf {m : Mach} (h : m.Wf) (x : Cmd) (p : Nat) (bs : List Byte) : (m.localWrite x p bs).All Mach.Wf := by
  unfold Mach.localWrite
  simp only
  split
  · exact h
  · split
    · trivial
    · split
      · exact h
      · split <;> next m' heq =>
          have e := congrArg Prod.fst heq
          simp only at e
          show Mach.Wf m'
          rw [← e]
          exact Mach.tileWrite_wf (by split <;> exact h) _ _ _

/-- Pending runs landed keep the canonical form. -/
theorem Mach.landRuns_wf {m : Mach} (h : m.Wf) (x : Cmd) (rs : List (Nat × List Byte)) : (m.landRuns x rs).All Mach.Wf := by
  induction rs generalizing m x with
  | nil => exact h
  | cons r rs ih =>
    obtain ⟨p, bs⟩ := r
    have e := Mach.localWrite_wf h x p bs
    unfold Mach.landRuns
    split <;> next heq => rw [heq] at e; first | exact ih e _ | exact e

end Sys2Proof.Machine
end

