-- ==== Sys2Proof/Laws/Net.lean ====
section
/-! SUPPORT. What putting a packet into the mesh can do, and what answering a mailbox request can do. -/

namespace Sys2Proof.Machine

/-- Registers outside the network's blocks, and all but the network's state and the count of free values, are alike. -/
structure NetOnly (c d : Core) : Prop where
  creg : ∀ off, off < 0x400000 → d.cword off = c.cword off
  treg : d.treg = c.treg
  queues : d.queues = c.queues
  tiles : d.tiles = c.tiles
  ports : d.ports = c.ports
  lar : d.lar = c.lar
  bell : d.bell = c.bell
  led : d.led = c.led
  wgh : d.wgh = c.wgh
  tmb : d.tmb = c.tmb
  mb : d.mb = c.mb
  fw : d.fw = c.fw
  cry : d.cry = c.cry
  hm : d.hm = c.hm
  log : d.log = c.log
  lastRead : d.lastRead = c.lastRead
  arr : d.net.arr = c.net.arr
  mstore : d.net.mstore = c.net.mstore
  src : d.net.src = c.net.src
  held : d.net.held = c.net.held

theorem NetOnly.refl (c : Core) : NetOnly c c := ⟨fun _ _ => rfl, rfl, rfl, rfl, rfl, rfl, rfl, rfl, rfl, rfl, rfl, rfl, rfl, rfl, rfl,
  rfl, rfl, rfl, rfl, rfl⟩

/-- A field of a register outside the network's blocks reads as before. -/
theorem NetOnly.rd {c d : Core} (h : NetOnly c d) (f : Fld) (hf : f.off < 0x400000) : d.rd f = c.rd f := by
  unfold Core.rd; rw [h.creg f.off hf]
/-- A tile's field reads as before. -/
theorem NetOnly.trd {c d : Core} (h : NetOnly c d) (t : Nat) (f : Fld) : d.trd t f = c.trd t f := by
  unfold Core.trd Core.tword; rw [h.treg]

theorem cword_wr_apart (c : Core) (f : Fld) (v off : Nat) (h : off ≠ f.off) : (c.wr f v).cword off = c.cword off := by
  unfold Core.wr; rw [Core.cword_setCword, if_neg h]

theorem onMesh_spec (c : Core) (p : Packet) :
    (∃ n, (c.onMesh p).2 = { c with free := n }) ∧ (c.onMesh p).1.typ = p.typ ∧ (c.onMesh p).1.dst = p.dst
      ∧ (c.onMesh p).1.payload = p.payload := by
  unfold Core.onMesh
  split
  · exact ⟨⟨c.free, rfl⟩, rfl, rfl, rfl⟩
  · exact ⟨⟨c.free + 1, rfl⟩, rfl, rfl, rfl⟩

/-- A packet's flits counted in at an input: beside the network's own registers and state nothing changes. -/
theorem entered_spec (c : Core) (f : Flying) : NetOnly c (c.entered f) ∧ (c.entered f).net.fly = c.net.fly := by
  unfold Core.entered Core.signal Core.enterInput Core.bump
  refine ⟨⟨fun off ho => ?_, rfl, rfl, rfl, rfl, rfl, rfl, rfl, rfl, rfl, rfl, rfl, rfl, rfl, rfl, rfl, rfl, rfl, rfl, rfl⟩, rfl⟩
  show Core.cword (Core.wr (Core.wr (Core.wr c _ _) _ _) _ _) off = _
  rw [cword_wr_apart _ _ _ _ (by simp [R.NET_QDEPTH_MAXD]; omega), cword_wr_apart _ _ _ _ (by simp [R.NET_QDEPTH_DEPTH]; omega),
    cword_wr_apart _ _ _ _ (by simp [R.NET_EPCNT_COUNT]; omega)]

/-- A packet enters the mesh: one more is in flight, which has passed its first router or waits at its source for room there;
it keeps its type, destination and payload, and beside the network's own registers and state nothing changes. -/
theorem enterMesh_spec (c : Core) (p : Packet) (u here inp dest unit : Nat) (port via : Option Nat) :
    NetOnly c (c.enterMesh p u here inp dest unit port via) ∧
    ∃ x : Flying, (c.enterMesh p u here inp dest unit port via).net.fly = c.net.fly ++ [x] ∧ x.here = here ∧ x.dest = dest ∧ x.unit = unit
      ∧ x.port = port ∧ x.via = via ∧ x.pkt.typ = p.typ ∧ x.pkt.dst = p.dst ∧ x.pkt.payload = p.payload := by
  obtain ⟨⟨n, hn⟩, ht, hd, hp⟩ := onMesh_spec c p
  unfold Core.enterMesh
  simp only [hn]
  generalize hf : (Flying.mk _ _ _ _ _ _ _ _ _ _ _ _ _) = x
  have hx : x.here = here ∧ x.dest = dest ∧ x.unit = unit ∧ x.port = port ∧ x.via = via ∧ x.pkt.typ = p.typ ∧ x.pkt.dst = p.dst
      ∧ x.pkt.payload = p.payload := by
    subst hf
    exact ⟨rfl, rfl, rfl, rfl, rfl, ht, hd, hp⟩
  split
  · obtain ⟨h1, h2⟩ := entered_spec _ x
    refine ⟨⟨h1.creg, h1.treg, h1.queues, h1.tiles, h1.ports, h1.lar, h1.bell, h1.led, h1.wgh, h1.tmb, h1.mb, h1.fw, h1.cry, h1.hm,
      h1.log, h1.lastRead, h1.arr, h1.mstore, h1.src, h1.held⟩, x, h2, hx⟩
  · exact ⟨⟨fun _ _ => rfl, rfl, rfl, rfl, rfl, rfl, rfl, rfl, rfl, rfl, rfl, rfl, rfl, rfl, rfl, rfl, rfl, rfl, rfl, rfl⟩, x, rfl, hx⟩

/-- A packet injected: it is in flight, or no port could take it and nothing has happened. -/
theorem inject_spec (c : Core) (p : Packet) (u : Nat) :
    NetOnly c (c.inject p u) ∧ (c.inject p u = c ∨ ∃ x : Flying, (c.inject p u).net.fly = c.net.fly ++ [x]
      ∧ x.pkt.typ = p.typ ∧ x.pkt.dst = p.dst ∧ x.pkt.payload = p.payload) := by
  unfold Core.inject
  simp only
  split
  · obtain ⟨h, x, hf, -, -, -, -, -, h1, h2, h3⟩ :=
      enterMesh_spec c { p with epoch := c.rd R.NET_RTCTL_ACTIVE } u (c.unitRouter u) (c.unitSide u) _ _ _ none
    exact ⟨h, .inr ⟨x, hf, h1, h2, h3⟩⟩
  · exact ⟨NetOnly.refl c, .inl rfl⟩

/-- A packet injected towards a port is in flight. -/
theorem injectTo_spec (c : Core) (p : Packet) (u port : Nat) :
    NetOnly c (c.injectTo p u port) ∧ ∃ x : Flying, (c.injectTo p u port).net.fly = c.net.fly ++ [x] ∧ x.port = some port
      ∧ x.pkt.typ = p.typ ∧ x.pkt.dst = p.dst ∧ x.pkt.payload = p.payload := by
  unfold Core.injectTo
  obtain ⟨h, x, hf, -, -, -, hp, -, h1, h2, h3⟩ := enterMesh_spec c { p with epoch := c.rd R.NET_RTCTL_ACTIVE } u (c.unitRouter u)
    (c.unitSide u) (exitRouter port (c.unitRouter u)) (unitPort port) (some port) none
  exact ⟨h, x, hf, hp, h1, h2, h3⟩

/-- An answer is sent only where one is asked for, and changes nothing but the network. -/
theorem answer_spec (c : Core) (u : Nat) (p : Packet) (st : Nat) : NetOnly c (c.answer u p st) := by
  unfold Core.answer
  split
  · exact (inject_spec _ _ _).1
  · exact NetOnly.refl c

/-! ## Mailbox rows -/

/-- A row of the catalogue whose turn it is, with none of its requests under way, runs that request, started, unless it may
not be carried out. -/
theorem mbRow_turn {m : Mach} {mine : MbReq → Bool} {f : Mach → MbReq → MbAns} {r : MbReq}
    (h0 : ∀ x ∈ m.core.mb.reqs, x.started = true → mine x = false) (hh : m.core.mbHead = some r) (hm : mine r = true)
    (hp : m.core.mbPlain r = none) (hf : m.core.mbFree r = true) :
    m.mbRow mine f = (m.onCore (fun c => c.putReq { r with started := true, since := m.core.now })).mbRun f
      { r with started := true, since := m.core.now } := by
  have hl : m.core.mb.reqs.filter (fun r => r.started && mine r) = [] := by
    rw [List.filter_eq_nil_iff]
    intro x hx
    cases hs : x.started
    · simp
    · simp [h0 x hx hs]
  unfold Mach.mbRow
  simp [hl, hh, hm, hp, hf]

/-- A row with nothing to carry on and not its turn, or not free to start, does nothing. -/
theorem mbRow_idle {m : Mach} {mine : MbReq → Bool} {f : Mach → MbReq → MbAns}
    (h0 : ∀ x ∈ m.core.mb.reqs, x.started = true → mine x = false)
    (hh : ∀ r, m.core.mbHead = some r → mine r = false ∨ (m.core.mbPlain r = none ∧ m.core.mbFree r = false)) : m.mbRow mine f = m := by
  have hl : m.core.mb.reqs.filter (fun r => r.started && mine r) = [] := by
    rw [List.filter_eq_nil_iff]
    intro x hx
    cases hs : x.started
    · simp
    · simp [h0 x hx hs]
  unfold Mach.mbRow
  simp only [hl, List.foldl_nil]
  split
  · next r hr => rcases hh r hr with h | h <;> simp [h]
  · rfl

/-- What carrying out each request keeps, the row keeps. -/
theorem mbRow_keeps {P : Mach → Prop} {mine : MbReq → Bool} {f : Mach → MbReq → MbAns}
    (hcore : ∀ m f, P m → P (Mach.onCore m f)) (hrun : ∀ m r, P m → P (m.mbRun f r)) {m : Mach} (hm : P m) :
    P (m.mbRow mine f) := by
  have hfold : ∀ (l : List MbReq) (m : Mach), P m → P (l.foldl (fun (m : Mach) r => m.mbRun f r) m) := by
    intro l
    induction l with
    | nil => exact fun m h => h
    | cons r l ih => exact fun m h => ih _ (hrun m r h)
  unfold Mach.mbRow
  simp only
  split
  · split
    · exact hfold _ _ hm
    · split
      · exact hcore _ _ (hfold _ _ hm)
      · split
        · exact hrun _ _ (hcore _ _ (hfold _ _ hm))
        · exact hfold _ _ hm
  · exact hfold _ _ hm

/-- Running a request changes memory as its command does, and nothing after it. -/
theorem mbRun_mem (m : Mach) (f : Mach → MbReq → MbAns) (r : MbReq) :
    (∀ m' st d b, f m r = .done m' st d b → (m.mbRun f r).mem = m'.mem) ∧ ∀ m' n, f m r = .wait m' n → (m.mbRun f r).mem = m'.mem := by
  unfold Mach.mbRun
  exact ⟨fun m' st d b h => by rw [h]; rfl, fun m' n h => by rw [h]; rfl⟩

/-- A command that acts on control state alone leaves memory as it was. -/
theorem mbAct_mem (m : Mach) (mine : MbReq → Bool) (f : Core → MbReq → Core × Nat × Nat × List Byte) : (m.mbAct mine f).mem = m.mem := by
  unfold Mach.mbAct
  refine mbRow_keeps (P := fun x => x.mem = m.mem) (fun _ _ h => h) (fun x r h => ?_) rfl
  exact h

end Sys2Proof.Machine
end

