-- ==== Sys2Proof/Laws/Ops.lean ====
section
/-! SUPPORT. What the shared operations can do, said once: operand checks, rows of live logic, commands in their slots,
counters, tallies, records, and packets put into the mesh. -/

namespace Sys2Proof.Machine

/-! ## Rows -/

@[simp] theorem onlyIf_true (o : Host.Outcome State Fault Refusal) : onlyIf true o = o := rfl
@[simp] theorem onlyIf_false (o : Host.Outcome State Fault Refusal) : onlyIf false o = .fault .noSuchUnit := rfl

/-- A row with an operand check answers a next state only where the check holds. -/
theorem onlyIf_next {ok : Bool} {o : Host.Outcome State Fault Refusal} {t : State} : onlyIf ok o = .next t ↔ ok = true ∧ o = .next t := by
  cases ok <;> simp

/-- A row of live logic: its effect where the logic runs, and nothing where it does not. -/
theorem onMach_next {s t : State} {f : Mach → Mach} :
    s.onMach f = .next t ↔ t = if s.live then { s with mach := f s.mach } else s := by
  unfold State.onMach
  exact ⟨fun h => (Host.Outcome.next.inj h).symm, fun h => congrArg _ h.symm⟩

theorem onMach_live {s : State} (h : s.live = true) (f : Mach → Mach) : s.onMach f = .next { s with mach := f s.mach } := by
  simp [State.onMach, h]
theorem onMach_dead {s : State} (h : s.live = false) (f : Mach → Mach) : s.onMach f = .next s := by simp [State.onMach, h]
theorem onCore_live {s : State} (h : s.live = true) (f : Core → Core) :
    s.onCore f = .next { s with mach := { s.mach with core := f s.mach.core } } := onMach_live h _
theorem onCore_dead {s : State} (h : s.live = false) (f : Core → Core) : s.onCore f = .next s := onMach_dead h _

/-- A row of live logic leaves the fuses, the supplies, the test port and the queue as they were. -/
theorem onMach_outside {s t : State} {f : Mach → Mach} (h : s.onMach f = .next t) : OutsideKept s t := by
  rw [onMach_next] at h
  subst h
  split <;> simp [OutsideKept]

/-- A row that acts on control state alone leaves every byte of memory as well. -/
theorem onCore_mem {s t : State} {f : Core → Core} (h : s.onCore f = .next t) : MemKept s t := by
  unfold State.onCore at h
  rw [onMach_next] at h
  subst h
  split <;> simp [MemKept]

/-- What the effect keeps of the machine, the row keeps. -/
theorem onMach_keeps {P : Mach → Prop} {s t : State} {f : Mach → Mach} (hf : P s.mach → P (f s.mach)) (h : s.onMach f = .next t)
    (hs : P s.mach) : P t.mach := by
  rw [onMach_next] at h
  subst h
  split
  · exact hf hs
  · exact hs

/-- One step: an idle cycle, or the command at the front of the queue. -/
theorem step_cases {s t : State} (h : step s = .next t) :
    (s.pending = [] ∧ s.onCore Core.idle = .next t) ∨ ∃ i rest, s.pending = i :: rest ∧ exec i { s with pending := rest } = .next t := by
  unfold step at h
  split at h
  · next hp => exact .inl ⟨hp, h⟩
  · next i rest hp => exact .inr ⟨i, rest, hp, h⟩

/-! ## Commands in their slots -/

/-- The row of a command acts where the command runs in the slot. -/
theorem withCmd_runs {m : Mach} {u q f op : Nat} {x : Cmd} (h : m.core.running? u q f = some x) (ho : x.opcode = op)
    (g : Mach → Cmd → Mach) : m.withCmd u q f op g = g m x := by simp [Mach.withCmd, h, ho]

/-- It does nothing where no command runs there, or another one does. -/
theorem withCmd_idle {m : Mach} {u q f op : Nat} (h : ∀ x, m.core.running? u q f = some x → x.opcode ≠ op)
    (g : Mach → Cmd → Mach) : m.withCmd u q f op g = m := by
  unfold Mach.withCmd
  split
  · next x hx => rw [if_neg (h x hx)]
  · rfl

/-- What the command's action keeps, its row keeps. -/
theorem withCmd_keeps {P : Mach → Prop} {m : Mach} {g : Mach → Cmd → Mach} (hg : ∀ x, P m → P (g m x)) (u q f op : Nat) (hm : P m) :
    P (m.withCmd u q f op g) := by
  unfold Mach.withCmd
  split
  · split
    · exact hg _ hm
    · exact hm
  · exact hm

/-- A running command is one of the queue's, runs, and stands in the slot. -/
theorem running?_mem {c : Core} {u q f : Nat} {x : Cmd} (h : c.running? u q f = some x) :
    x ∈ c.queues.cmds ∧ x.unit = u ∧ x.q = q ∧ x.phase = .run ∧ x.slot = f := by
  have h1 := List.mem_of_find?_eq_some h
  have h2 := List.find?_some h
  simp only [Bool.and_eq_true, decide_eq_true_eq, Cmd.running] at h2
  exact ⟨h1, h2.1.1.1, h2.1.1.2, h2.1.2, h2.2⟩

/-- A command given its outcome: the others, and everything but the commands, are as they were. -/
@[simp] theorem finishCmd_cmds (c : Core) (x : Cmd) (st : Nat) :
    (c.finishCmd x st).queues.cmds = c.queues.cmds.map (fun y => if y.id = x.id then y.finish st else y) := rfl

/-- It has its outcome. -/
theorem finishCmd_done (c : Core) (x : Cmd) (st : Nat) (h : x ∈ c.queues.cmds) :
    (∃ y ∈ (c.finishCmd x st).queues.cmds, y.id = x.id) ∧
      ∀ y ∈ (c.finishCmd x st).queues.cmds, y.id = x.id → y.phase = .done ∧ y.status = st := by
  simp only [finishCmd_cmds, List.mem_map]
  refine ⟨⟨x.finish st, ⟨x, h, by simp⟩, rfl⟩, ?_⟩
  rintro y ⟨z, -, rfl⟩ hy
  by_cases hz : z.id = x.id
  · simp [hz]
  · rw [if_neg hz] at hy; exact absurd hy hz

@[simp] theorem finishCmd_creg (c : Core) (x : Cmd) (st : Nat) : (c.finishCmd x st).creg = c.creg := rfl
@[simp] theorem finishCmd_treg (c : Core) (x : Cmd) (st : Nat) : (c.finishCmd x st).treg = c.treg := rfl
@[simp] theorem finishCmd_net (c : Core) (x : Cmd) (st : Nat) : (c.finishCmd x st).net = c.net := rfl
@[simp] theorem finishCmd_tiles (c : Core) (x : Cmd) (st : Nat) : (c.finishCmd x st).tiles = c.tiles := rfl
@[simp] theorem finishCmd_mb (c : Core) (x : Cmd) (st : Nat) : (c.finishCmd x st).mb = c.mb := rfl
@[simp] theorem finishCmd_bell (c : Core) (x : Cmd) (st : Nat) : (c.finishCmd x st).bell = c.bell := rfl
@[simp] theorem finishCmd_log (c : Core) (x : Cmd) (st : Nat) : (c.finishCmd x st).log = c.log := rfl

/-! ## Counters -/

/-- A saturating counter counts up and stops at all ones. -/
theorem rd_bump_self (c : Core) (f : Fld) (n : Nat) (hf : f.lo + f.w ≤ 64) : (c.bump f n).rd f = satAdd f.w (c.rd f) n := by
  unfold Core.bump
  rw [Core.rd_wr_self _ _ _ hf]
  exact Nat.mod_eq_of_lt (by unfold satAdd; have := Nat.two_pow_pos f.w; omega)

theorem rd_bump_apart (c : Core) (f g : Fld) (n : Nat) (hf : f.lo + f.w ≤ 64) (h : f.apart g = true) : (c.bump f n).rd g = c.rd g :=
  Core.rd_wr_apart c f g _ hf h

theorem trd_tbump_self (c : Core) (t : Nat) (f : Fld) (n : Nat) (hf : f.lo + f.w ≤ 64) (ho : f.off < 0x4000) :
    (c.tbump t f n).trd t f = satAdd f.w (c.trd t f) n := by
  unfold Core.tbump
  rw [Core.trd_twr_self _ _ _ _ hf ho]
  exact Nat.mod_eq_of_lt (by unfold satAdd; have := Nat.two_pow_pos f.w; omega)

/-! ## Tallies (R193 to R196) -/

/-- The word of a tally. -/
def Core.tallyWord (c : Core) (u n : Nat) : Word :=
  if u < 960 then c.tword u (0x400 + 8 * n) else c.cword (0x100000 + 0x800 * (u - 960) + 0x400 + 8 * n)

/-- The word a tally is written as. -/
def tallyBits (count : Nat) (fault ovf : Bool) : Word :=
  BitVec.ofNat 64 (count % 2 ^ 20 + 2 ^ 20 * b2n fault + 2 ^ 21 * b2n ovf)

theorem tallyCount_eq (c : Core) (u n : Nat) : c.tallyCount u n = bits (c.tallyWord u n).toNat 0 20 := by
  unfold Core.tallyCount Core.tallyGet Core.tallyWord
  split <;> rfl
theorem tallyFault_eq (c : Core) (u n : Nat) : c.tallyFault u n = decide (bits (c.tallyWord u n).toNat 20 1 = 1) := by
  unfold Core.tallyFault Core.tallyGet Core.tallyWord
  split <;> rfl
theorem tallyOvf_eq (c : Core) (u n : Nat) : c.tallyOvf u n = decide (bits (c.tallyWord u n).toNat 21 1 = 1) := by
  unfold Core.tallyOvf Core.tallyGet Core.tallyWord
  split <;> rfl

/-- A tally written is that tally's word; every other tally of every unit is as it was. -/
theorem tallyPut_word (c : Core) (u n k : Nat) (fault ovf : Bool) (u' n' : Nat) (hn : n < 64) (hn' : n' < 64) :
    (c.tallyPut u n k fault ovf).tallyWord u' n' = if u' = u ∧ n' = n then tallyBits k fault ovf else c.tallyWord u' n' := by
  unfold Core.tallyPut Core.tallyWord
  by_cases hu : u < 960 <;> by_cases hu' : u' < 960
  · simp only [hu, hu', if_true]
    rw [Core.tword_setTword _ _ _ _ _ _ (by omega) (by omega)]
    by_cases h : u' = u ∧ n' = n
    · obtain ⟨rfl, rfl⟩ := h; simp [tallyBits]
    · rw [if_neg (by omega), if_neg h]
  · have : ¬ (u' = u ∧ n' = n) := by omega
    simp only [hu, hu', if_true, if_false, this]
    rfl
  · have : ¬ (u' = u ∧ n' = n) := by omega
    simp only [hu, hu', if_true, if_false, this]
    rfl
  · simp only [hu, hu', if_false]
    rw [Core.cword_setCword]
    by_cases h : u' = u ∧ n' = n
    · obtain ⟨rfl, rfl⟩ := h; simp [tallyBits]
    · rw [if_neg (by omega), if_neg h]

theorem tallyBits_toNat (k : Nat) (f o : Bool) : (tallyBits k f o).toNat = k % 2 ^ 20 + 2 ^ 20 * b2n f + 2 ^ 21 * b2n o := by
  rw [tallyBits, BitVec.toNat_ofNat]
  apply Nat.mod_eq_of_lt
  cases f <;> cases o <;> simp only [b2n] <;> simp <;> omega

/-- A tally reads as it was written: the count cut to 20 bits, and both flags. -/
theorem tallyBits_fields (k : Nat) (f o : Bool) :
    bits (tallyBits k f o).toNat 0 20 = k % 2 ^ 20 ∧ decide (bits (tallyBits k f o).toNat 20 1 = 1) = f
      ∧ decide (bits (tallyBits k f o).toNat 21 1 = 1) = o := by
  rw [tallyBits_toNat]
  refine ⟨?_, ?_, ?_⟩ <;> cases f <;> cases o <;> simp [bits, b2n] <;> omega

/-- Setting a tally writes its word and lets the commands that wait on it look; nothing else changes. -/
theorem tallySet_eq (c : Core) (u n k : Nat) (fault ovf : Bool) :
    ∃ g : Cmd → Cmd, (∀ x, (g x).id = x.id) ∧ c.tallySet u n k fault ovf = (c.tallyPut u n k fault ovf).mapCmds g := by
  refine ⟨fun m => if m.unit = u ∧ m.waitT = n then (c.tallyPut u n k fault ovf).checkWait m else m, fun x => ?_, rfl⟩
  dsimp only
  split
  · unfold Core.checkWait
    split
    · split
      · rfl
      · split <;> rfl
    · rfl
  · rfl

@[simp] theorem tallySet_word (c : Core) (u n k : Nat) (fault ovf : Bool) (u' n' : Nat) :
    (c.tallySet u n k fault ovf).tallyWord u' n' = (c.tallyPut u n k fault ovf).tallyWord u' n' := rfl

/-- An increment: the count saturates at FFFFFh with OVF and FAULT, and FAULT joins in. -/
theorem tallyAdd_word (c : Core) (u n k : Nat) (fault : Bool) (hn : n < 64) :
    (c.tallyAdd u n k fault).tallyWord u n = tallyBits (min (c.tallyCount u n + k) 0xFFFFF)
      (c.tallyFault u n || fault || decide (0xFFFFF < c.tallyCount u n + k)) (c.tallyOvf u n || decide (0xFFFFF < c.tallyCount u n + k)) := by
  unfold Core.tallyAdd
  rw [tallySet_word, tallyPut_word _ _ _ _ _ _ _ _ hn hn, if_pos ⟨rfl, rfl⟩]

/-! ## Records and steps -/

/-- Reads of registers depend on the register files alone. -/
theorem cword_congr {c d : Core} (h : d.creg = c.creg) (off : Nat) : d.cword off = c.cword off := by unfold Core.cword; rw [h]
theorem rd_congr {c d : Core} (h : d.creg = c.creg) (f : Fld) : d.rd f = c.rd f := by unfold Core.rd; rw [cword_congr h]
theorem trd_congr {c d : Core} (h : d.treg = c.treg) (t : Nat) (f : Fld) : d.trd t f = c.trd t f := by unfold Core.trd Core.tword; rw [h]

theorem record_creg (c : Core) (cls source unit status code info : Nat) :
    (c.record cls source unit status code info).creg = (c.wr R.LDG_FLOG_WI (c.rd R.LDG_FLOG_WI + 1)).creg := by simp only [Core.record]
theorem record_flog (c : Core) (cls source unit status code info : Nat) :
    (c.record cls source unit status code info).log.flog
      = (c.log.flog ++ [(⟨cls, source, unit, status, code, info, c.now, c.rd R.LDG_FLOG_WI⟩ : FaultRec)]).drop (c.log.flog.length + 1 - 1024) := by
  simp only [Core.record, List.length_append, List.length_singleton]

/-- A fault record: one more entry, stamped and numbered, and no register but the write index changes. -/
theorem record_spec (c : Core) (cls source unit status code info : Nat) :
    (c.record cls source unit status code info).rd R.LDG_FLOG_WI = (c.rd R.LDG_FLOG_WI + 1) % 2 ^ R.LDG_FLOG_WI.w ∧
    (∀ off, off ≠ R.LDG_FLOG_WI.off → (c.record cls source unit status code info).cword off = c.cword off) ∧
    (c.record cls source unit status code info).treg = c.treg ∧ (c.record cls source unit status code info).queues = c.queues ∧
    ⟨cls, source, unit, status, code, info, c.now, c.rd R.LDG_FLOG_WI⟩ ∈ (c.record cls source unit status code info).log.flog := by
  refine ⟨?_, ?_, by simp [Core.record], by simp [Core.record], ?_⟩
  · rw [rd_congr (record_creg c cls source unit status code info)]
    exact Core.rd_wr_self c R.LDG_FLOG_WI _ (by decide)
  · intro off h
    rw [cword_congr (record_creg c cls source unit status code info)]
    unfold Core.wr
    rw [Core.cword_setCword, if_neg h]
  · rw [record_flog, List.drop_append_of_le_length (by omega)]
    simp

/-- A notice waits; no register changes. -/
@[simp] theorem notify_creg (c : Core) (kind cls code : Nat) : (c.notify kind cls code).creg = c.creg := rfl
@[simp] theorem notify_treg (c : Core) (kind cls code : Nat) : (c.notify kind cls code).treg = c.treg := rfl
@[simp] theorem notify_queues (c : Core) (kind cls code : Nat) : (c.notify kind cls code).queues = c.queues := rfl
@[simp] theorem notify_due (c : Core) (kind cls code : Nat) :
    (c.notify kind cls code).log.due
      = (if c.noticeSoon then [] else c.log.due.take 1) ++ [(⟨kind, cls, code, c.rd R.LDG_FLOG_WI - 1⟩ : Notice)] := by
  unfold Core.notify
  split <;> simp [*]

/-- Joining into the step changes JSTAT alone, and only in RUN. -/
theorem joinStep_spec (c : Core) (st : Nat) :
    (c.rd R.CH_BELLSTEP_STATE ≠ 1 → c.joinStep st = c) ∧
    (c.rd R.CH_BELLSTEP_STATE = 1 → c.joinStep st = c.wr R.CH_BELLSTAT_JSTAT (joinStatus (c.rd R.CH_BELLSTAT_JSTAT) st)) := by
  unfold Core.joinStep
  exact ⟨fun h => by rw [if_neg h], fun h => by rw [if_pos h]⟩

end Sys2Proof.Machine
end

