-- ==== Sys2Proof/Tests/Slice0.lean ====
section
/-! SUPPORT. Tests: an ill-formed command for each check, worked examples of the spec, and for every statement with hypotheses
states and operands that meet them together. A witness for a clause shows the clause's hypotheses at that state; where they name
the state or the value a sub-operation answers, the one it does answer. -/

section
set_option Elab.async false
open Sys2Proof Sys2Proof.Machine

namespace Sys2Proof.Tests
def up (c : Core) : State := { mach := { core := c }, pwr := { fullRstN := true, compRstN := true } }
def word (fs : List (Nat × Nat)) : Nat := fs.foldl (fun x f => x + f.2 * 2 ^ f.1) 0
def base : Core := (({} : Core).wr R.LDG_FP_SUMMARY_VALID 1).wr R.STG_STATUS_FULL 1
def cmd (u q op : Nat) (fs : List (Nat × Nat)) : Cmd := { unit := u, q := q, idx := 5, word := word ((0, op) :: fs), phase := .run }
def one (x : Cmd) : State := up { base with queues := { cmds := [x] } }
def onc (x : Cmd) (f : Core → Core) : State := up (f { base with queues := { cmds := [x] } })
/-- every bank of one class, the whole memory in the queue's bound -/
def allq : Nat := 16384 * 2 ^ 15 + 0xFFFF * 2 ^ 32
def banks (k : Nat) : Nat := k * ((8 ^ 16 - 1) / 7)
def lcmd (u q op k : Nat) (fs : List (Nat × Nat)) : Cmd := { cmd u q op fs with memq := allq, bmap := banks k }
def tested (t : Nat) (c : Core) : Core :=
  let c := (c.twr t R.MEM_STATUS_LO_OK 1).twr t R.MEM_STATUS_HI_OK 1
  { c with led := { c.led with passLow := some [], passHigh := some [] } }
def region (t n start count mode tag : Nat) (c : Core) : Core :=
  ((((c.twr t (R.MEM_RGN_VALID n) 1).twr t (R.MEM_RGN_START n) start).twr t (R.MEM_RGN_COUNT n) count).twr t (R.MEM_RGN_MODE n) mode).twr t (R.MEM_RGN_TAG n) tag
def withMem (m : List Host.Cell) (s : State) : State := { s with mach := { s.mach with mem := m } }
def okM {α : Type} (a : Ans α) : Mach := match a with | .ok m _ => m | .fail m _ => m | .wait m _ => m | _ => {}
def okV {α : Type} (d : α) (a : Ans α) : α := match a with | .ok _ v => v | _ => d
def okS {α : Type} (a : Ans α) : Nat := match a with | .fail _ s => s | _ => 99
/-- queue registers, its memory range and banks -/
def qregs (t q k rlen pi ci : Nat) (c : Core) : Core :=
  ((((c.qset t q 0 (R.SEQ_QRING_RLEN 0) rlen).qset t q 0 (R.SEQ_QRING_PI 0) pi).qset t q 1 (R.SEQ_QSTAT_CI 0) ci).setTword t (0x1000+8*q) (BitVec.ofNat 64 allq)).setTword t 0x1040 (BitVec.ofNat 64 (banks k))
def mreq (cmd : Nat) (body : List Byte) : MbReq := { port := 0, slot := 15, cmd := cmd, vmaj := 0, tag := 9, resp := 3 * 2 ^ 45, body := body }
def mcore (r : MbReq) (c : Core) : Core := { (c.wr (R.PRT_STATE_STATE 0) 2).wr (R.CH_MBSTAT_BUSY 0) 0x8000 with mb := { reqs := [r] } }
def mS (r : MbReq) (f : Core → Core) : State := up (f (mcore r base))
/-- The state a command answers with. -/
def after (o : Host.Outcome State Fault Refusal) : State := match o with | .next t => t | _ => {}
def goesOn (o : Host.Outcome State Fault Refusal) : Bool := match o with | .next _ => true | _ => false
theorem eq_next {o : Host.Outcome State Fault Refusal} (h : goesOn o = true) : o = .next (after o) := by
  cases o <;> simp_all [goesOn, after]
def isOk {α : Type} (a : Ans α) : Bool := match a with | .ok _ _ => true | _ => false
def isFail {α : Type} (a : Ans α) : Bool := match a with | .fail _ _ => true | _ => false
theorem eq_ok {α : Type} {d : α} {a : Ans α} (h : isOk a = true) : a = .ok (okM a) (okV d a) := by
  cases a <;> simp_all [isOk, okM, okV]
theorem eq_fail {α : Type} {a : Ans α} (h : isFail a = true) : a = .fail (okM a) (okS a) := by
  cases a <;> simp_all [isFail, okM, okS]
end Sys2Proof.Tests

namespace Sys2Proof.Tests.S0
open Sys2Proof.Tests
/-! Well-formedness: one ill-formed term for each check. -/

/-- A unit or a queue that is not there, of each command that names them. -/
def badQueues : List Instr :=
  [.nop 960 4 0, .tset 1060 0 0, .tinc 960 4 0, .put 1060 0 0, .get 960 4 0, .copy 0 8 0, .rtinc 1060 0 0, .lwb 960 4 0, .linv 0 8 0,
    .lpf 1060 3 0, .commandFetch 960 4, .tallyWait 0 8, .admission 1060, .commandCompletion 1060 0 0, .tagWait 0 8 0,
    .reissue 1060 0 0 0, .partLoss 0 8 0 0]
theorem test_badQueues : badQueues.all (fun i => !wellFormed i) = true := by decide
/-- A tile, an array, a region or a line that is not there. -/
def badTiles : List Instr :=
  [.qadv 960, .regwr 960, .memQWrite 960, .memBankmapWrite 960, .memRgnWrite 960, .br 960, .flagrd 960, .shclr 960, .abort 960,
    .post 960, .mma 960 0, .mma 0 4, .chain 960, .psum 960, .gather 960 0, .seal 960 0, .sealx 960 0, .multicastCopyLanding 960,
    .ringAtTile 960, .report 960, .repair 960, .regionClose 960 0, .regionClose 0 16, .darktmoExpiry 960 0, .darktmoExpiry 0 16,
    .regionWake 960 0, .regionWake 0 16, .pendClear 960, .scrub 1056 0, .scrub 0 16384, .scrub 960 65536, .nflagsRcRead 960]
theorem test_badTiles : badTiles.all (fun i => !wellFormed i) = true := by decide
def trainObs : TrainObs := { outRate := 2300, inRate := 2300 }
def insObs : InsertObs := ⟨true, true, trainObs, trainObs⟩
def frameObs : FrameObs := { frame := {} }
/-- A port, a strand, a position, a domain, a router, a slice or a strap value that is not there. -/
def badParts : List Instr :=
  [.portArrival 6, .frame 6 0 frameObs, .idleFrame 6 0, .absentNotice 6, .retrain 6, .retire 6, .dedup 6, .linkTraining 6 0 trainObs,
    .partnerTimeout 6 0, .laneFail 6 0 0, .laneStall 6 0 0, .hardEventLimit 6 0, .countWindow 6 0, .ackWireFail 6 0 ⟨0, 20⟩, .ackWireFail 0 0 ⟨16, 0⟩,
    .strandLost 6 0 false, .portLoss 6, .ringRelay 3, .ringInsertion 4 insObs, .insertionRetry 4 insObs, .thermalState 29 0 0, .sensorRemoval 29 0 0,
    .phaseFail 30 0, .netQdepthRead 1104 0 0, .netQdepthRead 0 3 0, .netQdepthRead 0 0 6, .fullRstNRise 16 0 ⟨0, false⟩, .fullRstNRise 0 4 ⟨0, false⟩,
    .fullRstNRise 0 0 ⟨8, true⟩, .partnerPresent 6 0, .positionTrafficResumed 4 insObs, .sliceSwitchDone 96, .domainRampDone 28]
theorem test_badParts : badParts.all (fun i => !wellFormed i) = true := by decide
/-- What is refused faults by name. -/
theorem test_badFaults : exec (.mma 0 4) State.reset = .fault .noSuchUnit := rfl

/-! Worked examples of the spec. -/

/-- Chapter 3: P16 3FA0h expands to P19 1FE80h. -/
theorem test_expandP16 : expandP16 0x3FA0 = 0x1FE80 := by decide
/-- Chapter 3: P4 codes 4h and Dh expand to P8A 40h and C4h. -/
theorem test_expandP4 : expandP4 4 = 0x40 ∧ expandP4 0xD = 0xC4 := by decide
/-- Chapter 3, Table 3.4: the pieces of FP32 3F90080Bh are the P19 values 1FC80h, 1CC04h and 1A600h. -/
theorem test_split :
    let z := splitElem .fp32 (decodeFmt .fp32 0x3F90080B)
    NV.cmp z.hi (decodeFmt .p19 0x1FC80) = some .eq ∧ NV.cmp z.mid (decodeFmt .p19 0x1CC04) = some .eq
      ∧ NV.cmp z.lo (decodeFmt .p19 0x1A600) = some .eq := by decide +kernel
/-- Chapter 4: SEQ_SHIST 4C0009h selects the P8A scale 82h, and 5FC009h selects 83h. -/
theorem test_selectScale :
    selectScale (SHist.ofNat 0x4C0009) .p8a = 0x82 ∧ selectScale (SHist.ofNat 0x5FC009) .p8a = 0x83 := by decide +kernel
/-- Chapter 4, Table 4.6: 731 under scale 82h is 73h to nearest; 1,020 is 78h to nearest and 77h toward zero, with overflow. -/
theorem test_convert :
    convertFloat .p8a (Cvt.ofWord 0x01) (divideScale (.fin false 731 0) 0x82) false 0 = (0x73, { inexact := true })
      ∧ convertFloat .p8a (Cvt.ofWord 0x01) (divideScale (.fin false 1020 0) 0x82) false 0 = (0x78, .overflow)
      ∧ convertFloat .p8a (Cvt.ofWord 0x11) (divideScale (.fin false 1020 0) 0x82) false 0 = (0x77, .overflow) := by decide +kernel
/-- Chapter 4, Table 4.6: −0.005859375 under scale 82h is −0 with underflow; the drain's largest value leaves 5FC009h. -/
theorem test_convertSmall :
    convertFloat .p8a (Cvt.ofWord 0x01) (divideScale (.fin true 6 (-10)) 0x82) false 0 = (0x80, .underflow)
      ∧ ((SHist.ofNat 0x4C0009).record (.fin false 1020 0)).toNat = 0x5FC009 := by decide +kernel
/-- Chapter 6: the three records' cell sums to 700,022 with STICKY. -/
theorem test_sum :
    let z := ((Cell.clear.joinRecord ⟨1000003, .none, false, false⟩ 0).joinRecord ⟨-600001, .none, false, false⟩ 1).joinRecord
      ⟨81, .none, false, false⟩ 2
    z = ⟨700022, .none, true, false⟩ := by decide +kernel
/-- Chapter 6, Table 6.5: row 0 as split FP32 elements. -/
def rowA : List Split :=
  ([0x49800100] ++ List.replicate 14 0x30800000 ++ [0xC9800000]).map (fun x => splitElem .fp32 (decodeFmt .fp32 x))
def ones : List Split := List.replicate 16 (splitElem .p16 (decodeFmt .p16 0x3F00))
/-- Chapter 6: at pass level 1 the cell is V = 0 with STICKY, which cancels; at level 2 it is 32. -/
theorem test_passLevels :
    let a := (Cell.dot 0 (runSweeps 0 .fp32 .p16) 22 rowA ones).1
    let b := (Cell.dot 1 (runSweeps 1 .fp32 .p16) 22 rowA ones).1
    a = ⟨0, .none, true, false⟩ ∧ a.cancels = true ∧ b = ⟨2 ^ 31, .none, true, false⟩ ∧ b.cancels = false
      ∧ roundFp32 (b.value 22) = (0x42000000, .none) := by decide +kernel
/-- Chapter 1: the register of row 30 with BAD 4 and 13, then with physical column 8, logical column 7, out of service. -/
theorem test_rowRegister :
    (base.setRow 30 (2 ^ 4 + 2 ^ 13) 0 false).cword 0x201F0 = 0x2000000000002010 ∧ physCol (2 ^ 4 + 2 ^ 13) 7 = 8
      ∧ (base.setRow 30 (2 ^ 4 + 2 ^ 13) (2 ^ 8) false).cword 0x201F0 = 0x2002000020002010 := by decide +kernel
/-- Chapter 1: at the next build BAD is 4, 8 and 13, and logical columns 7 and 11 stand on physical 9 and 14. -/
theorem test_rowBuild :
    (base.setRow 30 (2 ^ 4 + 2 ^ 8 + 2 ^ 13) 0 false).cword 0x201F0 = 0x3000000000002110
      ∧ physCol (2 ^ 4 + 2 ^ 8 + 2 ^ 13) 7 = 9 ∧ physCol (2 ^ 4 + 2 ^ 8 + 2 ^ 13) 11 = 14 := by decide +kernel
/-- Chapter 14: with e_row 4,250,000 nJ over 24 row pairs of weight 16 and 40 tiles, a tile's grant is 4,427 nJ. -/
theorem test_grant : base.tileGrant 1 4250000 1 384 = 4427 := by decide +kernel
/-- Chapter 18: CH_HMSTAT of the example. -/
def hm5 : Core :=
  ((((((base.wr R.CH_HMSTAT_PRESENTED 4).wr R.CH_HMSTAT_VERIFIED 3).wr R.CH_HMSTAT_REFUSED 1).wr R.CH_HMSTAT_TILES 2).wr
    R.CH_HMSTAT_PASS23 1).wr R.CH_HMSTAT_SCALE 2).wr R.CH_HMSTAT_APPLIED 1
theorem test_hmstat : hm5.cword R.CH_HMSTAT_PRESENTED.off = 0x66134 := by decide +kernel
/-- FIPS 180-4: the SHA-384 of "abc" begins CB00753F45A35E8B. -/
theorem test_sha384 : (sha384 [0x61, 0x62, 0x63]).take 8 = [0xCB, 0x00, 0x75, 0x3F, 0x45, 0xA3, 0x5E, 0x8B] := by decide +kernel
/-- Chapter 9: SEQ_TALLY[9] reading 100014h is a count of 20 with FAULT. -/
theorem test_tally :
    let c := base.setTword 0 0x448 (BitVec.ofNat 64 0x100014)
    c.tallyCount 0 9 = 20 ∧ c.tallyFault 0 9 = true ∧ c.tallyOvf 0 9 = false := by decide +kernel
end Sys2Proof.Tests.S0

namespace Sys2Proof.Tests.S1
open Sys2Proof.Tests
def m64 : Nat := 2^64-1
def rq (blk ofs val mask : Nat) := cmd 0 7 4 [(64,blk),(68,ofs),(128,val),(192,mask)]
def r1 := rq 1 16 (3*2^16 + 2*2^32) m64
def r4 := rq 0 0x208 12345678901234567890 m64
def r6 := rq 0 0x38 (16383+2^15) m64
def r7 := rq 0 0x0 (16383+2^16) m64
def r8 := rq 0 0x40 (4+8*3) m64
def r9 := rq 0 0x40 (5*2^45) m64
def w (s c m v : Nat) : Nat := fldVal (R.MEM_RGN_START 0) s + fldVal (R.MEM_RGN_COUNT 0) c + fldVal (R.MEM_RGN_MODE 0) m + fldVal (R.MEM_RGN_VALID 0) v
def rg (n val : Nat) := rq 0 (0x100+8*n) val m64
def clos : State := withMem [(65535,3),(65536,7)] (up { (region 0 2 0 4 2 0 base).twr 0 (R.MEM_RGN_STATE 2) 1 with tiles := { closing := [⟨0,2,0⟩] } })
def clos2 : State := withMem [(65535,3),(65536,7)] (up { ((region 0 2 0 4 2 0 base).twr 0 (R.MEM_RGN_STATE 2) 1).wr R.TMB_NOW_NOW 10000 with tiles := { closing := [⟨0,2,0⟩] } })
def br1 := cmd 0 7 5 [(64,3),(66,0),(96,65535)]
def fl1 := lcmd 0 7 7 4 [(64,2^20-8),(84,1)]
def fs1 := onc fl1 (fun c => (tested 0 c).setTword 0 0x200 0x1FFFFFF)
def ab := cmd 0 7 9 [(64,1)]
def sw1 : State := one (cmd 3 7 0 [])
def xw1 : Cmd := cmd 3 7 0 []
def tw1 : State := after (exec (.nop 3 7 0) (one (cmd 3 7 0 [])))
def sw2 : State := one (cmd 961 3 1 [(64,63),(70,77),(90,1)])
def xw2 : Cmd := cmd 961 3 1 [(64,63),(70,77),(90,1)]
def tw2 : State := after (exec (.tset 961 3 0) (one (cmd 961 3 1 [(64,63),(70,77),(90,1)])))
def sw3 : State := one r1
def sw4 : State := one r4
def sw5 : State := one r6
def sw6 : State := one r7
def sw7 : State := one r8
def sw8 : State := one r9
def sw9 : State := onc (rg 15 (w 0 64 0 1)) (tested 0)
def xw3 : Cmd := rg 15 (w 0 64 0 1)
def sw10 : State := onc (rg 2 (w 0 4 2 1)) (fun c => region 0 2 0 4 0 0 (tested 0 c))
def xw4 : Cmd := rg 2 (w 0 4 2 1)
def sw11 : State := onc (rg 2 (w 0 4 0 1)) (fun c => region 0 2 0 4 1 0 (tested 0 c))
def xw5 : Cmd := rg 2 (w 0 4 0 1)
def kw1 : Closing := ⟨0,2,0⟩
def sw12 : State := up ((region 0 15 0 4 0 0 base).twr 0 (R.MEM_RGN_STATE 15) 2)
def sw13 : State := one br1
def sw14 : State := onc br1 (fun c => c.setTword 0 (0x3010+0x30) 3)
def sw15 : State := onc br1 (fun c => c.setTword 0 (0x3010+0x30) 1)
def sw16 : State := onc (cmd 0 7 8 [(64,0x8001)]) (fun c => (c.setTword 0 0x300 5).setTword 0 0x378 6 |>.setTword 0 0x308 9)
def xw6 : Cmd := cmd 0 7 8 [(64,0x8001)]
def sw17 : State := up { base with queues := { cmds := [ab, {cmd 0 0 0 [] with phase := .waitTally}, {cmd 0 6 0 [] with phase := .ready}, {cmd 1 0 0 [] with phase := .ready}] } }
theorem witness_TallyCommandsActOnTheirTally_1 :
    Runs sw1 3 7 0 0 xw1 := by
  unfold Runs; decide +kernel
theorem witness_TallyCommandsActOnTheirTally_2 :
    Runs sw1 3 7 0 0 xw1 ∧
    exec (Instr.nop 3 7 0) sw1 = Host.Outcome.next tw1 := by
  refine ⟨by (unfold Runs; decide +kernel), by exact (eq_next (o := exec (Instr.nop 3 7 0) sw1) (by decide +kernel)).trans rfl⟩
theorem witness_TallyCommandsActOnTheirTally_3 :
    Runs sw2 961 3 0 1 xw2 := by
  unfold Runs; decide +kernel
theorem witness_TallyCommandsActOnTheirTally_4 :
    Runs sw2 961 3 0 1 xw2 ∧
    (exec (Instr.tset 961 3 0) sw2 = Host.Outcome.next tw2 ∨ exec (Instr.tinc 961 3 0) sw2 = Host.Outcome.next tw2) := by
  refine ⟨by (unfold Runs; decide +kernel), by exact .inl ((eq_next (o := exec (Instr.tset 961 3 0) sw2) (by decide +kernel)).trans rfl)⟩
theorem witness_RegisterWritesTakeEffectOrFail_1 :
    0 < 960 ∧
    2 < 8 ∧
    Runs sw3 0 7 0 4 r1 ∧
    rwBlk r1.word = 1 ∧
    rwOfs r1.word = 8 * 2 := by
  unfold Runs; decide +kernel
theorem witness_RegisterWritesTakeEffectOrFail_2 :
    0 < 960 ∧
    Runs sw4 0 7 0 4 r4 ∧
    rwBlk r4.word = 0 ∧
    rwSpecial r4.word = false := by
  unfold Runs; decide +kernel
theorem witness_RegisterWritesTakeEffectOrFail_3 :
    0 < 960 ∧
    Runs sw5 0 7 0 4 r6 ∧
    rwBlk r6.word = 0 ∧
    rwOfs r6.word < 64 ∧
    bits (masked (BitVec.toNat (sw5.mach.core.tword 0 (4096 + rwOfs r6.word))) (rwValue r6.word) (rwBits r6.word)) 0 14 +
        bits (masked (BitVec.toNat (sw5.mach.core.tword 0 (4096 + rwOfs r6.word))) (rwValue r6.word) (rwBits r6.word)) 15 15 ≤
      16384 := by
  unfold Runs; decide +kernel
theorem witness_RegisterWritesTakeEffectOrFail_4 :
    0 < 960 ∧
    Runs sw6 0 7 0 4 r7 ∧
    rwBlk r7.word = 0 ∧
    rwOfs r7.word < 64 ∧
    16384 <
      bits (masked (BitVec.toNat (sw6.mach.core.tword 0 (4096 + rwOfs r7.word))) (rwValue r7.word) (rwBits r7.word)) 0 14 +
        bits (masked (BitVec.toNat (sw6.mach.core.tword 0 (4096 + rwOfs r7.word))) (rwValue r7.word) (rwBits r7.word)) 15 15 := by
  unfold Runs; decide +kernel
theorem witness_BankClassesChangeAndSettle_1 :
    0 < 960 ∧
    Runs sw7 0 7 0 4 r8 ∧
    rwBlk r8.word = 0 ∧
    rwOfs r8.word = 64 ∧
    r8.committed = false ∧
    (∀ b < 16, bits (masked (BitVec.toNat (sw7.mach.core.tword 0 4160)) (rwValue r8.word) (rwBits r8.word)) (3 * b) 3 ≤ 4) := by
  unfold Runs; decide +kernel
theorem witness_BankClassesChangeAndSettle_2 :
    sw7.live = true ∧
    0 < 960 := by
  decide +kernel
theorem witness_BankClassesChangeAndSettle_3 :
    0 < 960 ∧
    Runs sw8 0 7 0 4 r9 ∧
    rwBlk r9.word = 0 ∧
    rwOfs r9.word = 64 ∧
    r9.committed = false ∧
    (∃ b < 16, 4 < bits (masked (BitVec.toNat (sw8.mach.core.tword 0 4160)) (rwValue r9.word) (rwBits r9.word)) (3 * b) 3) := by
  unfold Runs; decide +kernel
theorem witness_RegionsChangeModeAndSettle_1 :
    0 < 960 ∧
    15 < 16 ∧
    Runs sw9 0 7 0 4 xw3 ∧
    rwBlk xw3.word = 0 ∧
    rwOfs xw3.word = 256 + 8 * 15 ∧
    xw3.committed = false ∧
    (sw9.mach.core.rd (R.WGH_DOMST_MODE (0 / 20 / 2)) ≠ 1 ∧ sw9.mach.core.rd (R.WGH_DOMST_MODE (0 / 20 / 2)) ≠ 2) ∧
    sw9.mach.core.rgnIgnored 0 15 (BitVec.toNat (sw9.mach.core.tword 0 (4352 + 8 * 15)))
        (masked (BitVec.toNat (sw9.mach.core.tword 0 (4352 + 8 * 15))) (rwValue xw3.word) (rwBits xw3.word))
        (decide (rwBits xw3.word &&& 49152 ≠ 0)) =
      true := by
  unfold Runs; decide +kernel
theorem witness_RegionsChangeModeAndSettle_2 :
    0 < 960 ∧
    2 < 16 ∧
    Runs sw10 0 7 0 4 xw4 ∧
    rwBlk xw4.word = 0 ∧
    rwOfs xw4.word = 256 + 8 * 2 ∧
    xw4.committed = false ∧
    (sw10.mach.core.rd (R.WGH_DOMST_MODE (0 / 20 / 2)) ≠ 1 ∧ sw10.mach.core.rd (R.WGH_DOMST_MODE (0 / 20 / 2)) ≠ 2) ∧
    sw10.mach.core.rgnIgnored 0 2 (BitVec.toNat (sw10.mach.core.tword 0 (4352 + 8 * 2)))
        (masked (BitVec.toNat (sw10.mach.core.tword 0 (4352 + 8 * 2))) (rwValue xw4.word) (rwBits xw4.word))
        (decide (rwBits xw4.word &&& 49152 ≠ 0)) =
      false ∧
    decide (rgnField (BitVec.toNat (sw10.mach.core.tword 0 (4352 + 8 * 2))) R.MEM_RGN_VALID = 1) = true ∧
    decide
        (rgnField (masked (BitVec.toNat (sw10.mach.core.tword 0 (4352 + 8 * 2))) (rwValue xw4.word) (rwBits xw4.word))
            R.MEM_RGN_VALID =
          1) =
      true ∧
    rgnField (BitVec.toNat (sw10.mach.core.tword 0 (4352 + 8 * 2))) R.MEM_RGN_MODE = 0 ∧
    rgnField (masked (BitVec.toNat (sw10.mach.core.tword 0 (4352 + 8 * 2))) (rwValue xw4.word) (rwBits xw4.word))
        R.MEM_RGN_MODE ≠
      0 := by
  unfold Runs; decide +kernel
theorem witness_RegionsChangeModeAndSettle_3 :
    0 < 960 ∧
    2 < 16 ∧
    Runs sw11 0 7 0 4 xw5 ∧
    rwBlk xw5.word = 0 ∧
    rwOfs xw5.word = 256 + 8 * 2 ∧
    xw5.committed = false ∧
    (sw11.mach.core.rd (R.WGH_DOMST_MODE (0 / 20 / 2)) ≠ 1 ∧ sw11.mach.core.rd (R.WGH_DOMST_MODE (0 / 20 / 2)) ≠ 2) ∧
    sw11.mach.core.rgnIgnored 0 2 (BitVec.toNat (sw11.mach.core.tword 0 (4352 + 8 * 2)))
        (masked (BitVec.toNat (sw11.mach.core.tword 0 (4352 + 8 * 2))) (rwValue xw5.word) (rwBits xw5.word))
        (decide (rwBits xw5.word &&& 49152 ≠ 0)) =
      false ∧
    decide (rgnField (BitVec.toNat (sw11.mach.core.tword 0 (4352 + 8 * 2))) R.MEM_RGN_VALID = 1) = true ∧
    decide
        (rgnField (masked (BitVec.toNat (sw11.mach.core.tword 0 (4352 + 8 * 2))) (rwValue xw5.word) (rwBits xw5.word))
            R.MEM_RGN_VALID =
          1) =
      true ∧
    rgnField (BitVec.toNat (sw11.mach.core.tword 0 (4352 + 8 * 2))) R.MEM_RGN_MODE ≠ 0 ∧
    rgnField (masked (BitVec.toNat (sw11.mach.core.tword 0 (4352 + 8 * 2))) (rwValue xw5.word) (rwBits xw5.word))
        R.MEM_RGN_MODE =
      0 := by
  unfold Runs; decide +kernel
theorem witness_RegionsChangeModeAndSettle_4 :
    clos.live = true ∧
    0 < 960 ∧
    2 < 16 ∧
    clos.mach.core.rgnClosing 0 2 = true ∧
    clos.mach.core.trd 0 (R.MEM_RGN_INBOUND 2) = 0 := by
  decide +kernel
theorem witness_RegionsChangeModeAndSettle_5 :
    clos2.live = true ∧
    0 < 960 ∧
    2 < 16 ∧
    clos2.mach.core.rgnClosing 0 2 = true ∧
    List.find? (fun (k : Closing) => decide (k.tile = 0) && decide (k.n = 2)) clos2.mach.core.tiles.closing = some kw1 ∧
    clos2.mach.core.trd 0 R.MEM_TIMERS_DARKTMO ≤ clos2.mach.core.now - kw1.start := by
  decide +kernel
theorem witness_RegionsChangeModeAndSettle_6 :
    sw12.live = true ∧
    0 < 960 ∧
    15 < 16 ∧
    sw12.mach.core.trd 0 (R.MEM_RGN_STATE 15) = 2 := by
  decide +kernel
theorem witness_BranchFlagAndHistoryCommandsAct_1 :
    0 < 960 ∧
    Runs sw13 0 7 0 5 br1 ∧
    sw13.mach.core.trd 0 (R.CHN_SUMA_VALID (bits br1.word 64 2)) = 0 := by
  unfold Runs; decide +kernel
theorem witness_BranchFlagAndHistoryCommandsAct_2 :
    0 < 960 ∧
    Runs sw14 0 7 0 5 br1 ∧
    sw14.mach.core.trd 0 (R.CHN_SUMA_VALID (bits br1.word 64 2)) ≠ 0 ∧
    sw14.mach.core.branchTaken 0 (bits br1.word 64 2) (bits br1.word 66 4) (bits br1.word 72 18) = true := by
  unfold Runs; decide +kernel
theorem witness_BranchFlagAndHistoryCommandsAct_3 :
    0 < 960 ∧
    Runs sw15 0 7 0 5 br1 ∧
    sw15.mach.core.trd 0 (R.CHN_SUMA_VALID (bits br1.word 64 2)) ≠ 0 ∧
    sw15.mach.core.branchTaken 0 (bits br1.word 64 2) (bits br1.word 66 4) (bits br1.word 72 18) = false := by
  unfold Runs; decide +kernel
theorem witness_BranchFlagAndHistoryCommandsAct_4 :
    0 < 960 ∧
    Runs fs1 0 7 0 7 fl1 ∧
    fl1.phys (bits fl1.word 64 20) % 8 = 0 ∧
    fs1.mach.WritesNow fl1 (fl1.phys (bits fl1.word 64 20)) := by
  unfold Runs Machine.Mach.WritesNow; decide +kernel
theorem witness_BranchFlagAndHistoryCommandsAct_5 :
    0 < 960 ∧
    Runs sw16 0 7 0 8 xw6 := by
  unfold Runs; decide +kernel
theorem witness_AbortsTakeTheirTargets_1 :
    0 < 960 ∧
    Runs sw17 0 7 0 9 ab ∧
    ab.committed = false := by
  unfold Runs; decide +kernel
end Sys2Proof.Tests.S1

namespace Sys2Proof.Tests.S3
open Sys2Proof.Tests
def f1 : State := withMem (writeBytes [] (tileBase 3 + 96) (toBytes 32 (word [(0,4),(12,9)]))) (up (qregs 3 0 4 4 0 65535 ((tested 3 base).twr 3 R.SEQ_LOADER_LSTATE 0)))
def f1b : State := (up (qregs 3 0 4 4 0 65535 (base.twr 3 R.SEQ_LOADER_LSTATE 0)))
def fb (s : State) (u q : Nat) := s.mach.fetchBytes u q (s.mach.core.ringCI u q)
def tw : Cmd := { cmd 0 3 0 [(32,5),(20,63)] with phase := .waitTally }
def tc (n fault : Nat) : Core → Core := fun c => c.tallyPut 0 63 n (fault=1) false
def ah : Cmd := { cmd 0 3 0 [(16,3)] with phase := .ready }
def ad (cost cap cred : Nat) : Core → Core := fun c => ((c.wr (R.WGH_ECT_COST 0 0 3) cost).twr 0 R.SEQ_ALLOW_CAP cap).twr 0 R.SEQ_ALLOW_CREDIT cred
def cc (st : Nat) : Cmd := { cmd 961 31 0 [(8,1),(26,63)] with q := 3, phase := .done, status := st, p := 7 }
def cx (st n : Nat) := up { (base.tallyPut 961 63 n false false) with queues := { cmds := [cc st, {cmd 0 0 0 [] with phase := .ready}] } }
def tg (w : Bool) : Cmd := { cmd 0 4 0x20 [] with wait := some ⟨65, w⟩ }
def ts (w : Bool) (tg' : Tag) := onc (tg w) (fun c => (region 0 0 0 4 0 1 c).setTag 0 65 tg')
def ar : Arrival := { id := 9, unit := 0, pkt := { typ := 1, payload := [1], len := 1 }, claims := [65, 66], since := some 0 , wrote := [65]}
def mw1 : Mach := okM (fb f1b 3 0)
def stw1 : Nat := okS (fb f1b 3 0)
def sw1 : State := onc tw (tc 5 0)
def sw2 : State := onc ah (ad 5 10 5)
def sw3 : State := cx 0 5
def xw1 : Cmd := cc 0
def sw4 : State := ts false .full
def xw2 : Cmd := tg false
def ww1 : TagWait := ⟨65,false⟩
def sw5 : State := ts true .full
def sw6 : State := ts true .failed
def xw3 : Cmd := tg true
def ww2 : TagWait := ⟨65,true⟩
def sw7 : State := up ((({ base with net := { arr := [ar] } } |> region 0 0 0 4 0 1).setTag 0 65 (.claimed ar.owner)).twr 0 R.MEM_TIMERS_TAGWAIT 0)
theorem witness_FetchWaitAndAdmission_1 :
    f1.live = true ∧
    isQueue 3 0 = true ∧
    f1.mach.core.halted 3 0 = false ∧
    f1.mach.core.unitFetches 3 = true ∧
    f1.mach.core.toFetch 3 0 ≠ 0 ∧
    (∀ y ∈ f1.mach.core.queueCmds 3 0, y.started = true) ∧
    (f1.mach.core.queueCmds 3 0).length < inflightLimit 3 0 ∧
    (3 < 960 →
      f1.mach.core.queues.seen = [] ∧
        f1.mach.ReadsNow (f1.mach.core.fetchView 3 0 (f1.mach.core.ringCI 3 0)) clsSeq
          (f1.mach.core.ringOff 3 0 (f1.mach.core.ringCI 3 0 % f1.mach.core.ringLen 3 0)) 32) := by
  unfold Machine.Mach.ReadsNow; decide +kernel
theorem witness_FetchWaitAndAdmission_2 :
    f1b.live = true ∧
    isQueue 3 0 = true ∧
    f1b.mach.core.halted 3 0 = false ∧
    f1b.mach.core.unitFetches 3 = true ∧
    f1b.mach.core.toFetch 3 0 ≠ 0 ∧
    (∀ y ∈ f1b.mach.core.queueCmds 3 0, y.started = true) ∧
    (f1b.mach.core.queueCmds 3 0).length < inflightLimit 3 0 ∧
    f1b.mach.fetchBytes 3 0 (f1b.mach.core.ringCI 3 0) = Ans.fail mw1 stw1 := by
  refine ⟨?_, ?_, ?_, ?_, ?_, ?_, ?_, ?_⟩ <;> first | exact eq_ok (by decide +kernel) | exact fun _ => rfl | decide +kernel
theorem witness_FetchWaitAndAdmission_3 :
    sw1.live = true ∧
    isQueue 0 3 = true ∧
    sw1.mach.core.head? 0 3 = some tw ∧
    tw.phase = CPhase.waitTally := by
  decide +kernel
theorem witness_FetchWaitAndAdmission_4 :
    sw2.live = true ∧
    isQueue 0 3 = true ∧
    sw2.mach.core.resv 0 = none ∧
    sw2.mach.core.readyHead 0 3 = some ah ∧
    (∀ q' < queuesOf 0, q' ≠ 3 → sw2.mach.core.readyHead 0 q' = none) ∧
    sw2.mach.core.cost ah ≤ sw2.mach.core.creditCap ∧
    sw2.mach.core.cost ah ≤ sw2.mach.core.credit 0 := by
  decide +kernel
theorem witness_FetchWaitAndAdmission_5 :
    sw2.live = true ∧
    isQueue 0 3 = true := by
  decide +kernel
theorem witness_CompletionAndTagWaits_1 :
    sw3.live = true ∧
    isQueue 961 3 = true ∧
    List.find? (fun (x : Cmd) => decide (x.idx = 5)) (sw3.mach.core.queueCmds 961 3) = some xw1 ∧
    xw1.phase = CPhase.done ∧
    (listOrder 961 3 = false ∨ Option.map Cmd.id (sw3.mach.core.queueCmds 961 3).head? = some xw1.id) := by
  decide +kernel
theorem witness_CompletionAndTagWaits_2 :
    sw4.live = true ∧
    isQueue 0 4 = true ∧
    sw4.mach.core.running? 0 4 0 = some xw2 ∧
    xw2.wait = some ww1 ∧
    ww1.write = false ∧
    (sw4.mach.core.tag 0 ww1.slot = Tag.full ∨ sw4.mach.core.tag 0 ww1.slot = Tag.failed) := by
  decide +kernel
theorem witness_CompletionAndTagWaits_3 :
    sw5.live = true ∧
    isQueue 0 4 = true ∧
    sw5.mach.core.running? 0 4 0 = some xw3 ∧
    xw3.wait = some ww2 ∧
    ww2.write = true ∧
    sw5.mach.core.claimable 0 ww2.slot xw3.owner = false := by
  decide +kernel
theorem witness_CompletionAndTagWaits_4 :
    sw6.live = true ∧
    isQueue 0 4 = true ∧
    sw6.mach.core.running? 0 4 0 = some xw3 ∧
    xw3.wait = some ww2 ∧
    ww2.write = true ∧
    (sw6.mach.core.taggedRegion 0 ww2.slot).isSome = true ∧
    sw6.mach.core.claimable 0 ww2.slot xw3.owner = true := by
  decide +kernel
theorem witness_CompletionAndTagWaits_5 :
    sw7.live = true ∧
    (sw7.mach.core.net.arr ++ sw7.mach.core.net.mstore)[0]? = some ar ∧
    ar.since = some 0 ∧
    ar.unit < 960 ∧
    sw7.mach.core.trd ar.unit R.MEM_TIMERS_TAGWAIT ≤ sw7.mach.core.now - 0 := by
  decide +kernel
end Sys2Proof.Tests.S3

namespace Sys2Proof.Tests.S5
open Sys2Proof.Tests
def bm : Nat := 1 + 2*8
def mm (fs : List (Nat×Nat)) : Cmd := { cmd 0 3 0x10 fs with memq := allq, bmap := bm }
def mx := mm [(100,1),(124,1),(84,16),(148,16),(104,0x2000),(164,0x2000),(234,0),(236,64)]
def ms : State := withMem (writeBytes (writeBytes [] 0 [0x40,0,0x3c,0,0x7f]) 0x1000 [0,0,0,0,3,0,127,0,0,0,1,4,0,0,0,0]) (onc mx (tested 0))
def st (op a b sub imm ad rest : Nat) : Nat := op + a*2^8 + b * 2^12 + sub*2^20+imm*2^32+ad*2^64+rest*2^84
def chx (fs : List (Nat×Nat)) : Cmd := lcmd 2 4 0x20 2 fs
def c1 := chx [(64,4),(99,1),(81,0)]
def cs (stg : Nat) : State := withMem (writeBytes [] (tileBase 2 + 256) (toBytes 16 stg)) (onc c1 (tested 2))
def s1 := cs (st 0x40 8 0 0 7 2 0)
def rd1 := s1.mach.localRead c1 clsChain (chSptr c1.word) (16 * chNS c1.word)
def er := (okM rd1).evalRow ((okM rd1).rowEnv c1 (stagesFrom (okV [] rd1) 1))
def c2 : Cmd := { c1 with memq := 16384 * 2 ^ 15 - 2^15 + 0xFFFF * 2 ^ 32 }
def s2' := withMem (writeBytes [] (tileBase 2 + 256) (toBytes 16 (st 1 0 0 0 5 0xFFFFC 0))) (onc c2 (tested 2))
def rd2 := s2'.mach.localRead c2 clsChain (chSptr c1.word) (16 * chNS c1.word)
def er2 := (okM rd2).evalRow ((okM rd2).rowEnv c2 (stagesFrom (okV [] rd2) 1))
def fM {α : Type} (a : Ans α) : Mach := match a with | .fail s _ => s | .ok s _ => s | _ => {}
def recb (kind : Nat) : List Byte := [BitVec.ofNat 8 kind, 1, 30, 0]
def pc := lcmd 2 4 0x21 2 [(64,4),(78,0),(86,1),(88,8)]
def pS (k : Nat) : State := withMem (writeBytes (writeBytes (writeBytes [] (tileBase 2 + 256) [16,0]) (tileBase 2 + 512) [0,0,0,0,3,0,127,0,0,0x80,0,4,0,0,0,0]) (tileBase 2 + 1024) (recb k)) (onc pc (tested 2))
def mw1 : Mach := okM rd1
def bsw1 : List Byte := okV [] rd1
def m'w1 : Mach := okM er
def aw1 : RowAcc := okV {} er
def mw2 : Mach := okM rd2
def bsw2 : List Byte := okV [] rd2
def m'w2 : Mach := fM er2
def stw1 : Nat := okS er2
/-! The values the matrix statement names, at one command. -/

def mRd (r : Nat × Nat) : List Byte := ms.mach.bytesAt mx r.1 r.2
def mD : DrainDesc := ⟨if mmaExport mx.word then 0 else ofBytes (mRd (mmaDOff mx.word, 64))⟩
def mForced : Option (List Int) :=
  if mmaFA mx.word then some ((List.range 64).map (fun i => signedOf 16 (leAt (mRd (mmaFaOff mx.word, 128)) (2 * i) 2))) else none
def mVs : List (Nat × Nat) := if mmaExport mx.word then [] else mD.vectors
def mNat : List Int := (mmaAnchorRuns mx.word).mapIdx (fun i r => mmaNatural mx.word i (mRd r))
def mTile : WideTile × NumFlags :=
  mmaTile mx.word (mForced.getD mNat)
    (mmaRows mx.word (if mma8 mx.word then (mmaAnchorRuns mx.word).map mRd else []) (mmaK mx.word) (((mmaRuns mx.word).take 64).map mRd))
def mHist : SHist := SHist.ofNat (ms.mach.core.tword 0 (0x300 + 8 * mD.cvt.shist)).toNat
def mOut : List (Nat × Byte) :=
  mx.pendingOf (if mmaExport mx.word then [(mmaDOff mx.word, mTile.1.encode 1)]
    else (drainTile mD (ms.mach.pwq 0) (ms.mach.core.rd R.CH_JOBSEED_SEED) mHist
      (if mVs ≠ [] ∧ mD.scEn then mRd (nthD mVs 0 (0, 0)) else []) (if mVs ≠ [] ∧ mD.biEn then mRd (nthD mVs (mVs.length - 1) (0, 0)) else [])
      mTile.1).1)
theorem mma_reads : ∀ r ∈ mmaHeads mx.word ++ mmaAnchorRuns mx.word ++ mVs ++ (mmaRuns mx.word).take 64,
    ms.mach.ReadsNow mx clsBobbin r.1 r.2 := by unfold Machine.Mach.ReadsNow; decide +kernel
theorem mma_lands : ∀ e ∈ mOut, ms.mach.WritesNow mx e.1 := by unfold Machine.Mach.WritesNow; decide +kernel
theorem mma_natural : mForced = none := by decide +kernel
theorem witness_MatrixChainAndPsumComplete_1 :
    ms.live = true ∧ 0 < 960 ∧ 3 < 4 ∧ ms.mach.core.mmaOf 0 3 = [mx] ∧ Fresh mx ∧ ms.mach.core.queues.seen = [] ∧
    (∀ r ∈ mmaHeads mx.word ++ mmaAnchorRuns mx.word ++ mVs ++ (mmaRuns mx.word).take 64, ms.mach.ReadsNow mx clsBobbin r.1 r.2) ∧
    (mmaExport mx.word = false → mx.drainStatus mD (ms.mach.pwq 0) clsBobbin = none) ∧
    (∀ l, mForced = some l → l.all (anchorInRange (if mma8 mx.word then 0 else 2)) = true ∧ ∀ i < 64, nthD mNat i 0 ≤ nthD l i 0) ∧
    ∀ e ∈ mOut, ms.mach.WritesNow mx e.1 :=
  ⟨by decide +kernel, by decide, by decide, by decide +kernel, by unfold Fresh; decide +kernel, by decide +kernel, mma_reads,
    by decide +kernel, fun l h => by simp [mma_natural] at h, mma_lands⟩
theorem witness_MatrixChainAndPsumComplete_2 :
    2 < 960 ∧
    Runs s1 2 4 0 32 c1 ∧
    c1.out = [] ∧
    c1.rows = [] ∧
    chNR c1.word = 1 ∧
    s1.mach.localRead c1 clsChain (chSptr c1.word) (16 * chNS c1.word) = Ans.ok mw1 bsw1 ∧
    mw1.evalRow (mw1.rowEnv c1 (stagesFrom bsw1 (chNS c1.word))) = Ans.ok m'w1 aw1 ∧
    aw1.out = [] ∧
    aw1.cout = [] := by
  refine ⟨by decide +kernel, by (unfold Runs; decide +kernel), by decide +kernel, by decide +kernel, by decide +kernel, by exact eq_ok (by decide +kernel), by exact eq_ok (by decide +kernel), by decide +kernel, by decide +kernel⟩
/-- A chain of one stage that loads from the tile's memory. -/
def s3 : State := cs (st 1 0 0 0 5 512 0)
def cSts : List Stage := stagesFrom (s3.mach.bytesAt c1 (chSptr c1.word) (16 * chNS c1.word)) (chNS c1.word)
def cRanges : List (Nat × Nat) := (nthD cSts 0 ⟨0⟩).rowRanges 0 (List.replicate 32 true)
def readsDec (m : Mach) (x : Cmd) (cls off n : Nat) : Decidable (m.ReadsNow x cls off n) := by
  unfold Machine.Mach.ReadsNow; infer_instance
theorem chain_reads : (cRanges.all fun g => @decide _ (readsDec s3.mach c1 clsChain g.1 g.2)) = true := by decide +kernel
theorem chain_untagged : (cRanges.all fun g => decide (s3.mach.core.taggedSlots c1.unit (c1.phys g.1) g.2 = [])) = true := by
  decide +kernel
theorem chain_lanes : ∀ n < chNS c1.word, ∀ r < chNR c1.word, ∀ g ∈ (nthD cSts n ⟨0⟩).rowRanges r (List.replicate 32 true),
    s3.mach.LaneNow c1 (nthD cSts n ⟨0⟩) g := by
  intro n hn r hr g hg
  have hN : chNS c1.word = 1 := by decide +kernel
  have hR : chNR c1.word = 1 := by decide +kernel
  obtain rfl : n = 0 := by omega
  obtain rfl : r = 0 := by omega
  have h1 : (nthD cSts 0 ⟨0⟩).cache = false := by decide +kernel
  have h2 : (nthD cSts 0 ⟨0⟩).sop ≠ sopST := by decide +kernel
  refine ⟨fun _ h => absurd h (by simp [h1]), fun _ _ => ⟨?_, ?_⟩, fun h => absurd h h2⟩
  · have := List.all_eq_true.1 chain_reads g hg
    exact @of_decide_eq_true _ (readsDec _ _ _ _ _) this
  · exact of_decide_eq_true (List.all_eq_true.1 chain_untagged g hg)
theorem witness_MatrixChainAndPsumComplete_3 :
    2 < 960 ∧ Runs s3 2 4 0 32 c1 ∧ Fresh c1 ∧ s3.mach.core.queues.seen = [] ∧
    s3.mach.ReadsNow c1 clsChain (chSptr c1.word) (16 * chNS c1.word) ∧
    (∀ n < chNS c1.word, ∀ r < chNR c1.word, ∀ g ∈ (nthD cSts n ⟨0⟩).rowRanges r (List.replicate 32 true),
      s3.mach.LaneNow c1 (nthD cSts n ⟨0⟩) g) := by
  refine ⟨by decide, by unfold Runs; decide +kernel, by unfold Fresh; decide +kernel, by decide +kernel,
    @of_decide_eq_true _ (readsDec _ _ _ _ _) (by decide +kernel), chain_lanes⟩
theorem witness_MatrixChainAndPsumComplete_4 :
    2 < 960 ∧
    Runs s2' 2 4 0 32 c2 ∧
    c2.out = [] ∧
    c2.rows = [] ∧
    chNR c2.word = 1 ∧
    s2'.mach.localRead c2 clsChain (chSptr c2.word) (16 * chNS c2.word) = Ans.ok mw2 bsw2 ∧
    mw2.evalRow (mw2.rowEnv c2 (stagesFrom bsw2 (chNS c2.word))) = Ans.fail m'w2 stw1 := by
  refine ⟨by decide +kernel, by (unfold Runs; decide +kernel), by decide +kernel, by decide +kernel, by decide +kernel, by exact eq_ok (by decide +kernel), by exact eq_fail (by decide +kernel)⟩
/-! The values the PSUM statement names, at a list of one record of the given KIND: KIND 1 is a record, KIND 3 is none. -/

def pRd (k : Nat) (r : Nat × Nat) : List Byte := (pS k).mach.bytesAt pc r.1 r.2
def pD (k : Nat) : DrainDesc := ⟨if psDrain pc.word then ofBytes (pRd k (psOptr pc.word, 64)) else 0⟩
def pVs (k : Nat) : List (Nat × Nat) := if psDrain pc.word then (pD k).vectors else []
def pRecs (k : Nat) : List (Nat × Nat) := (pS k).mach.psRecords pc (pRd k (psLptr pc.word, 2 * psNrec pc.word))
def pHeads (k : Nat) : List (Nat × Nat) :=
  (psLptr pc.word, 2 * psNrec pc.word) :: (if psDrain pc.word then [(psOptr pc.word, 64)] else []) ++ pVs k ++ (pRecs k).flatMap recordHead
def pTile (k : Nat) : WideTile × Bool :=
  sumPartials ((joinRecords (pRecs k) (((pRecs k).flatMap recordHead).map (pRd k)) (((pRecs k).map recordBody).map (pRd k))).map WideTile.decode)
def pHist (k : Nat) : SHist := SHist.ofNat ((pS k).mach.core.tword 2 (0x300 + 8 * (pD k).cvt.shist)).toNat
def pOut (k : Nat) : List (Nat × Byte) :=
  pc.pendingOf (if psDrain pc.word then (drainTile (pD k) ((pS k).mach.pwq 2) ((pS k).mach.core.rd R.CH_JOBSEED_SEED) (pHist k)
      (if (pD k).scEn then pRd k (nthD (pVs k) 0 (0, 0)) else []) (if (pD k).biEn then pRd k (nthD (pVs k) ((pVs k).length - 1) (0, 0)) else [])
      (pTile k).1).1
    else [(psOptr pc.word, (pTile k).1.encode 2)])
theorem psum_lands : ∀ e ∈ pOut 1, (pS 1).mach.WritesNow pc e.1 := by unfold Machine.Mach.WritesNow; decide +kernel
theorem witness_MatrixChainAndPsumComplete_5 :
    2 < 960 ∧ Runs (pS 3) 2 4 0 33 pc ∧ Fresh pc ∧ (pS 3).mach.core.queues.seen = [] ∧
    (∀ r ∈ pHeads 3, (pS 3).mach.ReadsNow pc clsChain r.1 r.2) ∧
    (psDrain pc.word = true → pc.drainStatus (pD 3) ((pS 3).mach.pwq 2) clsChain = none) ∧
    recordsOk (joinRecords (pRecs 3) (((pRecs 3).flatMap recordHead).map (pRd 3)) []) = false := by
  unfold Runs Fresh Machine.Mach.ReadsNow; decide +kernel
theorem witness_MatrixChainAndPsumComplete_6 :
    2 < 960 ∧ Runs (pS 1) 2 4 0 33 pc ∧ Fresh pc ∧ (pS 1).mach.core.queues.seen = [] ∧
    (∀ r ∈ pHeads 1, (pS 1).mach.ReadsNow pc clsChain r.1 r.2) ∧
    (psDrain pc.word = true → pc.drainStatus (pD 1) ((pS 1).mach.pwq 2) clsChain = none) ∧
    recordsOk (joinRecords (pRecs 1) (((pRecs 1).flatMap recordHead).map (pRd 1)) []) = true ∧
    (∀ r ∈ (pRecs 1).map recordBody, (pS 1).mach.ReadsNow pc clsChain r.1 r.2) ∧ ∀ e ∈ pOut 1, (pS 1).mach.WritesNow pc e.1 := by
  refine ⟨by decide, by unfold Runs; decide +kernel, by unfold Fresh; decide +kernel, by decide +kernel, ?_, by decide +kernel,
    by decide +kernel, ?_, psum_lands⟩ <;> (unfold Machine.Mach.ReadsNow; decide +kernel)
end Sys2Proof.Tests.S5

namespace Sys2Proof.Tests.S6
open Sys2Proof.Tests
def T (t o : Nat) : Nat := t/20*2^36 + t%20*2^31 + o
def pu : Cmd := { lcmd 5 5 0x30 3 [(64,T 959 1),(128,0xFFE00),(160,511),(180,63),(186,1)] with p := 1 }
def ps := withMem [(tileBase 5 + 0xFFE01, 7)] (onc pu (tested 5))
def ge : Cmd := { lcmd 5 6 0x31 3 [(64,T 959 1),(128,0xFFE00),(160,512)] with p := 2, parts := [{k := 0, pkt := {typ := 2}}] }
def co : Cmd := { cmd 961 3 0x33 [(64,T 4 0),(128,T 5 0),(192,3)] with p := 1}
def rt : Cmd := { cmd 1056 31 0x34 [(64,T 4 0),(128,63),(134,0x1FFFFF)] with p := 1}
def pt : Part := { k := 1, pkt := {typ := 2, dst := T 4 512, ackreq := true, part := 1, src := 0, seq := 9}, tries := 1 }
def gx (p : Part) : Cmd := { ge with p := 2, parts := [{k := 0, pkt := {typ := 2}, status := some 0}, p] }
def nowAt (n : Nat) (c : Core) : Core := c.wr R.TMB_NOW_NOW n
def sx (n : Nat) (p : Part) := onc (gx p) (fun c => nowAt n (tested 5 c))
def ackP (c : Core) (st : Nat) : Packet := { typ := 4, status := st, part := 1, dst := c.srcOf (gx pt), src := T 4 0, seq := 9 }
def sa (st : Nat) : State := let c := (sx 5 pt).mach.core; up { c with net := { c.net with arr := [{id := 7, unit := 5, pkt := ackP c st}] } }
def sw1 : State := onc ge (tested 5)
def sw2 : State := one co
def sw3 : State := one rt
def sw4 : State := sx 4000000 pt
def xw1 : Cmd := gx pt
def sw5 : State := sa 0
def aw1 : Arrival := {id := 7, unit := 5, pkt := ackP base 0}
def xw2 : Cmd := gx pt
theorem witness_MoverIssuesTheNextPart_1 :
    Runs ps 5 5 0 48 pu ∧
    pu.more = true ∧
    ps.mach.core.streamRoom 5 (rmRemote pu.word) pu.width = true ∧
    (5 < 960 →
      ps.mach.core.queues.seen = [] ∧
        ps.mach.ReadsNow pu clsMover (bits (rmLocal pu.word) 0 20 + 512 * (pu.parts.length / pu.width))
          (min 512 (rmLen pu.word - 512 * (pu.parts.length / pu.width)))) ∧
    (960 ≤ 5 →
      ps.mach.core.unitThere (960 + bits (rmLocal pu.word) 22 7) = true ∧
        ps.mach.core.rd (R.LAR_CTL_STATE (bits (rmLocal pu.word) 22 7)) ≠ 1 ∧
          ps.mach.core.rd (R.LAR_CTL_MODE (bits (rmLocal pu.word) 22 7)) ≠ 0 ∧
            ∀
              i ∈
                touched 6 (bits (rmLocal pu.word) 0 22 + 512 * (pu.parts.length / pu.width))
                  (min 512 (rmLen pu.word - 512 * (pu.parts.length / pu.width))),
              ps.mach.lineErrs (sliceLineId (bits (rmLocal pu.word) 22 7) i) = []) ∧
    rmMC pu.word = 0 ∧
    ps.mach.core.partStatus pu (rmRemote pu.word) (512 * (pu.parts.length / pu.width))
        (min 512 (rmLen pu.word - 512 * (pu.parts.length / pu.width))) =
      none := by
  unfold Runs Machine.Mach.ReadsNow; decide +kernel
theorem witness_MoverIssuesTheNextPart_2 :
    Runs sw1 5 6 0 49 ge ∧
    ge.more = true ∧
    sw1.mach.core.streamRoom 5 (rmRemote ge.word) 1 = true ∧
    sw1.mach.core.partStatus ge (rmRemote ge.word) (512 * ge.parts.length) (min 512 (rmLen ge.word - 512 * ge.parts.length)) = none := by
  unfold Runs; decide +kernel
theorem witness_MoverIssuesTheNextPart_3 :
    Runs sw2 961 3 0 51 co ∧
    (∀ p ∈ co.parts, p.status.isSome = true) ∧
    co.more = true ∧
    sw2.mach.core.streamRoom 961 (cpSrc co.word) 1 = true ∧
    sw2.mach.core.partStatus co (cpSrc co.word) (512 * co.parts.length) (min 512 (cpLen co.word - 512 * co.parts.length)) = none := by
  unfold Runs; decide +kernel
theorem witness_MoverIssuesTheNextPart_4 :
    Runs sw3 1056 31 0 52 rt ∧
    rt.more = true ∧
    sw3.mach.core.partStatus rt (rmRemote rt.word) 0 0 = none ∧
    sw3.mach.core.streamRoom 1056 (rmRemote rt.word) 1 = true := by
  unfold Runs; decide +kernel
theorem witness_PartsEndAndStreamsAreReleased_1 :
    sw4.live = true ∧
    isQueue 5 6 = true ∧
    sw4.mach.core.openPart 5 6 5 1 = some (xw1, pt) ∧
    pt.tries < 3 ∧
    sw4.mach.core.rd R.NET_E2E_REISSUE * (pt.tries + 1) ≤ sw4.mach.core.now - pt.first := by
  decide +kernel
theorem witness_PartsEndAndStreamsAreReleased_2 :
    sw4.live = true ∧
    isQueue 5 6 = true ∧
    sw4.mach.core.openPart 5 6 5 1 = some (xw1, pt) ∧
    sw4.mach.core.rd R.NET_E2E_LOSS ≤ sw4.mach.core.now - pt.first := by
  decide +kernel
theorem witness_PartsEndAndStreamsAreReleased_3 :
    sw5.live = true ∧
    sw5.mach.core.net.arr[0]? = some aw1 ∧
    aw1.pkt.typ = 4 ∧
    adClass aw1.pkt.dst ≠ 1 ∧
    sw5.mach.core.answered aw1.pkt = some (xw2, pt) := by
  decide +kernel
end Sys2Proof.Tests.S6

namespace Sys2Proof.Tests.S8
open Sys2Proof.Tests
def T (t o : Nat) : Nat := t/20*2^36 + t%20*2^31 + o
def ss : State := up (nowAt { base with net := { src := [⟨5,0,0,0⟩,⟨6,0,0,0⟩], held := [⟨5,0,0,0,[],0⟩] } })
  where nowAt (c : Core) : Core := c.wr R.TMB_NOW_NOW 400000
def se := lcmd 5 5 0x38 3 [(64,100),(84,16),(104,7)]
def sS := withMem [(tileBase 5 + 100, 7)] (onc se (tested 5))
def g1 : SealMsg := ⟨se.id, 7, [1,2,3]⟩
def sG := onc { se with committed := true} (fun c => { (((c.wr R.CH_BELLSTEP_STEP 4).wr R.CH_JOBSEED_SEED 99).wr (R.CH_SEAL_LO_SEAL 0) 5) with bell := { seals := [g1] } })
def sx := cmd 5 5 0x39 [(64,3)]
def wp : Packet := { typ := 1, ackreq := true, len := 3, tally := 63, arg := 1, part := 1, dst := T 6 255, src := T 4 (5*2^28), seq := 9, payload := [1,0,3] }
def wa : Arrival := { id := 7, unit := 6, pkt := wp }
def wc (b : Arrival) (c : Core) : Core := { (tested 6 c).setTword 6 0x1040 (BitVec.ofNat 64 (banks 3)) with net := { arr := [b] } }
def wS := withMem [(tileBase 6 + 256, 7), (tileBase 6 + 300, 8)] (up (wc wa base))
def mS8 := withMem [(tileBase 6 + 256, 7), (tileBase 6 + 300, 8)] (up { wc wa base with net := { mstore := [wa] } })
def dS := let c := wc wa base; let c := (c.touchStream 6 wp).markStream 6 wp; up c
def rS := up (region 6 0 0 4 2 0 (wc wa base))
def ra : Arrival := { id := 7, unit := 6, pkt := { wp with typ := 2, payload := [], arg := 0 } }
def ldp : Arrival := { id := 7, unit := 6, pkt := { typ := 8, mcast := true, len := 512, dst := T 6 1024, payload := 9 :: List.replicate 511 0 } }
def ew1 : SStream := ⟨5,0,0,0⟩
def ew2 : HStream := ⟨5,0,0,0,[],0⟩
def sw1 : State := onc sx (fun c => { c with bell := { exchanged := [(3,1)] } })
def rw1 : Nat × Nat := (3,1)
def sw2 : State := onc sx (fun c => ((c.wr (R.PRT_STATE_STATE 0) 2).wr R.PRT_HUBMAP_PORTS0 1).wr (R.CH_SEAL_LO_SEAL 1) 5)
def sw3 : State := withMem [(tileBase 6 + 256, 7)] (up (wc ra base))
def sw4 : State := withMem [(loaderBase 6 + 1030, 7),(loaderBase 6 + 1536, 7),(loaderBase 6 + 1023, 7)] (up { base with net := { mstore := [ldp] } })
theorem witness_PartsEndAndStreamsAreReleased_4 :
    ss.live = true ∧
    ss.mach.core.net.src[0]? = some ew1 ∧
    ss.mach.core.rd R.NET_E2E_LOSS ≤ ss.mach.core.now - ew1.last ∧
    (∀ x ∈ ss.mach.core.queues.cmds,
      x.unit = ew1.unit → x.running = true → ∀ p ∈ x.parts, p.status = none → streamDst p.pkt.dst ≠ ew1.dst) := by
  decide +kernel
theorem witness_PartsEndAndStreamsAreReleased_5 :
    ss.live = true ∧
    ss.mach.core.net.src.length ≤ 2 ∧
    ss.mach.core.net.held[2 - ss.mach.core.net.src.length]? = some ew2 ∧
    ss.mach.core.rd R.NET_E2E_LOSS ≤ ss.mach.core.now - ew2.last := by
  decide +kernel
theorem witness_SealsAreFoldedAndExchanged_1 :
    5 < 960 ∧
    Runs sS 5 5 0 56 se ∧
    se.committed = false ∧
    sS.mach.core.queues.seen = [] ∧
    sS.mach.ReadsNow se clsMover (bits se.word 64 20) (bits se.word 84 20 + 1) := by
  unfold Runs Machine.Mach.ReadsNow; decide +kernel
theorem witness_SealsAreFoldedAndExchanged_2 :
    sG.live = true ∧
    sG.mach.core.bell.seals[0]? = some g1 := by
  decide +kernel
theorem witness_SealsAreFoldedAndExchanged_3 :
    5 < 960 ∧
    Runs sw1 5 5 0 57 sx ∧
    List.find? (fun (r : Nat × Nat) => decide (r.1 = sx.sealStep)) sw1.mach.core.bell.exchanged = some rw1 := by
  unfold Runs; decide +kernel
theorem witness_SealsAreFoldedAndExchanged_4 :
    5 < 960 ∧
    Runs sw2 5 5 0 57 sx ∧
    (∀ r ∈ sw2.mach.core.bell.exchanged, r.1 ≠ sx.sealStep) ∧
    (∀ y ∈ sw2.mach.core.sealxOf sx.sealStep, y.parts = []) ∧
    (sw2.mach.core.wayOut sw2.mach.core.twinSeal sw2.mach.core.seamRouter).isSome = false := by
  unfold Runs; decide +kernel
theorem witness_WritesLandOrAreRefused_1 :
    wS.live = true ∧
    wa.unit < 960 ∧
    wa.pkt.typ = 1 ∧
    wa.accepted = false ∧
    wa.wrote = [] ∧
    adClass wa.pkt.dst = 0 ∧
    wa.pkt.payload.length = wa.pkt.len ∧
    0 < wa.pkt.len ∧
    wa.pkt.tally < 64 ∧
    wS.mach.errs = [] ∧
    (∀ k ∈ touched 8 (wS.mach.core.partBase wa.pkt) wa.pkt.len, wS.mach.core.taggedRegion wa.unit k = none) ∧
    wS.mach.core.partBase wa.pkt + wa.pkt.len ≤ 2 ^ 20 ∧
    wS.mach.core.holdRoom wa.unit wa.pkt = true ∧
    wS.mach.core.inService wa = false ∧
    wS.mach.core.isDup wa.unit wa.pkt = false ∧
    wS.mach.core.holdStatus wa = none ∧
    wS.mach.core.net.arr[0]? = some wa := by
  decide +kernel
theorem witness_WritesLandOrAreRefused_2 :
    mS8.live = true ∧
    wa.unit < 960 ∧
    wa.pkt.typ = 1 ∧
    wa.accepted = false ∧
    wa.wrote = [] ∧
    adClass wa.pkt.dst = 0 ∧
    wa.pkt.payload.length = wa.pkt.len ∧
    0 < wa.pkt.len ∧
    wa.pkt.tally < 64 ∧
    mS8.mach.errs = [] ∧
    (∀ k ∈ touched 8 (mS8.mach.core.partBase wa.pkt) wa.pkt.len, mS8.mach.core.taggedRegion wa.unit k = none) ∧
    mS8.mach.core.partBase wa.pkt + wa.pkt.len ≤ 2 ^ 20 ∧
    mS8.mach.core.holdRoom wa.unit wa.pkt = true ∧
    mS8.mach.core.inService wa = false ∧
    mS8.mach.core.isDup wa.unit wa.pkt = false ∧
    mS8.mach.core.holdStatus wa = none ∧
    List.find? (fun (b : Arrival) => decide (b.unit = wa.unit)) mS8.mach.core.net.mstore = some wa := by
  decide +kernel
theorem witness_WritesLandOrAreRefused_3 :
    dS.live = true ∧
    dS.mach.core.net.arr[0]? = some wa ∧
    wa.unit < 960 ∧
    wa.pkt.typ = 1 ∧
    wa.accepted = false ∧
    adClass wa.pkt.dst = 0 ∧
    dS.mach.core.holdRoom wa.unit wa.pkt = true ∧
    dS.mach.core.inService wa = false ∧
    dS.mach.core.isDup wa.unit wa.pkt = true := by
  decide +kernel
theorem witness_WritesLandOrAreRefused_4 :
    rS.live = true ∧
    rS.mach.core.net.arr[0]? = some wa ∧
    wa.unit < 960 ∧
    wa.pkt.typ = 1 ∧
    wa.accepted = false ∧
    adClass wa.pkt.dst = 0 ∧
    rS.mach.core.holdRoom wa.unit wa.pkt = true ∧
    rS.mach.core.inService wa = false ∧
    rS.mach.core.isDup wa.unit wa.pkt = false ∧
    rS.mach.core.holdStatus wa = some 6 := by
  decide +kernel
theorem witness_ReadsAreServedAndAnswered_1 :
    sw3.live = true ∧
    sw3.mach.core.net.arr[0]? = some ra ∧
    ra.pkt.typ = 2 ∧
    ra.accepted = false ∧
    ra.seen = [] ∧
    sw3.mach.core.holdRoom ra.unit ra.pkt = true ∧
    sw3.mach.core.inService ra = false ∧
    sw3.mach.core.holdStatus ra = none ∧
    sw3.mach.errs = [] ∧
    ra.unit < 960 ∧
    adClass ra.pkt.dst = 0 ∧
    (∀ k ∈ touched 8 (adTileOff ra.pkt.dst) ra.pkt.len, sw3.mach.core.taggedRegion ra.unit k = none) := by
  decide +kernel
theorem witness_WritesLandOrAreRefused_5 :
    sw4.live = true ∧
    6 < 960 ∧
    List.find? (fun (a : Arrival) => decide (a.unit = 6)) sw4.mach.core.net.mstore = some ldp ∧
    ldp.pkt.typ = 8 ∧
    adTileOff ldp.pkt.dst < 263168 := by
  decide +kernel
end Sys2Proof.Tests.S8

namespace Sys2Proof.Tests.S9
open Sys2Proof.Tests
def T (t o : Nat) : Nat := t/20*2^36 + t%20*2^31 + o
def pt (_op : Nat) : Part := { k := 1, pkt := {typ := 2, dst := T 4 512, ackreq := true, part := 1, seq := 9}, loc := 250 }
def ge (op q : Nat) : Cmd := { lcmd 5 q op 3 [(64,T 4 0),(128,T 7 0),(192,1023)] with p := 2, parts := [{k := 0, pkt := {typ := 2}, status := some 0}, pt 0] }
def rd (op q : Nat) (pl : List Byte) (part : Nat) : Arrival := { id := 7, unit := 5, pkt := { typ := 3, part := part, dst := base.srcOf (ge op q), src := T 4 0, seq := 9, payload := pl, len := pl.length } }
def rS (op q : Nat) (pl : List Byte) (part : Nat) : State := onc (ge op q) (fun c => { tested 5 c with net := { arr := [rd op q pl part] } })
def pl8 : List Byte := [1,2,3,4,5,6,7,8]
def ti : Arrival := { id := 7, unit := 6, pkt := { typ := 5, ackreq := true, tally := 63, arg := 0x1FFFFF, dst := T 6 0, src := T 4 (5*2^28), seq := 9 } }
def tS (c : Core) := up { c with net := { c.net with arr := [ti] } }
def sb : Arrival := { id := 7, unit := 1060, pkt := { typ := 6, ackreq := true, len := 64, dst := base.submitAddr 1059 31, src := T 4 (5*2^28), seq := 9, payload := 1 :: (List.replicate 62 0 ++ [0]) } }
def sb' : Arrival := { sb with pkt := { sb.pkt with payload := 1 :: 7 :: List.replicate 62 0 } }
def sbS (pi ci : Nat) := withMem [(storeBase 99 31 63 + 63, 8),(storeBase 99 31 63 + 64, 8)] (up { ((base.qset 1059 31 0 (R.SEQ_QRING_PI 0) pi).qset 1059 31 1 (R.SEQ_QSTAT_CI 0) ci) with net := { arr := [sb'] } })
def N (o : Nat) := 4*2^42 + o
def la (o n : Nat) : Arrival := { id := 7, unit := 960, pkt := { typ := 2, ackreq := true, len := n, dst := N o, src := T 4 (5*2^28), seq := 9 } }
def lx (o : Nat) := N o / 64 * 64
def ln (o : Nat) : CLine := ⟨base.sliceFor (lx o), lineSet (lineTag (lx o)), 3, lineTag (lx o), true, 0⟩
def lS (l : List CLine) (o n : Nat) := up { ((base.wr R.PRT_HUBMAP_PORTS0 1).wr (R.PRT_STATE_STATE 0) 2) with net := { arr := [la o n] }, lar := { lines := l } }
def mx (op : Nat) (cur : Nat) : Cmd := { cmd 961 3 op [(64, N 0),(128, 1)] with cursor := cur }
def mS (op cur by' : Nat) (ls : List CLine) := onc (mx op cur) (fun c => { ((c.wr R.PRT_HUBMAP_PORTS0 1).wr (R.PRT_STATE_STATE 0) 2).wr R.LAR_ILVCTL_BYPASS by' with lar := { lines := ls } })
def sw1 : State := rS 0x31 6 [1] 0
def aw1 : Arrival := rd 0x31 6 [1] 0
def sw2 : State := rS 0x33 5 [1] 1
def aw2 : Arrival := rd 0x33 5 [1] 1
def xw1 : Cmd := ge 0x33 5
def kw1 : Machine.Part := pt 0
def sw3 : State := rS 0x31 6 pl8 1
def aw3 : Arrival := rd 0x31 6 pl8 1
def xw2 : Cmd := ge 0x31 6
def kw2 : Machine.Part := pt 0
def sw4 : State := tS base
def sw5 : State := tS ((base.touchStream 6 ti.pkt).markStream 6 ti.pkt)
def sw6 : State := sbS 65535 65530
def sw7 : State := lS [ln 130] 130 60
def aw4 : Arrival := la 130 60
def xw3 : Nat := lx 130
def lw1 : CLine := ln 130
def sw8 : State := mS 0x3C 0 0 [ln 64, ln 128, ln 0]
def sw9 : State := mS 0x3C 0 1 [ln 64, ln 128, ln 0]
def xw4 : Cmd := mx 0x3C 0
def sw10 : State := mS 0x3D 0 0 [ln 64, ln 128, ln 0]
def sw11 : State := mS 0x3D 0 1 [ln 64, ln 128, ln 0]
def xw5 : Cmd := mx 0x3D 0
def sw12 : State := mS 0x3E 0 1 [ln 64, ln 128, ln 0]
def xw6 : Cmd := mx 0x3E 0
theorem witness_ReadsAreServedAndAnswered_2 :
    sw1.live = true ∧
    sw1.mach.core.net.arr[0]? = some aw1 ∧
    aw1.pkt.typ = 3 ∧
    aw1.land = none ∧
    adClass aw1.pkt.dst ≠ 1 ∧
    sw1.mach.core.answered aw1.pkt = none := by
  decide +kernel
theorem witness_ReadsAreServedAndAnswered_3 :
    sw2.live = true ∧
    sw2.mach.core.net.arr[0]? = some aw2 ∧
    aw2.pkt.typ = 3 ∧
    aw2.land = none ∧
    adClass aw2.pkt.dst ≠ 1 ∧
    sw2.mach.core.answered aw2.pkt = some (xw1, kw1) ∧
    kw1.pkt.typ = 2 ∧
    xw1.opcode = 51 ∧
    kw1.stage = 0 ∧
    sw2.mach.core.partStatus xw1 (cpDst xw1.word) (512 * kw1.k) aw2.pkt.payload.length = none ∧
    sw2.mach.core.streamRoom xw1.unit (cpDst xw1.word) 1 = true := by
  decide +kernel
theorem witness_ReadsAreServedAndAnswered_4 :
    sw3.live = true ∧
    sw3.mach.core.net.arr[0]? = some aw3 ∧
    aw3.pkt.typ = 3 ∧
    aw3.land = none ∧
    adClass aw3.pkt.dst ≠ 1 ∧
    sw3.mach.core.answered aw3.pkt = some (xw2, kw2) ∧
    kw2.pkt.typ = 2 ∧
    (xw2.opcode = 49 ∨ xw2.opcode = 50) ∧
    xw2.unit < 960 ∧
    aw3.wrote = [] ∧
    (∀ j < aw3.pkt.payload.length, sw3.mach.WritesNow xw2 (kw2.loc + j)) := by
  unfold Machine.Mach.WritesNow; decide +kernel
theorem witness_TincAndSubmitPacketsAct_1 :
    sw4.live = true ∧
    sw4.mach.core.net.arr[0]? = some ti ∧
    ti.pkt.typ = 5 ∧
    ti.unit < 960 ∧
    adClass ti.pkt.dst = 0 ∧
    ti.pkt.tally < 64 ∧
    sw4.mach.core.holdRoom ti.unit ti.pkt = true ∧
    sw4.mach.core.inService ti = false ∧
    sw4.mach.core.isDup ti.unit ti.pkt = false ∧
    sw4.mach.core.present ti.unit = true ∧
    bits ti.pkt.arg 0 20 ≠ 0 := by
  decide +kernel
theorem witness_TincAndSubmitPacketsAct_2 :
    sw5.live = true ∧
    sw5.mach.core.net.arr[0]? = some ti ∧
    ti.pkt.typ = 5 ∧
    ti.unit < 960 ∧
    adClass ti.pkt.dst = 0 ∧
    ti.pkt.tally < 64 ∧
    sw5.mach.core.holdRoom ti.unit ti.pkt = true ∧
    sw5.mach.core.inService ti = false ∧
    sw5.mach.core.isDup ti.unit ti.pkt = true := by
  decide +kernel
theorem witness_TincAndSubmitPacketsAct_3 :
    sw6.live = true ∧
    sw6.mach.core.net.arr[0]? = some sb' ∧
    sb'.pkt.typ = 6 ∧
    submitQueue sb'.pkt.dst = some (1059, 31) ∧
    sw6.mach.core.holdRoom unitSeam sb'.pkt = true ∧
    sw6.mach.core.inService sb' = false ∧
    sw6.mach.core.isDup unitSeam sb'.pkt = false ∧
    sb'.pkt.payload.length = 64 ∧
    leAt sb'.pkt.payload 40 24 = 0 ∧
    sw6.mach.core.maySubmit sb'.port 1059 = true ∧
    sw6.mach.core.unitThere 1059 = true ∧
    countFrom (sw6.mach.core.ringPI 1059 31) (sw6.mach.core.ringCI 1059 31) < 64 := by
  decide +kernel
theorem witness_LarderServesAndIsMaintained_1 :
    sw7.live = true ∧
    sw7.mach.core.net.arr[0]? = some aw4 ∧
    0 < 96 ∧
    aw4.unit = 960 + 0 ∧
    (adClass aw4.pkt.dst = 4 ∨ adClass aw4.pkt.dst = 5) ∧
    aw4.pkt.typ = 2 ∧
    aw4.accepted = false ∧
    sw7.mach.core.rd (R.LAR_CTL_STATE 0) ≠ 1 ∧
    sw7.mach.core.holdRoom aw4.unit aw4.pkt = true ∧
    sw7.mach.core.inService aw4 = false ∧
    sw7.mach.core.unitThere aw4.unit = true ∧
    aw4.pkt.dst % 2 ^ 42 + aw4.pkt.len ≤ 2 ^ 42 ∧
    sw7.mach.errs = [] ∧
    (∀ f ∈ sw7.mach.core.lar.fetches, aw4.id ∉ f.waiters) ∧
    lineAddrs aw4.pkt.dst aw4.pkt.len = [xw3] ∧
    sw7.mach.core.merge? xw3 = none ∧
    sw7.mach.core.sliceFor xw3 < 96 ∧
    sw7.mach.core.cline? (sw7.mach.core.sliceFor xw3) (lineTag xw3) = some lw1 := by
  decide +kernel
theorem witness_LarderServesAndIsMaintained_2 :
    Runs sw8 961 3 0 60 xw4 ∧
    decide (sw8.mach.core.rd R.LAR_ILVCTL_BYPASS = 1) = false ∧
    xw4.committed = false ∧
    sw8.mach.errs = [] := by
  unfold Runs; decide +kernel
theorem witness_LarderServesAndIsMaintained_3 :
    Runs sw9 961 3 0 60 xw4 ∧
    decide (sw9.mach.core.rd R.LAR_ILVCTL_BYPASS = 1) = true := by
  unfold Runs; decide +kernel
theorem witness_LarderServesAndIsMaintained_4 :
    Runs sw10 961 3 0 61 xw5 ∧
    decide (sw10.mach.core.rd R.LAR_ILVCTL_BYPASS = 1) = false ∧
    xw5.committed = false ∧
    sw10.mach.errs = [] := by
  unfold Runs; decide +kernel
theorem witness_LarderServesAndIsMaintained_5 :
    Runs sw11 961 3 0 61 xw5 ∧
    decide (sw11.mach.core.rd R.LAR_ILVCTL_BYPASS = 1) = true := by
  unfold Runs; decide +kernel
theorem witness_LarderServesAndIsMaintained_6 :
    Runs sw12 961 3 0 62 xw6 ∧
    decide (sw12.mach.core.rd R.LAR_ILVCTL_BYPASS = 1) = true := by
  unfold Runs; decide +kernel
end Sys2Proof.Tests.S9

namespace Sys2Proof.Tests.S10
open Sys2Proof.Tests
def T (t o : Nat) : Nat := t/20*2^36 + t%20*2^31 + o
def pk : Packet := { typ := 1, epoch := 0, vc := 2, phase := 1, len := 3, dst := T 6 0, payload := [1,2,3], hops := 4 }
def fl (here dest : Nat) : Flying := { pkt := pk, plane := 2, here := here, dest := dest, unit := 6 }
def fS (f : Flying) (c : Core) := up { c with net := { c.net with fly := [f] } }
def nx (s : State) (f : Flying) := (s.mach.core.nextPort f)
def er : List (Nat×Nat×Nat) := [(0,0,1),(0,1,1),(0,2,1),(0,3,1),(0,4,1)]
def f4 : Flying := { fl 24 7 with pkt := {pk with hops := 255} }
def ntfy : Nat := base.pageAddr 0x60800 + 2^45 * 3
def hub (c : Core) : Core := ((c.wr (R.PRT_STATE_STATE 0) 2).wr R.PRT_HUBMAP_PORTS0 1).wr R.LDG_NOTIFY_ADDR ntfy
def lnA : Arrival := { id := 3, unit := 1060, pkt := { typ := 9, arg := 1, dst := base.pageAddr 0x60800, src := base.pageAddr (R.NET_LINK_STATE 24 2 1).off } }
def nS (c : Core) (a : Arrival) := up { c with net := { c.net with arr := [a] } }
def fwA : Arrival := { id := 3, unit := 1060, port := some 4, pkt := { typ := 9, arg := 99, dst := base.pageAddr 0x60800, src := 5 } }
def rx (p : Nat) (pk : Packet) : Rx := { port := p, strand := 39, lvc := 2, blocks := 1, pkt := pk }
def pS (p : Nat) (pk : Packet) (c : Core) := up { ((c.wr (R.PRT_STATE_STATE p) 2).wr R.NET_RTCTL_STATE0 2).wr (R.PRT_STRAND_SSTATE p 0 39) 2 with ports := { rx := [rx p pk] } }
def w6 : Packet := { typ := 1, len := 3, dst := base.selfAddr 3 (5*2^32), payload := [1,2,3] }
def w7 : Packet := { typ := 1, len := 3, dst := T 6 0, payload := [1,2,3], src := T 7 0 }
def bl : Packet := { typ := 7, dst := base.pageAddr 0x68000 + 2^45 * 3, hops := 253 }
def fr : FrameObs := { frame := frameOf (frameControl { ftype := 4, lvc := 2, lseq := 4095, pstate := 2, block := []}) (toBytes 64 12345) }
def frS (known : Bool) := up { (base.wr (R.PRT_STRAND_SSTATE 5 0 3) 3).wr (R.PRT_STRAND_SSTATE 5 1 3) 2 with ports := { links := if known then SMap.set {} [] (64*5+3) { accepted := [4095] } else [] } }
def gl (l t : Nat) : Glitch := ⟨l, t, [3]⟩
def fr1 : FrameObs := { fr with glitches := [gl 0 0] }
def fb : FrameObs := { fr with glitches := [gl 0 0, gl 1 0, gl 2 0, gl 3 0, gl 4 1, gl 5 2, gl 6 3] }
def hitsOf (o : FrameObs) := o.hits false (goodLanes 0 64) (laneBytes o.frame)
def dk : Nat := match decodeHits 12 controlPlace (hitsOf fr1) with | .word [] k => k | _ => 99
def dl (o : FrameObs) : List (Nat × Nat) := match decodeHits 64 blockPlace (hitsOf o) with | .word l _ => l | _ => [(99,99)]
def dn' (o : FrameObs) : Nat := match decodeHits 64 blockPlace (hitsOf o) with | .word _ n => n | _ => 99
def he : Held := { port := 3, pkt := w7, lvc := 2, strand := some 39, lseq := 7, sentAt := 5 }
def tS (st : Nat) := up { ((base.wr R.TMB_NOW_NOW (2^40)).wr (R.PRT_STRAND_SSTATE 3 0 39) st).wr (R.PRT_CNT_HARD 3 1 39) 4 with ports := { held := [he], links := SMap.set {} [] (64*3+39) { credits := [9,9,9,9] } } }
def sw1 : State := fS (fl 24 7) base
def fw1 : Flying := fl 24 7
def pw1 : Packet := (nx (fS (fl 24 7) base) (fl 24 7)).1
def sw2 : State := fS (fl 7 7) base
def fw2 : Flying := fl 7 7
def pw2 : Packet := (nx (fS (fl 7 7) base) (fl 7 7)).1
def sw3 : State := fS (fl 24 7) base
def fw3 : Flying := fl 24 7
def pw3 : Packet := (nx (fS (fl 24 7) base) (fl 24 7)).1
def sw4 : State := fS f4 base
def sw5 : State := fS (fl 24 7) base
def fw4 : Flying := fl 24 7
def sw6 : State := nS (base.wr R.NET_RTCTL_STATE0 2) lnA
def sw7 : State := nS (hub base) fwA
def sw8 : State := pS 3 w6 base
def xw1 : Rx := rx 3 w6
def rw1 : Nat × Nat × Option Nat := ((pS 3 w6 base).mach.core.route w6.dst ((pS 3 w6 base).mach.core.entryOf 3 39)).getD (0,0,none)
def sw9 : State := pS 3 w7 base
def xw2 : Rx := rx 3 w7
def sw10 : State := pS 4 bl base
def xw3 : Rx := rx 4 bl
def sw11 : State := frS false
def sw12 : State := frS true
def leftw1 : List (Nat × Nat) := dl fr
def nw1 : Nat := dn' fr
def sw13 : State := tS 2
theorem witness_PacketsHopRetryAndEscape_1 :
    sw1.live = true ∧
    sw1.mach.core.net.fly[0]? = some fw1 ∧
    fw1.queued = false ∧
    fw1.pkt.hops < 255 ∧
    sw1.mach.core.nextPort fw1 = (pw1, some 1) ∧
    neighbour fw1.here 1 = some 25 ∧
    sw1.mach.core.linkState fw1.here fw1.plane 1 = 0 ∧
    sw1.mach.core.hasRoom 25 fw1.plane (opposite 1) pw1.vc pw1.flits = true ∧
    sw1.mach.core.firstAt fw1 = true := by
  decide +kernel
theorem witness_PacketsHopRetryAndEscape_2 :
    sw2.live = true ∧
    sw2.mach.core.net.fly[0]? = some fw2 ∧
    fw2.queued = false ∧
    fw2.pkt.hops < 255 ∧
    sw2.mach.core.nextPort fw2 = (pw2, none) ∧
    pw2.mcast = false ∧
    fw2.port = none ∧
    sw2.mach.core.takesHere fw2 pw2 = true ∧
    sw2.mach.core.firstAt fw2 = true ∧
    sw2.mach.core.routerAnswers fw2.unit = false := by
  decide +kernel
theorem witness_PacketsHopRetryAndEscape_3 :
    sw3.live = true ∧
    sw3.mach.core.net.fly[0]? = some fw3 ∧
    fw3.queued = false ∧
    fw3.pkt.hops < 255 ∧
    sw3.mach.core.nextPort fw3 = (pw3, some 1) ∧
    neighbour fw3.here 1 = some 25 ∧
    sw3.mach.core.linkState fw3.here fw3.plane 1 = 0 ∧
    sw3.mach.core.hasRoom 25 fw3.plane (opposite 1) pw3.vc pw3.flits = true ∧
    sw3.mach.core.firstAt fw3 = true ∧
    decodePacket pw3.wire er = none ∧
    fw3.here < 1104 ∧
    fw3.plane < 3 ∧
    1 < 6 ∧
    (if fw3.out = 1 then fw3.resends else 0) ≠ 3 := by
  decide +kernel
theorem witness_PacketsHopRetryAndEscape_4 :
    sw4.live = true ∧
    sw4.mach.core.net.fly[0]? = some f4 ∧
    f4.queued = false ∧
    255 ≤ f4.pkt.hops ∧
    f4.pkt.epoch < 2 := by
  decide +kernel
theorem witness_PacketsHopRetryAndEscape_5 :
    sw5.live = true ∧
    sw5.mach.core.net.fly[0]? = some fw4 ∧
    2 ≤ fw4.pkt.vc ∧
    fw4.pkt.esc = false ∧
    fw4.queued = false := by
  decide +kernel
theorem witness_NoticesAreRecordedAndSent_1 :
    sw6.live = true ∧
    sw6.mach.core.arrOf 0 9 unitSeam = some lnA ∧
    lnA.linkNotice = true ∧
    sw6.mach.core.ledgerFull
        { kind := 8, unit := meshUnit (linkOf lnA.pkt.src).1 (linkOf lnA.pkt.src).2.1 (linkOf lnA.pkt.src).2.2 } =
      false := by
  decide +kernel
theorem witness_NoticesAreRecordedAndSent_2 :
    sw7.live = true ∧
    sw7.mach.core.arrOf 0 9 unitSeam = some fwA ∧
    sw7.mach.core.forwarded fwA = true ∧
    (sw7.mach.core.hubActive = true ∧
      sw7.mach.core.rd R.LDG_NOTIFY_ADDR ≠ 0 ∧
        (sw7.mach.core.route (sw7.mach.core.rd R.LDG_NOTIFY_ADDR) (sw7.mach.core.unitRouter unitSeam)).isSome = true) := by
  decide +kernel
theorem witness_PortArrivalsEnterOrAreRelayed_1 :
    sw8.live = true ∧
    3 < 4 ∧
    List.find? (fun (x : Rx) => decide (x.port = 3) && (decide (3 < 4) || decide (sw8.mach.core.ringWay x.pkt ≠ RingWay.relay)))
        sw8.mach.core.ports.rx =
      some xw1 ∧
    sw8.mach.core.rd (R.PRT_STATE_STATE 3) = 2 ∧
    sw8.mach.core.entryStatus 3 xw1.pkt = none ∧
    sw8.mach.core.route xw1.pkt.dst (sw8.mach.core.entryOf 3 xw1.strand) = some rw1 ∧
    sw8.mach.core.entryWaits 3 xw1.strand xw1.pkt = false := by
  decide +kernel
theorem witness_PortArrivalsEnterOrAreRelayed_2 :
    sw9.live = true ∧
    3 < 4 ∧
    List.find? (fun (x : Rx) => decide (x.port = 3) && (decide (3 < 4) || decide (sw9.mach.core.ringWay x.pkt ≠ RingWay.relay)))
        sw9.mach.core.ports.rx =
      some xw2 ∧
    sw9.mach.core.rd (R.PRT_STATE_STATE 3) = 2 ∧
    sw9.mach.core.entryStatus 3 xw2.pkt = some 11 ∧
    xw2.pkt.isRequest = true ∧
    sw9.mach.core.srcValid xw2.pkt.src = true := by
  decide +kernel
theorem witness_PortArrivalsEnterOrAreRelayed_3 :
    sw10.live = true ∧
    (4 = 4 ∨ 4 = 5) ∧
    List.find? (fun (x : Rx) => decide (x.port = 4) && decide (sw10.mach.core.ringWay x.pkt = RingWay.relay))
        sw10.mach.core.ports.rx =
      some xw3 ∧
    xw3.pkt.hops + 1 < 255 := by
  decide +kernel
theorem witness_FramesAreAcceptedOnceAndTimersAct_1 :
    sw11.live = true ∧
    isStrand 5 3 = true ∧
    sw11.mach.core.usable 5 1 3 = true ∧
    frameOf (frameControl fr.frame) fr.frame.block = fr.frame ∧
    fr.frame.ftype = 4 ∧
    fr.frame.accept = none ∧
    fr.frame.resend = none ∧
    fr.frame.credit = none ∧
    decodeHits 12 controlPlace
        (fr.hits (sw11.mach.core.half 5 1 3)
          (goodLanes (sw11.mach.core.excluded 5 1 3) (laneCount (sw11.mach.core.half 5 1 3))) (laneBytes fr.frame)) =
      Decoded.word [] dk ∧
    decodeHits 64 blockPlace
        (fr.hits (sw11.mach.core.half 5 1 3)
          (goodLanes (sw11.mach.core.excluded 5 1 3) (laneCount (sw11.mach.core.half 5 1 3))) (laneBytes fr.frame)) =
      Decoded.word leftw1 nw1 ∧
    (sw11.mach.core.link 5 3).accepted.contains fr.frame.lseq = false := by
  decide +kernel
theorem witness_FramesAreAcceptedOnceAndTimersAct_2 :
    sw11.live = true ∧
    isStrand 5 3 = true ∧
    sw11.mach.core.usable 5 1 3 = true ∧
    frameOf (frameControl fb.frame) fb.frame.block = fb.frame ∧
    fb.frame.ftype = 4 ∧
    fb.frame.accept = none ∧
    fb.frame.resend = none ∧
    fb.frame.credit = none ∧
    decodeHits 12 controlPlace
        (fb.hits (sw11.mach.core.half 5 1 3)
          (goodLanes (sw11.mach.core.excluded 5 1 3) (laneCount (sw11.mach.core.half 5 1 3))) (laneBytes fb.frame)) =
      Decoded.word [] dk ∧
    decodeHits 64 blockPlace
        (fb.hits (sw11.mach.core.half 5 1 3)
          (goodLanes (sw11.mach.core.excluded 5 1 3) (laneCount (sw11.mach.core.half 5 1 3))) (laneBytes fb.frame)) =
      Decoded.uncorrectable := by
  decide +kernel
theorem witness_FramesAreAcceptedOnceAndTimersAct_3 :
    sw12.live = true ∧
    isStrand 5 3 = true ∧
    sw12.mach.core.usable 5 1 3 = true ∧
    frameOf (frameControl fr.frame) fr.frame.block = fr.frame ∧
    fr.frame.ftype = 4 ∧
    fr.frame.accept = none ∧
    fr.frame.resend = none ∧
    fr.frame.credit = none ∧
    decodeHits 12 controlPlace
        (fr.hits (sw12.mach.core.half 5 1 3)
          (goodLanes (sw12.mach.core.excluded 5 1 3) (laneCount (sw12.mach.core.half 5 1 3))) (laneBytes fr.frame)) =
      Decoded.word [] dk ∧
    decodeHits 64 blockPlace
        (fr.hits (sw12.mach.core.half 5 1 3)
          (goodLanes (sw12.mach.core.excluded 5 1 3) (laneCount (sw12.mach.core.half 5 1 3))) (laneBytes fr.frame)) =
      Decoded.word leftw1 nw1 ∧
    (sw12.mach.core.link 5 3).accepted.contains fr.frame.lseq = true := by
  decide +kernel
theorem witness_FramesAreAcceptedOnceAndTimersAct_4 :
    sw13.live = true ∧
    sw13.mach.core.ports.held[0]? = some he ∧
    he.strand.isSome = true ∧
    he.again = false ∧
    sw13.mach.core.rd R.PRT_TIMERS_ACCTMO ≤ sw13.mach.core.now - he.sentAt := by
  decide +kernel
theorem witness_FramesAreAcceptedOnceAndTimersAct_5 :
    sw13.live = true ∧
    isStrand 3 39 = true ∧
    sw13.mach.core.usable 3 0 39 = true ∧
    sw13.mach.core.rd R.PRT_TIMERS_IDLEPER ≤ sw13.mach.core.now - (sw13.mach.core.link 3 39).lastOut := by
  decide +kernel
theorem witness_FramesAreAcceptedOnceAndTimersAct_6 :
    sw13.live = true ∧
    isStrand 3 39 = true ∧
    sw13.mach.core.rd R.PRT_THRESH_WIN ≤ sw13.mach.core.now - (sw13.mach.core.link 3 39).window := by
  decide +kernel
end Sys2Proof.Tests.S10

namespace Sys2Proof.Tests.S12
open Sys2Proof.Tests
def T (t o : Nat) : Nat := t/20*2^36 + t%20*2^31 + o
def dsc (cls cr : Nat) : Nat := cls + (cr + cr*2^8 + cr*2^16+cr*2^24) * 2^32
def tO (outGood nIn rate dsc : Nat) : TrainObs := { lanes := ((List.range 72).drop nIn).map (fun l => { lane := l, violations := 1 }), copies := [resultsMessage outGood dsc, resultsMessage outGood dsc, 5], outRate := rate, inRate := rate }
def all72 : Nat := 2^72-1
def sst (p d s v : Nat) (c : Core) : Core := c.wr (R.PRT_STRAND_SSTATE p d s) v
def tS (c : Core) : State := up ((sst 2 1 39 1 (sst 2 0 39 1 c)).wr (R.PRT_STATE_STATE 2) 1)
def ln (f : LinkSt) (c : Core) : Core := { c with ports := { c.ports with links := SMap.set {} [] (64*2+39) f } }
def lm (lt link dir w : Nat) (es : List Nat) : Lctl := ⟨2, lt, link, dir, w, es⟩
def hd (st : Option Nat) (q : Nat) : Held := { port := 2, pkt := { typ := 2, src := T 4 0, dst := 5 }, lvc := 2, strand := st, lseq := q }
def mS (m : Lctl) (st : Nat) : State := up { (sst 2 1 39 2 (sst 2 0 39 st base)).wr (R.PRT_STATE_STATE 2) 2 with ports := { lctl := [m], held := [hd (some 39) 7, hd (some 38) 7, hd none 0, { hd none 0 with port := 1 }] } }
def tk (s : State) (t : Nat) : Core := match s.mach.core.takeLctl 2 t with | some x => x.2 | _ => {}
def aS : State := up { base.wr R.TMB_NOW_NOW (2^40) with ports := { absent := [2], held := [hd (some 39) 7, hd none 0] } }
def hubs (c : Core) : Core := [0,1,2,3].foldl (fun c p => c.wr (R.PRT_STATE_STATE p) 2) c
def iS (n : Nat) : State := up { ((hubs base).wr (R.PRT_STATE_BYPOS 4) 15).wr R.TMB_NOW_NOW 100000000 with ports := { tries := SMap.set 0 [] 0 n } }
def io (ok : Bool) : InsertObs := ⟨true, ok, tO all72 40 3500 (dsc 1 63), tO all72 40 3500 (dsc 1 63)⟩
def sw1 : State := tS base
def ow1 : TrainObs := tO all72 40 3500 (dsc 2 63)
def ow2 : TrainObs := tO all72 40 3500 (dsc 1 63)
def sw2 : State := up ((tS base).mach.core.wr R.TMB_NOW_NOW (2^40))
def sw3 : State := up (sst 2 1 39 4 (sst 2 0 39 5 (tS base).mach.core))
def sw4 : State := up (sst 2 1 39 4 (sst 2 0 39 2 (tS base).mach.core))
def sw5 : State := up (ln { lanes := [(71, 100000)] } (sst 2 1 39 2 (sst 2 0 39 2 base)))
def sw6 : State := up ((sst 2 1 39 2 (sst 2 0 39 2 base)).wr (R.PRT_CNT_HARD 2 1 39) 60000)
def sw7 : State := mS (lm 1 0 0 0 []) 2
def mw1 : Lctl := lm 1 0 0 0 []
def c'w1 : Core := tk (mS (lm 1 0 0 0 []) 2) 1
def sw8 : State := mS (lm 2 39 0 2 []) 2
def mw2 : Lctl := lm 2 39 0 2 []
def c'w2 : Core := tk (mS (lm 2 39 0 2 []) 2) 2
def sw9 : State := mS (lm 3 39 0 2 []) 2
def mw3 : Lctl := lm 3 39 0 2 []
def c'w3 : Core := tk (mS (lm 3 39 0 2 []) 2) 3
def sw10 : State := mS (lm 4 39 0 2 [7]) 2
def sw11 : State := mS (lm 4 39 0 2 [7]) 4
def mw4 : Lctl := lm 4 39 0 2 [7]
def c'w4 : Core := tk (mS (lm 4 39 0 2 [7]) 2) 4
def c'w5 : Core := tk (mS (lm 4 39 0 2 [7]) 4) 4
def sw12 : State := iS 0
def sw13 : State := iS 1
def sw14 : State := iS 4
def ow3 : InsertObs := io true
def sw15 : State := up { base.wr R.TMB_NOW_NOW (2^63) with tmb := { frac := 2^24-1, slew := -5 } }
def sw16 : State := up (base.wr R.TMB_NOW_NOW 1000)
def sw17 : State := up { base.wr R.TMB_NOW_NOW 1000000 with tmb := { beacon := some (1000, 1000) } }
def sw18 : State := up ((((base.setTword 4 0x200 0xFFFFF).wr R.TMB_STATUS_DRIFT_ERR 1).wr (R.NET_QDEPTH_MAXD 3 2 4) 7).wr (R.NET_QDEPTH_DEPTH 3 2 4) 5)
theorem witness_LinksTrainAndSettle_1 :
    sw1.live = true ∧
    isStrand 2 39 = true ∧
    sw1.mach.core.sst 2 0 39 = 1 ∧
    sw1.mach.core.sst 2 1 39 = 1 ∧
    sw1.mach.core.linkOpen 2 39 = true ∧
    sw1.mach.core.led.entries.length ≤ 65000 ∧
    descCause 2 ow1.desc = 0 := by
  decide +kernel
theorem witness_LinksTrainAndSettle_2 :
    sw1.live = true ∧
    isStrand 2 39 = true ∧
    sw1.mach.core.sst 2 0 39 = 1 ∧
    sw1.mach.core.sst 2 1 39 = 1 ∧
    sw1.mach.core.linkOpen 2 39 = true ∧
    sw1.mach.core.led.entries.length ≤ 65000 ∧
    descCause 2 ow2.desc ≠ 0 := by
  decide +kernel
theorem witness_LinksTrainAndSettle_3 :
    sw2.live = true ∧
    isStrand 2 39 = true ∧
    sw2.mach.core.sst 2 0 39 = 1 ∧
    (sw2.mach.core.sst 2 1 39 = 1 ∨ sw2.mach.core.sst 2 1 39 = 4) ∧
    1000000 ≤ sw2.mach.core.now - (sw2.mach.core.link 2 39).since := by
  decide +kernel
theorem witness_LinksTrainAndSettle_4 :
    sw3.live = true ∧
    isStrand 2 39 = true ∧
    (sw3.mach.core.sst 2 0 39 = 0 ∨ sw3.mach.core.sst 2 0 39 = 5) ∧
    sw3.mach.core.linkOpen 2 39 = true ∧
    sw3.mach.core.rd (R.PRT_STATE_STATE 2) ≠ 0 := by
  decide +kernel
theorem witness_LinksTrainAndSettle_5 :
    sw4.live = true ∧
    isStrand 2 39 = true ∧
    sw4.mach.core.usable 2 0 39 = true ∧
    (true = true ∨ sw4.mach.core.rd R.PRT_TIMERS_STRTMO ≤ sw4.mach.core.now - (sw4.mach.core.link 2 39).lastIn) := by
  decide +kernel
theorem witness_DegradationRetrainsOrRetires_1 :
    sw5.live = true ∧
    isStrand 2 39 = true ∧
    71 < 72 ∧
    bit (sw5.mach.core.excluded 2 1 39) 71 = false ∧
    sw5.mach.core.rd R.PRT_THRESH_CVLIM ≤ SMap.get 0 (sw5.mach.core.link 2 39).lanes 71 ∧
    (sw5.mach.core.sst 2 1 39 = 2 ∧
        64 ≤ 72 - popCount (setBit (sw5.mach.core.excluded 2 1 39) 71 true) 72 ∧
          sw5.mach.core.laneRoom 2 1 39 (setBit (sw5.mach.core.excluded 2 1 39) 71 true) = true ∨
      sw5.mach.core.sst 2 1 39 = 3) := by
  decide +kernel
theorem witness_DegradationRetrainsOrRetires_2 :
    sw5.live = true ∧
    isStrand 2 39 = true ∧
    71 < 72 ∧
    bit (sw5.mach.core.excluded 2 1 39) 71 = false ∧
    (sw5.mach.core.sst 2 1 39 = 2 ∨ sw5.mach.core.sst 2 1 39 = 3) := by
  decide +kernel
theorem witness_DegradationRetrainsOrRetires_3 :
    sw5.live = true ∧
    isStrand 2 39 = true ∧
    wiresBehind 0 17 ≠ 0 := by
  decide +kernel
theorem witness_DegradationRetrainsOrRetires_4 :
    sw6.live = true ∧
    isStrand 2 39 = true ∧
    (sw6.mach.core.sst 2 1 39 = 2 ∧ sw6.mach.core.rd R.PRT_THRESH_HDEG ≤ sw6.mach.core.rd (R.PRT_CNT_HARD 2 1 39) ∨
      sw6.mach.core.sst 2 1 39 = 3 ∧ sw6.mach.core.rd R.PRT_THRESH_HRET ≤ sw6.mach.core.rd (R.PRT_CNT_HARD 2 1 39)) := by
  decide +kernel
theorem witness_LinkMessagesAct_1 :
    sw7.live = true ∧
    2 < 6 ∧
    2 < 4 ∧
    sw7.mach.core.takeLctl 2 1 = some (mw1, c'w1) := by
  decide +kernel
theorem witness_LinkMessagesAct_2 :
    aS.live = true ∧
    2 < 6 ∧
    2 < 4 ∧
    2 ∈ aS.mach.core.ports.absent ∧
    aS.mach.core.rd R.PRT_TIMERS_LOSSTMO ≤ aS.mach.core.now - SMap.get 0 aS.mach.core.ports.lastFrame 2 := by
  decide +kernel
theorem witness_LinkMessagesAct_3 :
    sw8.live = true ∧
    2 < 6 ∧
    sw8.mach.core.takeLctl 2 2 = some (mw2, c'w2) ∧
    mw2.link < nStrands 2 ∧
    sw8.mach.core.sst 2 0 mw2.link ≠ 1 ∧
    sw8.mach.core.sst 2 1 mw2.link ≠ 1 ∧
    sw8.mach.core.sst 2 (1 - mw2.dir) mw2.link ≠ 4 := by
  decide +kernel
theorem witness_LinkMessagesAct_4 :
    sw9.live = true ∧
    2 < 6 ∧
    sw9.mach.core.takeLctl 2 3 = some (mw3, c'w3) ∧
    mw3.link < nStrands 2 ∧
    sw9.mach.core.sst 2 (1 - mw3.dir) mw3.link ≠ 1 := by
  decide +kernel
theorem witness_LinkMessagesAct_5 :
    sw10.live = true ∧
    2 < 6 ∧
    sw10.mach.core.takeLctl 2 4 = some (mw4, c'w4) ∧
    (sw10.mach.core.sst 2 0 mw4.link ≠ 4 ∨ 30 ≤ mw4.entries.length) := by
  decide +kernel
theorem witness_LinkMessagesAct_6 :
    sw11.live = true ∧
    2 < 6 ∧
    sw11.mach.core.takeLctl 2 4 = some (mw4, c'w5) ∧
    sw11.mach.core.sst 2 0 mw4.link = 4 ∧
    mw4.entries.length < 30 := by
  decide +kernel
theorem witness_RingInsertionByPosition_1 :
    sw12.live = true ∧
    0 < 4 ∧
    sw12.mach.core.insertTurn 0 = true ∧
    ow3.clean = true ∧
    SMap.get 0 sw12.mach.core.ports.tries 0 = 0 := by
  decide +kernel
theorem witness_RingInsertionByPosition_2 :
    sw13.live = true ∧
    0 < 4 ∧
    sw13.mach.core.insertTurn 0 = true ∧
    ow3.clean = true ∧
    1 ≤ SMap.get 0 sw13.mach.core.ports.tries 0 ∧
    SMap.get 0 sw13.mach.core.ports.tries 0 ≤ 3 ∧
    100000000 ≤ sw13.mach.core.now - SMap.get 0 sw13.mach.core.ports.failedAt 0 := by
  decide +kernel
theorem witness_RingInsertionByPosition_3 :
    sw14.live = true ∧
    0 < 4 ∧
    sw14.mach.core.insertTurn 0 = true ∧
    ow3.clean = true ∧
    SMap.get 0 sw14.mach.core.ports.tries 0 = 4 := by
  decide +kernel
theorem witness_IdleStepIsOneOscillatorCycle_1 :
    sw15.live = true ∧
    sw15.pending = [] := by
  decide +kernel
theorem witness_BeaconsAndClearingReads_1 :
    sw16.live = true ∧
    sw16.mach.core.tmb.beacon = none := by
  decide +kernel
theorem witness_BeaconsAndClearingReads_2 :
    sw16.live = true ∧
    sw16.mach.core.tmb.slew = 0 := by
  decide +kernel
theorem witness_BeaconsAndClearingReads_3 :
    sw17.live = true ∧
    sw17.mach.core.tmb.beacon = some (1000, 1000) := by
  decide +kernel
theorem witness_BeaconsAndClearingReads_4 :
    sw18.live = true ∧
    4 < 960 := by
  decide +kernel
theorem witness_BeaconsAndClearingReads_5 :
    sw18.live = true := by
  decide +kernel
theorem witness_BeaconsAndClearingReads_6 :
    sw18.live = true ∧
    3 < 1104 ∧
    2 < 3 ∧
    4 < 6 := by
  decide +kernel
end Sys2Proof.Tests.S12

namespace Sys2Proof.Tests.S13
open Sys2Proof.Tests
def po : Cmd := cmd 9 7 0x0B [(32,1),(20,3),(64,3),(70,1),(71,63),(77,1),(78,777)]
def ba (kind st : Nat) (src : Nat) (step : Nat) : Arrival := { id := 3, unit := 1060, pkt := { typ := 7, arg := kind + 4*st, src := src, seq := step, dst := base.bellAddr } }
def run (c : Core) : Core := (((c.wr R.CH_BELLSTEP_STATE 1).wr R.CH_BELLSTEP_STEP 5).twr 9 R.SEQ_BELL_PART 1).wr R.CH_BELLCFG_NCHILD 2
def kid : Nat := base.bellAddr + 2^45
def jS (a : Arrival) (f : Core → Core) : State := let c := f ((run base).wr (R.CH_BELLCHILD_CHILD 1) kid); up { c with net := { c.net with arr := [a] } }
def rS (js : Nat) : State := up (((run base).wr R.CH_BELLCFG_NCHILD 0).wr R.CH_BELLCFG_ROOT 1 |>.wr R.CH_BELLSTAT_JSTAT js)
def pS (st : Nat) : State := jS (ba 3 st kid 6) (fun c => (c.wr R.CH_BELLCFG_ROOT 0).wr R.CH_BELLPAR_PARENT kid)
def ra : Arrival := { ba 3 0 kid 6 with unit := 9 }
def pc : Cmd := { po with committed := true }
def sxA (acc : Bool) (step sl : Nat) : Arrival := { id := 3, unit := 1060, accepted := acc, pkt := { typ := 10, len := 32, src := kid, payload := toBytes 4 step ++ toBytes 12 0 ++ toBytes 16 sl } }
def sS (a : Arrival) : State := jS a (fun c => c.wr (R.CH_SEAL_LO_SEAL 0) 7)
def sw1 : State := onc po (fun c => (c.tallyPut 9 3 9 true true).tallyPut 9 63 9 true true)
def sw2 : State := jS (ba 0 3 (base.tileAddr 9 0) 0) id
def aw1 : Arrival := ba 0 3 (base.tileAddr 9 0) 0
def sw3 : State := jS (ba 0 0 (base.tileAddr 9 0) 0) (fun c => { c with bell := { tiles := [9] } })
def aw2 : Arrival := ba 0 0 (base.tileAddr 9 0) 0
def sw4 : State := jS (ba 1 4 kid 5) id
def aw3 : Arrival := ba 1 4 kid 5
def sw5 : State := jS (ba 2 4 kid 5) id
def aw4 : Arrival := ba 2 4 kid 5
def psw1 : List Nat := [0,3,4,10]
def qsw1 : List Nat := [10,4,3,0]
def sw6 : State := rS 0
def sw7 : State := pS 0
def aw5 : Arrival := ba 3 0 kid 6
def sw8 : State := onc pc (fun c => { c.twr 9 R.SEQ_BELL_PEND 1 with net := { arr := [ra] } })
def sw9 : State := up { (run base).wr R.TMB_NOW_NOW (2^50) with bell := { armed := some 0 } }
def sw10 : State := sS (sxA false 4 7)
def sw11 : State := sS (sxA false 5 8)
def sw12 : State := sS (sxA true 4 7)
def aw6 : Arrival := sxA false 4 7
def aw7 : Arrival := sxA false 5 8
def aw8 : Arrival := sxA true 4 7
theorem witness_PostsCommitAndJoinTheStep_1 :
    9 < 960 ∧
    Runs sw1 9 7 0 11 po ∧
    po.committed = false := by
  unfold Runs; decide +kernel
theorem witness_PostsCommitAndJoinTheStep_2 :
    sw2.live = true ∧
    sw2.mach.core.rd R.CH_BELLSTEP_STATE = 1 ∧
    sw2.mach.core.bellArr 0 0 = some aw1 ∧
    sw2.mach.core.poster aw1 = some 9 ∧
    9 ∉ sw2.mach.core.bell.tiles := by
  decide +kernel
theorem witness_PostsCommitAndJoinTheStep_3 :
    sw3.live = true ∧
    sw3.mach.core.rd R.CH_BELLSTEP_STATE = 1 ∧
    sw3.mach.core.bellArr 0 0 = some aw2 ∧
    (sw3.mach.core.poster aw2 = none ∨ sw3.mach.core.poster aw2 = some 9 ∧ 9 ∈ sw3.mach.core.bell.tiles) := by
  decide +kernel
theorem witness_PostsCommitAndJoinTheStep_4 :
    sw4.live = true ∧
    sw4.mach.core.rd R.CH_BELLSTEP_STATE = 1 ∧
    sw4.mach.core.bellArr 0 1 = some aw3 ∧
    sw4.mach.core.childOf aw3.pkt.src = some 1 ∧
    1 ∉ sw4.mach.core.bell.kids := by
  decide +kernel
theorem witness_PostsCommitAndJoinTheStep_5 :
    sw5.live = true ∧
    sw5.mach.core.rd R.CH_BELLSTEP_STATE = 1 ∧
    sw5.mach.core.bellArr 0 2 = some aw4 ∧
    sw5.mach.core.childOf aw4.pkt.src = some 1 ∧
    1 < 16 ∧
    1 ∉ sw5.mach.core.bell.kids := by
  decide +kernel
theorem witness_PostsCommitAndJoinTheStep_6 :
    psw1.Perm qsw1 := by
  decide +kernel
theorem witness_RingsBeginHoldOrTimeOut_1 :
    sw6.live = true ∧
    sw6.mach.core.rd R.CH_BELLSTEP_STATE = 1 ∧
    sw6.mach.core.bell.change = none ∧
    sw6.mach.core.rd R.CH_BELLCFG_ROOT = 1 ∧
    sw6.mach.core.allIn = true := by
  decide +kernel
theorem witness_RingsBeginHoldOrTimeOut_2 :
    sw7.live = true ∧
    sw7.mach.core.rd R.CH_BELLSTEP_STATE = 1 ∧
    sw7.mach.core.bell.change = none ∧
    sw7.mach.core.bellArr 0 3 = some aw5 ∧
    sw7.mach.core.rd R.CH_BELLCFG_ROOT = 0 ∧
    aw5.pkt.src = sw7.mach.core.rd R.CH_BELLPAR_PARENT := by
  decide +kernel
theorem witness_RingsBeginHoldOrTimeOut_3 :
    sw8.live = true ∧
    9 < 960 ∧
    List.find? (fun (a : Arrival) => decide (a.unit = 9) && decide (a.pkt.typ = 7)) sw8.mach.core.net.arr = some ra ∧
    ra.pkt.bellKind = 3 ∧
    sw8.mach.core.trd 9 R.SEQ_BELL_PEND = 1 := by
  decide +kernel
theorem witness_RingsBeginHoldOrTimeOut_4 :
    sw9.live = true ∧
    sw9.mach.core.bell.armed = some 0 ∧
    sw9.mach.core.rd R.CH_BELLSTEP_STATE = 1 ∧
    sw9.mach.core.rd R.CH_BELLTMO_WDOG ≤ sw9.mach.core.now - 0 := by
  decide +kernel
theorem witness_TwinSealsAreCompared_1 :
    sw10.live = true ∧
    sw10.mach.core.arrOf 0 10 unitSeam = some aw6 ∧
    aw6.accepted = false ∧
    sw10.mach.core.sealxHeld aw6 = false ∧
    ((leAt aw6.pkt.payload 0 4 + 1) % 2 ^ 32 = sw10.mach.core.rd R.CH_BELLSTEP_STEP ∧
      ∀ r ∈ sw10.mach.core.bell.compared, r.1 ≠ leAt aw6.pkt.payload 0 4) := by
  decide +kernel
theorem witness_TwinSealsAreCompared_2 :
    sw11.live = true ∧
    sw11.mach.core.arrOf 0 10 unitSeam = some aw7 ∧
    aw7.accepted = false ∧
    sw11.mach.core.sealxHeld aw7 = true := by
  decide +kernel
theorem witness_TwinSealsAreCompared_3 :
    sw12.live = true ∧
    sw12.mach.core.arrOf 0 10 unitSeam = some aw8 ∧
    aw8.accepted = true ∧
    sw12.mach.core.sealxHeld aw8 = false ∧
    ((leAt aw8.pkt.payload 0 4 + 1) % 2 ^ 32 = sw12.mach.core.rd R.CH_BELLSTEP_STEP ∧
      ∀ r ∈ sw12.mach.core.bell.compared, r.1 ≠ leAt aw8.pkt.payload 0 4) := by
  decide +kernel
end Sys2Proof.Tests.S13

namespace Sys2Proof.Tests.S14
open Sys2Proof.Tests
def sens (l : List (Nat×Nat)) (c : Core) : Core := { c with wgh := { c.wgh with sensors := l } }
def sn : Arrival := { id := 3, unit := 1060, port := some 0, pkt := { typ := 9, arg := 8 + 23*16 + 2*2^9 + 255*2^11, dst := base.pageAddr 0x60800 } }
def ps (d m : Nat) : State := withMem [(tileBase 41 + 5, 7), (tileBase 81, 7)] (up (region 41 0 0 4 0 0 (base.wr (R.WGH_DOMST_MODE d) m)))
def es (l : List (Nat×Nat)) (t line : Nat) (s : State) : State := { s with mach := { s.mach with errs := SMap.set [] [] (lineId t line) l, corr := [lineId t line] } }
def sc (l : List (Nat×Nat)) : State := es l 3 300 (withMem [(tileBase 3 + 64*300 - 1, 9), (tileBase 3 + 64*300 + 5, 7)] (up ((region 3 0 0 4 0 0 base).twr 3 (R.MEM_RGN_WCLASS 0) 1)))
def dl (es : List (Nat×Nat)) : List (Nat×Nat) := match decodeLine true es with | .word l _ => l | _ => []
def dk (es : List (Nat×Nat)) : Nat := match decodeLine true es with | .word _ k => k | _ => 0
def rw : State := up { base with led := { called := [(3, 15, 1023)] } }
def rt : State := up (((base.wr (R.TMB_DOMRATE_VOLT 4) 880).wr (R.TMB_DOMRATE_TJ 4) 65).wr (R.TMB_DOMRATE_RATE 4) 1600)
def sst (p d s v : Nat) (c : Core) : Core := c.wr (R.PRT_STRAND_SSTATE p d s) v
def sw1 : State := up (base.wr R.TMB_NOW_NOW 9999)
def sw2 : State := up ((base.wr R.TMB_NOW_NOW 10000).wr (R.WGH_DOMST_THST 25) 2)
def sw3 : State := up base
def sw4 : State := up (sens [(28,0),(28,1)] base)
def sw5 : State := up { base with net := { arr := [sn] }, wgh := { hot := [23] } }
def aw1 : ℤ := -41
def sw6 : State := ps 1 1
def sw7 : State := ps 1 3
def kw1 : Nat := tileBase 41 + 5
def sw8 : State := ps 27 1
def sw9 : State := sc [(5,3)]
def sw10 : State := sc [(5,3),(6,1),(7,1),(8,9),(9,1)]
def lw1 : List (Nat × Nat) := dl [(5,3)]
def kw2 : Nat := dk [(5,3)]
def sw11 : State := up ((sst 2 1 39 2 base).wr (R.PRT_CNT_HARD 2 1 39) 60000)
def sw12 : State := withMem [(sliceBase 5 - 1, 3),(sliceBase 5, 3),(sliceBase 6 - 1, 3),(sliceBase 6, 3)] (up { base.wr (R.LAR_CTL_STATE 5) 1 with lar := { lines := [⟨5,0,0,0,false,0⟩,⟨6,0,0,0,false,0⟩] } })
theorem witness_WindowsAndHeatSetTheWeighHouse_1 :
    sw1.live = true ∧
    sw1.pwr.comp = false ∧
    sw1.mach.core.now / 10000 = sw1.mach.core.wgh.last := by
  decide +kernel
theorem witness_WindowsAndHeatSetTheWeighHouse_2 :
    sw2.live = true ∧
    sw2.pwr.comp = false ∧
    sw2.mach.core.now / 10000 ≠ sw2.mach.core.wgh.last := by
  decide +kernel
theorem witness_WindowsAndHeatSetTheWeighHouse_3 :
    sw3.live = true ∧
    28 < 29 ∧
    sw3.mach.core.sensorsOf 28 = [0, 1] ∧
    -40 ≤ 95 ∧
    95 ≤ 150 ∧
    -40 ≤ 90 ∧
    90 ≤ 150 := by
  decide +kernel
theorem witness_WindowsAndHeatSetTheWeighHouse_4 :
    sw3.live = true ∧
    28 < 29 ∧
    -40 ≤ 95 ∧
    95 ≤ 150 ∧
    -40 ≤ 20 ∧
    20 ≤ 150 ∧
    sw3.mach.core.sensorsOf 28 = [0, 1] ∧
    5 < 95 - 20 ∧
    sw3.mach.core.ledgerFull { kind := 11, unit := 28, arg := 1 } = false := by
  decide +kernel
theorem witness_WindowsAndHeatSetTheWeighHouse_5 :
    sw3.live = true ∧
    28 < 29 ∧
    (aw1 < -40 ∨ 150 < aw1) := by
  decide +kernel
theorem witness_WindowsAndHeatSetTheWeighHouse_6 :
    sw4.live = true ∧
    28 < 29 ∧
    sw4.mach.core.sensorsOf 28 = [] := by
  decide +kernel
theorem witness_WindowsAndHeatSetTheWeighHouse_7 :
    sw5.live = true ∧
    28 < 29 ∧
    sw5.mach.core.net.arr[0]? = some sn ∧
    sn.pkt.typ = 9 ∧
    sn.linkNotice = false ∧
    sw5.mach.core.forwarded sn = false ∧
    stackOk sn.pkt.arg = true := by
  decide +kernel
theorem witness_RampsAndPhasesEnd_1 :
    sw6.live = true ∧
    1 < 24 ∧
    sw6.mach.core.rd (R.WGH_DOMST_MODE 1) = 1 ∧
    sw6.mach.core.pairQuiet 1 = true := by
  decide +kernel
theorem witness_RampsAndPhasesEnd_2 :
    sw6.live = true ∧
    1 < 30 ∧
    sw6.mach.core.ledgerFull { kind := 10, unit := 1, arg := kw1 % 16 + 16 } = false := by
  decide +kernel
theorem witness_RampsAndPhasesEnd_3 :
    sw7.live = true ∧
    1 < 24 ∧
    sw7.mach.core.rd (R.WGH_DOMST_MODE 1) = 3 := by
  decide +kernel
theorem witness_RampsAndPhasesEnd_4 :
    sw8.live = true ∧
    24 ≤ 27 ∧
    27 < 28 ∧
    (sw8.mach.core.rd (R.WGH_DOMST_MODE 27) = 1 ∨ sw8.mach.core.rd (R.WGH_DOMST_MODE 27) = 3) := by
  decide +kernel
theorem witness_ScrubbingRewritesCorrectableLines_1 :
    sw9.live = true ∧
    3 < 960 ∧
    300 < 16384 ∧
    sw9.mach.core.regionOf 3 (300 / 256) = some 0 ∧
    sw9.mach.core.present 3 = true ∧
    sw9.mach.core.trd 3 (R.MEM_RGN_WCLASS 0) = 1 ∧
    sw9.mach.core.trd 3 (R.MEM_RGN_MODE 0) ≤ 1 ∧
    (sw9.mach.core.trd 3 (R.MEM_RGN_MODE 0) = 1 ∨ sw9.mach.core.tileDark 3 = false) ∧
    sw9.mach.core.bankRetired 3 (300 / 1024) = false ∧
    sw9.mach.lineErrs (lineId 3 300) ≠ [] ∧
    decodeLine (sw9.mach.core.weightLine 3 300) (sw9.mach.lineErrs (lineId 3 300)) = Decoded.word lw1 kw2 := by
  decide +kernel
theorem witness_ScrubbingRewritesCorrectableLines_2 :
    sw9.live = true ∧
    3 < 960 ∧
    300 < 16384 ∧
    sw9.mach.corr[0]? = some (lineId 3 300) ∧
    decodeLine (sw9.mach.core.weightLine 3 300) (sw9.mach.lineErrs (lineId 3 300)) = Decoded.word lw1 kw2 := by
  decide +kernel
theorem witness_ScrubbingRewritesCorrectableLines_3 :
    sw10.live = true ∧
    3 < 960 ∧
    300 < 16384 ∧
    sw10.mach.core.regionOf 3 (300 / 256) = some 0 ∧
    sw10.mach.core.present 3 = true ∧
    sw10.mach.core.trd 3 (R.MEM_RGN_WCLASS 0) = 1 ∧
    sw10.mach.core.trd 3 (R.MEM_RGN_MODE 0) ≤ 1 ∧
    (sw10.mach.core.trd 3 (R.MEM_RGN_MODE 0) = 1 ∨ sw10.mach.core.tileDark 3 = false) ∧
    sw10.mach.core.bankRetired 3 (300 / 1024) = false ∧
    sw10.mach.lineErrs (lineId 3 300) ≠ [] ∧
    decodeLine (sw10.mach.core.weightLine 3 300) (sw10.mach.lineErrs (lineId 3 300)) = Decoded.uncorrectable := by
  decide +kernel
theorem witness_WearIsRecordedAndMended_1 :
    rw.live = true ∧
    rw.mach.core.led.called[0]? = some (3, 15, 1023) ∧
    3 < 960 ∧
    rw.mach.core.present 3 = true ∧
    rw.mach.core.bankRetired 3 15 = false ∧
    rw.mach.core.rowCount (rw.mach.core.ledUnit 3) 15 1023 ≠ 3 ∧
    rw.mach.core.nextRow (rw.mach.core.ledUnit 3) 15 < 8 ∧
    rw.mach.core.ledgerFull
        { kind := 3, unit := rw.mach.core.ledUnit 3,
          arg :=
            15 + 64 * 1023 + 2 ^ 16 * rw.mach.core.nextRow (rw.mach.core.ledUnit 3) 15 +
              2 ^ 19 * (rw.mach.core.rowCount (rw.mach.core.ledUnit 3) 15 1023 + 1) } =
      false ∧
    rw.mach.rowStuck 3 (1024 * 15 + 1023) = false := by
  decide +kernel
theorem witness_WearIsRecordedAndMended_2 :
    rt.live = true ∧
    4 < 29 ∧
    rt.mach.core.floorOf rt.grade 4 = some 1650 ∧
    rt.mach.core.rd (R.TMB_DOMRATE_RATE 4) * 256 < 1650 * (256 + rt.mach.core.rd R.LDG_THRESH_DMARGIN) := by
  decide +kernel
theorem witness_WearIsRecordedAndMended_3 :
    rt.live = true ∧
    4 < 29 ∧
    rt.mach.core.floorOf rt.grade 4 = some 1650 ∧
    880 ≤ rt.mach.core.rd (R.TMB_DOMRATE_VOLT 4) ∧
    rt.mach.core.rd (R.TMB_DOMRATE_RATE 4) < 1650 ∧
    rt.mach.core.ledgerFull { kind := 12, unit := 4, arg := rt.mach.core.rd (R.TMB_DOMRATE_RATE 4) } = false := by
  decide +kernel
theorem witness_WearIsRecordedAndMended_4 :
    sw11.live = true ∧
    isStrand 2 39 = true ∧
    sw11.mach.core.hardLimit 2 1 39 = true := by
  decide +kernel
theorem witness_LarderModesAreSetAndSwitched_1 :
    sw12.live = true ∧
    5 < 96 ∧
    sw12.mach.core.rd (R.LAR_CTL_STATE 5) = 1 ∧
    (∀ f ∈ sw12.mach.core.lar.fetches, f.slice = 5 ∨ f.evict = true → f.write = true → f.done = true) := by
  decide +kernel
end Sys2Proof.Tests.S14

namespace Sys2Proof.Tests.S15
open Sys2Proof.Tests
def rom (c : Core) : Core := c.wr R.CH_FWVER_ROM 0
def rqPkt (cmd : Nat) (body : List Byte) (tag : Nat) : Packet := { typ := 8, dst := base.selfAddr 6 512, src := 3*2^45, payload := toBytes 2 cmd ++ [1,0] ++ toBytes 4 tag ++ toBytes 8 (3*2^45) ++ toBytes 2 body.length ++ List.replicate 14 0 ++ body }
def ma (p : Packet) : Arrival := { id := 3, unit := 1061, port := some 0, pkt := p }
def mbS (p : Packet) (f : Core → Core) : State := let c := f ((rom base).wr R.CH_FWVER_RELEASE 0x10000); up { c.wr (R.PRT_STATE_STATE 0) 2 with net := { arr := [ma p] } }
def dn : MbDone := ⟨0, 1, 5, { typ := 8, dst := 3*2^45, payload := [1,2,3] }⟩
def fr (i : Nat) : FaultRec := ⟨1,2,3,4,5,6,7,i⟩
def hdr : List Byte := [2,0,0,0,8,0,0,0,5,0,1,0,1,0] ++ List.replicate 146 0
def slf := mreq 0x30 (toBytes 8 (word [(0,1),(1,3)]) ++ toBytes 3 5)
def bcf := mreq 0x31 (toBytes 8 (word [(0,0),(2,1),(3,2),(9,3)]) ++ toBytes 8 77 ++ toBytes 8 78 ++ toBytes 8 79)
def js := mreq 0x32 (toBytes 8 99 ++ toBytes 4 0 ++ toBytes 120 (1 + 2^5 + 2^959))
def ro := mreq 0x33 [1,0,0,0,0,0,0,0]
def ro2 := mreq 0x33 [1,0,0,0,5,0,0,0]
def ab := mreq 0x34 [0,0,5,0x81,0,0]
def q0 (u q : Nat) (ph : CPhase) : Cmd := { cmd u q 0 [] with phase := ph }
def ab2 := mreq 0x34 [0,48,5,0x81,0,0]
def sw1 : State := mbS (rqPkt 1 [] 5) id
def aw1 : Arrival := ma (rqPkt 1 [] 5)
def sw2 : State := mbS (rqPkt 1 [] 5) (fun c => c.wr (R.CH_MBSTAT_BUSY 0) 2)
def aw2 : Arrival := ma (rqPkt 1 [] 5)
def sw3 : State := mbS (rqPkt 1 [] 5) (fun c => { c with mb := { done := [dn] } })
def aw3 : Arrival := ma (rqPkt 1 [] 5)
def sw4 : State := mS (mreq 1 []) id
def rw1 : MbReq := mreq 1 []
def sw5 : State := mS (mreq 2 [2,0,0,0,1]) (fun c => { c.wr R.LDG_FLOG_WI 4 with log := { flog := [fr 0,fr 1,fr 2, fr 3] } })
def rw2 : MbReq := mreq 2 [2,0,0,0,1]
def sw6 : State := mS (mreq 0x18 hdr) id
def sw7 : State := mS (mreq 0x18 hdr) (fun c => { c with fw := { staged := some (0,hdr) } })
def rw3 : MbReq := mreq 0x18 hdr
def sw8 : State := withMem [(bankBase 1 + 4, 9),(bankBase 1 + 8, 9)] (mS (mreq 0x19 [4,0,0,0,4,0,0,0,0,0,0,0,0,0,0,0,1,2,0,3]) (fun c => { c with fw := { staged := some (1,hdr) } }))
def rw4 : MbReq := mreq 0x19 [4,0,0,0,4,0,0,0,0,0,0,0,0,0,0,0,1,2,0,3]
def sw9 : State := mS (mreq 0x1A []) (fun c => { c with fw := { staged := some (1,hdr) } })
def rw5 : MbReq := mreq 0x1A []
def sw10 : State := mS slf id
def sw11 : State := mS bcf (fun c => c.wr R.CH_HMSTAT_TWIN 1)
def sw12 : State := mS js id
def sw13 : State := mS ro id
def sw14 : State := mS ro2 (fun c => c.wr R.CH_BELLSTEP_STATE 1)
def sw15 : State := mS ab (fun c => { c with queues := { cmds := [q0 5 0 .ready, q0 5 7 .waitTally, q0 5 6 .ready, q0 6 0 .ready] } })
def sw16 : State := mS ab2 id
theorem witness_MailboxAcceptsOnce_1 :
    sw1.live = true ∧
    sw1.mach.core.net.arr[0]? = some aw1 ∧
    aw1.port = some 0 ∧
    0 < 6 ∧
    aw1.pkt.typ = 8 ∧
    aw1.unit ≠ unitSeam ∧
    sw1.mach.core.mbCheck 0 aw1.unit aw1.pkt = MbCheck.accepted ∧
    sw1.mach.core.mbPlain (mbRequest 0 aw1.pkt) = none ∧
    (mbRequest 0 aw1.pkt).slot < 16 ∧
    (∀ x ∈ sw1.mach.core.mb.reqs, x.port = 0 → x.slot ≠ (mbRequest 0 aw1.pkt).slot) ∧
    SlotsOk sw1 := by
  unfold SlotsOk; decide +kernel
theorem witness_MailboxAcceptsOnce_2 :
    sw2.live = true ∧
    sw2.mach.core.net.arr[0]? = some aw2 ∧
    aw2.port = some 0 ∧
    0 < 6 ∧
    aw2.pkt.typ = 8 ∧
    aw2.unit ≠ unitSeam ∧
    sw2.mach.core.mbCheck 0 aw2.unit aw2.pkt = MbCheck.refused 7 := by
  decide +kernel
theorem witness_MailboxAcceptsOnce_3 :
    sw3.live = true ∧
    sw3.mach.core.net.arr[0]? = some aw3 ∧
    aw3.port = some 0 ∧
    0 < 6 ∧
    aw3.pkt.typ = 8 ∧
    aw3.unit ≠ unitSeam ∧
    sw3.mach.core.mbCheck 0 aw3.unit aw3.pkt = MbCheck.again dn ∧
    sw3.mach.core.rd (R.PRT_STATE_STATE 0) = 2 := by
  decide +kernel
theorem witness_InformationAndHistoryAreExchanged_1 :
    Turn sw4 (mbIs 1) rw1 := by
  unfold Turn SlotsOk; decide +kernel
theorem witness_InformationAndHistoryAreExchanged_2 :
    Turn sw5 (mbIs 2) rw2 := by
  unfold Turn SlotsOk; decide +kernel
theorem witness_FirmwareIsStagedWrittenAndCommitted_1 :
    Turn sw6 (mbIs 24) rw3 ∧
    sw6.mach.core.fw.staged = none := by
  unfold Turn SlotsOk; decide +kernel
theorem witness_FirmwareIsStagedWrittenAndCommitted_2 :
    Turn sw7 (mbIs 24) rw3 ∧
    sw7.mach.core.fw.staged.isSome = true := by
  unfold Turn SlotsOk; decide +kernel
theorem witness_FirmwareIsStagedWrittenAndCommitted_3 :
    Turn sw8 (mbIs 25) rw4 ∧
    sw8.mach.core.fw.staged = some (1, hdr) ∧
    rw4.field 0 4 + rw4.field 4 2 ≤ leAt hdr 4 4 := by
  unfold Turn SlotsOk; decide +kernel
theorem witness_FirmwareIsStagedWrittenAndCommitted_4 :
    Turn sw9 (mbIs 26) rw5 ∧
    sw9.mach.core.fw.staged = some (1, hdr) ∧
    sw9.fuses.imageGood hdr (sw9.mach.read (bankBase 1) (leAt hdr 4 4))
        (decide (coveredTo sw9.mach.core.fw.written sw9.mach.core.fw.written.length 0 = leAt hdr 4 4)) =
      false := by
  unfold Turn SlotsOk; decide +kernel
theorem witness_JobsAreConfiguredAndStarted_1 :
    Turn sw10 (mbIs 48) slf ∧
    (bits (slf.field 0 8) 19 5 + 1) * (bits (slf.field 0 8) 24 5 + 1) * (bits (slf.field 0 8) 29 4 + 1) *
        perAssembly (sw10.mach.core.rd R.STG_STRAP_ASM) ≤
      scaleOf (sw10.mach.core.rd R.CH_HMSTAT_SCALE) := by
  unfold Turn SlotsOk; decide +kernel
theorem witness_JobsAreConfiguredAndStarted_2 :
    Turn sw11 (mbIs 49) bcf ∧
    bits (bcf.field 0 8) 3 5 ≤ 16 ∧
    sw11.mach.core.rd R.CH_BELLSTEP_STATE ≠ 1 ∧
    sw11.mach.core.rd R.CH_HMSTAT_TWIN ≠ 0 ∧
    bits (bcf.field 0 8) 0 2 = sw11.mach.core.rd R.CH_BELLCFG_ROLE := by
  unfold Turn SlotsOk; decide +kernel
theorem witness_JobsAreConfiguredAndStarted_3 :
    Turn sw12 (mbIs 50) js ∧
    sw12.mach.core.rd R.CH_BELLSTEP_STATE ≠ 1 ∧
    sw12.mach.core.serving = true := by
  unfold Turn SlotsOk; decide +kernel
theorem witness_JobsAreConfiguredAndStarted_4 :
    Turn sw13 (mbIs 51) ro ∧
    sw13.mach.core.rd R.CH_BELLSTEP_STATE ≠ 1 ∧
    ro.field 4 4 = 0 := by
  unfold Turn SlotsOk; decide +kernel
theorem witness_JobsAreConfiguredAndStarted_5 :
    Turn sw14 (mbIs 51) ro2 ∧
    sw14.mach.core.rd R.CH_BELLSTEP_STATE = 1 ∧
    ro2.field 4 4 ≠ 0 := by
  unfold Turn SlotsOk; decide +kernel
theorem witness_AbortsTakeTheirTargets_2 :
    Turn sw15 (mbIs 52) ab ∧
    ab.note = [] ∧
    sw15.mach.core.abortCheck ab = none ∧
    ab.byte 4 ≠ 1 := by
  unfold Turn SlotsOk; decide +kernel
theorem witness_AbortsTakeTheirTargets_3 :
    Turn sw16 (mbIs 52) ab2 ∧
    ab2.note = [] ∧
    sw16.mach.core.abortCheck ab2 = some (4, 0) := by
  unfold Turn SlotsOk; decide +kernel
end Sys2Proof.Tests.S15

namespace Sys2Proof.Tests.S16
open Sys2Proof.Tests
def wn (w : Nat) (len : Nat) := mreq 0x38 (toBytes 2 w ++ toBytes 16 (word [(2,1),(3,1),(24,47),(30,19),(48,5),(70,len)]))
def wc := mreq 0x39 [255,3]
def b0 := mreq 0x40 []
def b1 := mreq 0x41 []
def b2 := mreq 0x42 []
def ep (st0 st1 act n : Nat) (c : Core) : Core := (((c.wr R.NET_RTCTL_STATE0 st0).wr R.NET_RTCTL_STATE1 st1).wr R.NET_RTCTL_ACTIVE act).wr (R.NET_EPCNT_COUNT (1 - act)) n
def ls (v : Nat) := mreq 0x48 ([95,0,0,0,0,0,0,0] ++ toBytes 2 v)
def li := mreq 0x49 [1]
def cp (n : Nat) := mreq 0x50 (toBytes 2 n)
def sr (off v mask : Nat) := mreq 0x51 (toBytes 4 off ++ [0,0,0,0] ++ toBytes 8 v ++ toBytes 8 mask)
def dk (d b : Nat) := mreq 0x52 [BitVec.ofNat 8 d, BitVec.ofNat 8 b]
def role2 (c : Core) : Core := c.wr R.CH_BELLCFG_ROLE 2
def pk (d b : Nat) := mreq 0x53 [BitVec.ofNat 8 d, BitVec.ofNat 8 b]
def halfDark (h : Nat) (c : Core) : Core := (List.range 12).foldl (fun c i => c.wr (R.WGH_DOMST_MODE (12*h+i)) 2) c
def sw1 : State := mS (wn 1023 100) (fun c => c.wr (R.LAR_WIN_GEN 1023) 1023)
def sw2 : State := mS (wn 1023 100) (fun c => c.wr (R.LAR_WIN_OPEN 1023) 1)
def rw1 : MbReq := wn 1023 100
def sw3 : State := mS wc (fun c => c.wr (R.LAR_WIN_OPEN 1023) 1)
def sw4 : State := mS wc (fun c => (c.wr (R.LAR_WIN_OPEN 1023) 1).wr (R.LAR_WIN_INBOUND 1023) 1)
def sw5 : State := mS b0 (ep 0 2 1 0)
def sw6 : State := mS b0 (ep 3 2 1 0)
def sw7 : State := mS b1 (ep 2 2 0 0)
def sw8 : State := mS b1 (ep 3 2 1 0)
def sw9 : State := mS b2 (ep 2 3 0 0)
def sw10 : State := mS b2 (ep 2 3 0 7)
def sw11 : State := mS b2 (ep 2 2 0 7)
def sw12 : State := mS (ls (0 + 5*4+1024)) id
def sw13 : State := mS (ls (1+4*4)) (fun c => { c with lar := { lines := [⟨95,0,0,0,true,0⟩] } })
def rw2 : MbReq := ls (0 + 5*4+1024)
def rw3 : MbReq := ls (1+4*4)
def sw14 : State := mS li id
def sw15 : State := mS (cp 300) id
def sw16 : State := mS (cp 299) id
def rw4 : MbReq := cp 300
def rw5 : MbReq := cp 299
def sw17 : State := mS (sr 0x50008 0 0xFF) id
def rw6 : MbReq := sr 0x50008 0 0xFF
def sw18 : State := mS (sr 0x50010 96 255) id
def rw7 : MbReq := sr 0x50010 96 255
def sw19 : State := mS (dk 23 0) role2
def sw20 : State := mS (dk 23 0) id
def rw8 : MbReq := dk 23 0
def sw21 : State := mS (dk 23 1) (fun c => c.wr (R.WGH_DOMST_MODE 23) 2)
def rw9 : MbReq := dk 23 1
def sw22 : State := mS (pk 1 0) (halfDark 1)
def sw23 : State := mS (pk 1 0) id
def rw10 : MbReq := pk 1 0
def sw24 : State := mS (pk 1 1) (fun c => (c.wr (R.WGH_DOMST_MODE 26) 2).wr (R.WGH_DOMST_MODE 27) 2)
def rw11 : MbReq := pk 1 1
theorem witness_WindowsAndRouteEpochsTurn_1 :
    rw1.field 0 2 < 1024 ∧
    Turn sw1 (mbIs 56) rw1 ∧
    sw1.mach.core.winRefused (rw1.field 0 2) (rw1.field 2 16) = none := by
  unfold Turn SlotsOk; decide +kernel
theorem witness_WindowsAndRouteEpochsTurn_2 :
    rw1.field 0 2 < 1024 ∧
    Turn sw2 (mbIs 56) rw1 ∧
    sw2.mach.core.winRefused (rw1.field 0 2) (rw1.field 2 16) = some 2 := by
  unfold Turn SlotsOk; decide +kernel
theorem witness_WindowsAndRouteEpochsTurn_3 :
    wc.field 0 2 < 1024 ∧
    Turn sw3 (mbIs 57) wc ∧
    wc.note = [] ∧
    sw3.mach.core.rd (R.LAR_WIN_OPEN (wc.field 0 2)) = 1 ∧
    sw3.mach.core.rd (R.LAR_WIN_CLOSING (wc.field 0 2)) = 0 ∧
    sw3.mach.core.rd (R.LAR_WIN_INBOUND (wc.field 0 2)) = 0 := by
  unfold Turn SlotsOk; decide +kernel
theorem witness_WindowsAndRouteEpochsTurn_4 :
    wc.field 0 2 < 1024 ∧
    Turn sw4 (mbIs 57) wc ∧
    wc.note = [] ∧
    sw4.mach.core.rd (R.LAR_WIN_OPEN (wc.field 0 2)) = 1 ∧
    sw4.mach.core.rd (R.LAR_WIN_CLOSING (wc.field 0 2)) = 0 ∧
    sw4.mach.core.rd (R.LAR_WIN_INBOUND (wc.field 0 2)) ≠ 0 := by
  unfold Turn SlotsOk; decide +kernel
theorem witness_WindowsAndRouteEpochsTurn_5 :
    Turn sw5 (mbIs 64) b0 ∧
    sw5.mach.core.epochState (1 - sw5.mach.core.rd R.NET_RTCTL_ACTIVE) = 0 := by
  unfold Turn SlotsOk; decide +kernel
theorem witness_WindowsAndRouteEpochsTurn_6 :
    Turn sw6 (mbIs 64) b0 ∧
    sw6.mach.core.epochState (1 - sw6.mach.core.rd R.NET_RTCTL_ACTIVE) ≠ 0 := by
  unfold Turn SlotsOk; decide +kernel
theorem witness_WindowsAndRouteEpochsTurn_7 :
    Turn sw7 (mbIs 65) b1 ∧
    sw7.mach.core.epochState (1 - sw7.mach.core.rd R.NET_RTCTL_ACTIVE) = 2 := by
  unfold Turn SlotsOk; decide +kernel
theorem witness_WindowsAndRouteEpochsTurn_8 :
    Turn sw8 (mbIs 65) b1 ∧
    sw8.mach.core.epochState (1 - sw8.mach.core.rd R.NET_RTCTL_ACTIVE) ≠ 2 := by
  unfold Turn SlotsOk; decide +kernel
theorem witness_WindowsAndRouteEpochsTurn_9 :
    Turn sw9 (mbIs 66) b2 ∧
    b2.note = [] ∧
    sw9.mach.core.epochState (1 - sw9.mach.core.rd R.NET_RTCTL_ACTIVE) = 3 ∧
    sw9.mach.core.rd (R.NET_EPCNT_COUNT (1 - sw9.mach.core.rd R.NET_RTCTL_ACTIVE)) = 0 := by
  unfold Turn SlotsOk; decide +kernel
theorem witness_WindowsAndRouteEpochsTurn_10 :
    Turn sw10 (mbIs 66) b2 ∧
    b2.note = [] ∧
    sw10.mach.core.epochState (1 - sw10.mach.core.rd R.NET_RTCTL_ACTIVE) = 3 ∧
    sw10.mach.core.rd (R.NET_EPCNT_COUNT (1 - sw10.mach.core.rd R.NET_RTCTL_ACTIVE)) ≠ 0 := by
  unfold Turn SlotsOk; decide +kernel
theorem witness_WindowsAndRouteEpochsTurn_11 :
    Turn sw11 (mbIs 66) b2 ∧
    b2.note = [] ∧
    sw11.mach.core.epochState (1 - sw11.mach.core.rd R.NET_RTCTL_ACTIVE) ≠ 3 := by
  unfold Turn SlotsOk; decide +kernel
theorem witness_LarderModesAreSetAndSwitched_2 :
    Turn sw12 (mbIs 72) rw2 ∧
    rw2.note = [] ∧
    sw12.mach.core.reduced = false ∧
    rw2.byte 0 < 96 ∧
    sw12.mach.core.unitThere (960 + rw2.byte 0) = true ∧
    (¬(sw12.mach.core.rd R.CH_CRCTL_SLICE = rw2.byte 0 ∧ sw12.mach.core.rd R.STG_STATUS_PASSU = 1)) ∧
    bits (rw2.field 8 8) 0 1 = sw12.mach.core.rd (R.LAR_CTL_MODE (rw2.byte 0)) := by
  unfold Turn SlotsOk; decide +kernel
theorem witness_LarderModesAreSetAndSwitched_3 :
    Turn sw13 (mbIs 72) rw3 ∧
    rw3.note = [] ∧
    sw13.mach.core.reduced = false ∧
    rw3.byte 0 < 96 ∧
    sw13.mach.core.unitThere (960 + rw3.byte 0) = true ∧
    (¬(sw13.mach.core.rd R.CH_CRCTL_SLICE = rw3.byte 0 ∧ sw13.mach.core.rd R.STG_STATUS_PASSU = 1)) ∧
    bits (rw3.field 8 8) 0 1 ≠ sw13.mach.core.rd (R.LAR_CTL_MODE (rw3.byte 0)) := by
  unfold Turn SlotsOk; decide +kernel
theorem witness_LarderModesAreSetAndSwitched_4 :
    Turn sw14 (mbIs 73) li ∧
    sw14.mach.core.reduced = false ∧
    sw14.mach.core.lar.lines = [] ∧
    sw14.mach.core.evictsDone = true := by
  unfold Turn SlotsOk; decide +kernel
theorem witness_CapAndSetregSetTheirRegisters_1 :
    Turn sw15 (mbIs 80) rw4 ∧
    300 ≤ rw4.field 0 2 ∧
    rw4.field 0 2 ≤ 750 := by
  unfold Turn SlotsOk; decide +kernel
theorem witness_CapAndSetregSetTheirRegisters_2 :
    Turn sw16 (mbIs 80) rw5 ∧
    (rw5.field 0 2 < 300 ∨ 750 < rw5.field 0 2) := by
  unfold Turn SlotsOk; decide +kernel
theorem witness_CapAndSetregSetTheirRegisters_3 :
    Turn sw17 (mbIs 81) rw6 ∧
    (¬(setregMask (rw6.field 0 4) = 0 ∨
        rw6.field 16 8 &&& 2 ^ 64 - 1 - setregMask (rw6.field 0 4) ≠ 0 ∨
          sw17.mach.core.setregBad (rw6.field 0 4) (BitVec.toNat (sw17.mach.core.cword (rw6.field 0 4)))
              (masked (BitVec.toNat (sw17.mach.core.cword (rw6.field 0 4))) (rw6.field 8 8)
                (rw6.field 16 8 &&& setregKeep (rw6.field 0 4))) =
            true)) := by
  unfold Turn SlotsOk; decide +kernel
theorem witness_CapAndSetregSetTheirRegisters_4 :
    Turn sw18 (mbIs 81) rw7 ∧
    (setregMask (rw7.field 0 4) = 0 ∨
      rw7.field 16 8 &&& 2 ^ 64 - 1 - setregMask (rw7.field 0 4) ≠ 0 ∨
        sw18.mach.core.setregBad (rw7.field 0 4) (BitVec.toNat (sw18.mach.core.cword (rw7.field 0 4)))
            (masked (BitVec.toNat (sw18.mach.core.cword (rw7.field 0 4))) (rw7.field 8 8)
              (rw7.field 16 8 &&& setregKeep (rw7.field 0 4))) =
          true) := by
  unfold Turn SlotsOk; decide +kernel
theorem witness_PairsAndHalvesAreOrdered_1 :
    Turn sw19 (fun (r : MbReq) => mbIs 82 r && !bit (r.byte 1) 0) rw8 ∧
    rw8.note = [] ∧
    rw8.byte 0 < 24 ∧
    sw19.mach.core.rd (R.WGH_DOMST_MODE (rw8.byte 0)) = 0 ∧
    sw19.mach.core.darkRefused (rw8.byte 0) = false := by
  unfold Turn SlotsOk; decide +kernel
theorem witness_PairsAndHalvesAreOrdered_2 :
    Turn sw20 (fun (r : MbReq) => mbIs 82 r && !bit (r.byte 1) 0) rw8 ∧
    rw8.note = [] ∧
    rw8.byte 0 < 24 ∧
    sw20.mach.core.rd (R.WGH_DOMST_MODE (rw8.byte 0)) = 0 ∧
    sw20.mach.core.darkRefused (rw8.byte 0) = true := by
  unfold Turn SlotsOk; decide +kernel
theorem witness_PairsAndHalvesAreOrdered_3 :
    Turn sw21 (fun (r : MbReq) => mbIs 82 r && bit (r.byte 1) 0) rw9 ∧
    rw9.note = [] ∧
    rw9.byte 0 < 24 ∧
    sw21.mach.core.rd (R.WGH_DOMST_MODE (rw9.byte 0)) = 2 ∧
    sw21.mach.core.disabled (2 * rw9.byte 0) = false ∧
    (sw21.mach.core.reduced && darkReduced (rw9.byte 0)) = false := by
  unfold Turn SlotsOk; decide +kernel
theorem witness_PairsAndHalvesAreOrdered_4 :
    Turn sw22 (fun (r : MbReq) => mbIs 83 r && !bit (r.byte 1) 0) rw10 ∧
    rw10.note = [] ∧
    rw10.byte 0 < 2 ∧
    sw22.mach.core.halfParked (decide (rw10.byte 0 = 1)) = false ∧
    sw22.mach.core.mayPark (rw10.byte 0) = true := by
  unfold Turn SlotsOk; decide +kernel
theorem witness_PairsAndHalvesAreOrdered_5 :
    Turn sw23 (fun (r : MbReq) => mbIs 83 r && !bit (r.byte 1) 0) rw10 ∧
    rw10.note = [] ∧
    rw10.byte 0 < 2 ∧
    sw23.mach.core.halfParked (decide (rw10.byte 0 = 1)) = false ∧
    sw23.mach.core.mayPark (rw10.byte 0) = false := by
  unfold Turn SlotsOk; decide +kernel
theorem witness_PairsAndHalvesAreOrdered_6 :
    Turn sw24 (fun (r : MbReq) => mbIs 83 r && bit (r.byte 1) 0) rw11 ∧
    rw11.note = [] ∧
    rw11.byte 0 < 2 ∧
    sw24.mach.core.halfParked (decide (rw11.byte 0 = 1)) = true := by
  unfold Turn SlotsOk; decide +kernel
end Sys2Proof.Tests.S16

namespace Sys2Proof.Tests.S17
open Sys2Proof.Tests
def at0 := mreq 3 [7]
def at1 := mreq 3 (padTo 32 [7] ++ [100,0,0,0])
def atS (r : MbReq) (rep : List Byte) := mS r (fun c => { c with hm := { c.hm with report := rep } })
def lr (o : Nat) := mreq 0x69 (toBytes 4 o)
def sn : Snap := ⟨4, 99, [⟨1,2,3,4⟩]⟩
def lrS (o : Nat) (f : Core → Core) := mS (lr o) (fun c => f (c.wr R.LDG_STATUS_LGEN 7))
def lh (off n last : Nat) := mreq 0x68 (padTo 16 (toBytes 4 off ++ toBytes 2 n ++ [BitVec.ofNat 8 last]) ++ padTo n [4,0,1,1])
def nl (c : Core) : Core := c.wr R.LDG_FP_SUMMARY_VALID 0
def bl (typ feat : Nat) := toBytes 2 typ ++ toBytes 1 feat ++ [1] ++ padTo 188 [3]
def hp (op : Nat) (b : List Byte) := mreq 0x60 (padTo 16 [BitVec.ofNat 8 op] ++ b)
def ap (c : Core) := c.wr R.CH_HMSTAT_APPLIED 1
def rp (op a b c : Nat) (rest : List Byte) := mreq 0x6A ([BitVec.ofNat 8 op, BitVec.ofNat 8 a, BitVec.ofNat 8 b, BitVec.ofNat 8 c] ++ padTo 4 [] ++ rest)
def rc0 := rp 0 0 0 0 (padTo 8 [9,9,9,9,9,9,9,9] ++ padTo 8 [255,255,255,255,255,255,255,255] ++ toBytes 8 (4*2^42+64))
def rc1 := rp 0 0 0 0 (padTo 8 [9] ++ padTo 8 [1,2] ++ toBytes 8 64)
def rt := rp 2 47 19 0 []
def gone (c : Core) : Core := c.wr (R.LDG_FP_ROW_ABSENT 47) (2^19)
def rb := rp 3 47 19 15 []
def busy (c : Core) : Core := ({ c with queues := { cmds := [{ cmd 959 0 1 [] with claims := [15*256] }] } }).twr 959 R.MEM_TIMERS_DARKTMO 100
def rst := rp 4 3 1 2 []
def onlyOne (c : Core) : Core := (List.range 16).foldl (fun (c : Core) s => c.setSst 3 1 s (if s = 2 then 2 else 4)) (c.wr R.STG_STRAP_WARD 3)
def rsl := rp 5 95 0 0 []
def cs (ret : Nat) : State := up ((base.wr R.STG_STATUS_STAGE 3).wr R.CH_CORES_RETIRED ret |>.wr R.CH_CORES_SPARE 2)
def sw1 : State := atS at0 []
def sw2 : State := atS at1 []
def sw3 : State := atS at1 (padTo 16 [] ++ padTo 32 [7] ++ padTo 400 [9])
def sw4 : State := lrS 0 (fun c => { c with led := { c.led with entries := [⟨1,2,3,4⟩] } })
def sw5 : State := lrS 20 (fun c => { c with led := { c.led with snap := some sn } })
def rw1 : MbReq := lr 0
def rw2 : MbReq := lr 20
def sw6 : State := mS (lh 0 100 0) nl
def sw7 : State := mS (lh 0 100 1) nl
def sw8 : State := mS (lh 0 100 1) id
def rw3 : MbReq := lh 0 100 0
def rw4 : MbReq := lh 0 100 1
def sw9 : State := mS (hp 0 (bl 5 4)) id
def sw10 : State := mS (hp 0 (bl 5 4)) ap
def sw11 : State := mS (hp 0 (bl 4 4)) id
def rw5 : MbReq := hp 0 (bl 5 4)
def rw6 : MbReq := hp 0 (bl 4 4)
def sw12 : State := mS (hp 1 []) (fun c => { c with hm := { c.hm with slots := [(2,[3])] } })
def sw13 : State := mS (hp 1 []) ap
def rw7 : MbReq := hp 1 []
def sw14 : State := mS (hp 2 (bl 5 0)) id
def rw8 : MbReq := hp 2 (bl 5 0)
def sw15 : State := mS rc0 id
def sw16 : State := mS rc1 id
def sw17 : State := mS rt id
def sw18 : State := mS rt gone
def sw19 : State := mS rb id
def sw20 : State := mS rb busy
def sw21 : State := mS rst id
def sw22 : State := mS rst onlyOne
def sw23 : State := mS rsl id
def sw24 : State := mS (rp 1 0 0 0 []) id
def sw25 : State := mS (rp 1 0 0 0 []) (fun c => c.wr R.CH_BELLSTEP_STATE 1)
def rw9 : MbReq := rp 1 0 0 0 []
def sw26 : State := cs 0
def sw27 : State := cs 6
theorem witness_InformationAndHistoryAreExchanged_3 :
    Turn sw1 (mbIs 3) at0 ∧
    at0.field 32 4 = 0 := by
  unfold Turn SlotsOk; decide +kernel
theorem witness_InformationAndHistoryAreExchanged_4 :
    Turn sw2 (mbIs 3) at1 ∧
    at1.field 32 4 ≠ 0 ∧
    (sw2.mach.core.hm.report = [] ∨ List.take 32 (List.drop 16 sw2.mach.core.hm.report) ≠ padTo 32 at1.body) := by
  unfold Turn SlotsOk; decide +kernel
theorem witness_InformationAndHistoryAreExchanged_5 :
    Turn sw3 (mbIs 3) at1 ∧
    at1.field 32 4 ≠ 0 ∧
    sw3.mach.core.hm.report ≠ [] ∧
    List.take 32 (List.drop 16 sw3.mach.core.hm.report) = padTo 32 at1.body := by
  unfold Turn SlotsOk; decide +kernel
theorem witness_InformationAndHistoryAreExchanged_6 :
    Turn sw4 (mbIs 105) rw1 ∧
    rw1.field 0 4 = 0 := by
  unfold Turn SlotsOk; decide +kernel
theorem witness_InformationAndHistoryAreExchanged_7 :
    Turn sw5 (mbIs 105) rw2 ∧
    rw2.field 0 4 ≠ 0 ∧
    sw5.mach.core.led.snap = some sn := by
  unfold Turn SlotsOk; decide +kernel
theorem witness_InformationAndHistoryAreExchanged_8 :
    Turn sw6 (mbIs 104) rw3 ∧
    (¬(sw6.mach.core.rd R.STG_STATUS_PASSL = 1 ∨ sw6.mach.core.rd R.LDG_FP_SUMMARY_VALID = 1)) ∧
    rw3.byte 6 = 0 := by
  unfold Turn SlotsOk; decide +kernel
theorem witness_InformationAndHistoryAreExchanged_9 :
    Turn sw7 (mbIs 104) rw4 ∧
    (¬(sw7.mach.core.rd R.STG_STATUS_PASSL = 1 ∨ sw7.mach.core.rd R.LDG_FP_SUMMARY_VALID = 1)) ∧
    rw4.byte 6 ≠ 0 ∧
    (decide
          (coveredTo (sw7.mach.core.led.got ++ [(rw4.field 0 4, rw4.field 4 2)])
              (sw7.mach.core.led.got ++ [(rw4.field 0 4, rw4.field 4 2)]).length 0 =
            presentedEnd (sw7.mach.core.led.got ++ [(rw4.field 0 4, rw4.field 4 2)])) &&
        sw7.fuses.historyGood
          ((sw7.mach.write (historyBase + rw4.field 0 4) (rw4.data (rw4.field 4 2))).read historyBase
            (presentedEnd (sw7.mach.core.led.got ++ [(rw4.field 0 4, rw4.field 4 2)])))) =
      false := by
  unfold Turn SlotsOk; decide +kernel
theorem witness_InformationAndHistoryAreExchanged_10 :
    Turn sw8 (mbIs 104) rw4 ∧
    (sw8.mach.core.rd R.STG_STATUS_PASSL = 1 ∨ sw8.mach.core.rd R.LDG_FP_SUMMARY_VALID = 1) := by
  unfold Turn SlotsOk; decide +kernel
theorem witness_HallmarksArePresentedClearedAndAdvanced_1 :
    Turn sw9 (mbHallmark 0) rw5 ∧
    rw5.hallmarkForm = none ∧
    sw9.mach.core.rd R.CH_HMSTAT_APPLIED = 0 := by
  unfold Turn SlotsOk; decide +kernel
theorem witness_HallmarksArePresentedClearedAndAdvanced_2 :
    Turn sw10 (mbHallmark 0) rw5 ∧
    rw5.hallmarkForm = none ∧
    sw10.mach.core.rd R.CH_HMSTAT_APPLIED = 1 := by
  unfold Turn SlotsOk; decide +kernel
theorem witness_HallmarksArePresentedClearedAndAdvanced_3 :
    Turn sw11 (mbHallmark 0) rw6 ∧
    rw6.hallmarkForm = some 48 := by
  unfold Turn SlotsOk; decide +kernel
theorem witness_HallmarksArePresentedClearedAndAdvanced_4 :
    Turn sw12 (mbHallmark 1) rw7 ∧
    rw7.hallmarkForm = none ∧
    sw12.mach.core.rd R.CH_HMSTAT_APPLIED = 0 := by
  unfold Turn SlotsOk; decide +kernel
theorem witness_HallmarksArePresentedClearedAndAdvanced_5 :
    Turn sw13 (mbHallmark 1) rw7 ∧
    rw7.hallmarkForm = none ∧
    sw13.mach.core.rd R.CH_HMSTAT_APPLIED = 1 := by
  unfold Turn SlotsOk; decide +kernel
theorem witness_HallmarksArePresentedClearedAndAdvanced_6 :
    Turn sw14 (mbHallmark 2) rw8 ∧
    rw8.hallmarkForm = none ∧
    sw14.fuses.noticeGood rw8.blob = false := by
  unfold Turn SlotsOk; decide +kernel
theorem witness_RepairsAndRebuildsAreCarriedOut_1 :
    Turn sw15 (mbRepair 0) rc0 ∧
    sw15.mach.core.rescueOk (rc0.field 24 8) = true := by
  unfold Turn SlotsOk; decide +kernel
theorem witness_RepairsAndRebuildsAreCarriedOut_2 :
    Turn sw16 (mbRepair 0) rc1 ∧
    sw16.mach.core.rescueOk (rc1.field 24 8) = false := by
  unfold Turn SlotsOk; decide +kernel
theorem witness_RepairsAndRebuildsAreCarriedOut_3 :
    Turn sw17 (mbRepair 2) rt ∧
    rt.byte 1 < 48 ∧
    rt.byte 2 < 20 ∧
    sw17.mach.core.present (20 * rt.byte 1 + rt.byte 2) = true := by
  unfold Turn SlotsOk; decide +kernel
theorem witness_RepairsAndRebuildsAreCarriedOut_4 :
    Turn sw18 (mbRepair 2) rt ∧
    rt.byte 1 < 48 ∧
    rt.byte 2 < 20 ∧
    sw18.mach.core.present (20 * rt.byte 1 + rt.byte 2) = false := by
  unfold Turn SlotsOk; decide +kernel
theorem witness_RepairsAndRebuildsAreCarriedOut_5 :
    Turn sw19 (mbRepair 3) rb ∧
    rb.note = [] ∧
    rb.byte 1 < 48 ∧
    rb.byte 2 < 20 ∧
    rb.byte 3 < 16 ∧
    sw19.mach.core.present (20 * rb.byte 1 + rb.byte 2) = true ∧
    sw19.mach.core.bankRetired (20 * rb.byte 1 + rb.byte 2) (rb.byte 3) = false ∧
    sw19.mach.core.bankQuiet (20 * rb.byte 1 + rb.byte 2) (rb.byte 3) = true := by
  unfold Turn SlotsOk; decide +kernel
theorem witness_RepairsAndRebuildsAreCarriedOut_6 :
    Turn sw20 (mbRepair 3) rb ∧
    rb.note = [] ∧
    rb.byte 1 < 48 ∧
    rb.byte 2 < 20 ∧
    rb.byte 3 < 16 ∧
    sw20.mach.core.present (20 * rb.byte 1 + rb.byte 2) = true ∧
    sw20.mach.core.bankRetired (20 * rb.byte 1 + rb.byte 2) (rb.byte 3) = false ∧
    sw20.mach.core.bankQuiet (20 * rb.byte 1 + rb.byte 2) (rb.byte 3) = false ∧
    sw20.mach.core.trd (20 * rb.byte 1 + rb.byte 2) R.MEM_TIMERS_DARKTMO ≠ 0 ∧
    (∀ x ∈ sw20.mach.core.led.retiring,
      x.tile = 20 * rb.byte 1 + rb.byte 2 →
        x.bank = rb.byte 3 → sw20.mach.core.now - x.since < sw20.mach.core.trd (20 * rb.byte 1 + rb.byte 2) R.MEM_TIMERS_DARKTMO) := by
  unfold Turn SlotsOk; decide +kernel
theorem witness_RepairsAndRebuildsAreCarriedOut_7 :
    Turn sw21 (mbRepair 4) rst ∧
    isStrand (rst.byte 1) (rst.byte 3) = true ∧
    rst.byte 2 < 2 ∧
    (¬(rst.byte 1 = sw21.mach.core.rd R.STG_STRAP_WARD ∧ sw21.mach.core.usables (rst.byte 1) (rst.byte 2) = [rst.byte 3])) := by
  unfold Turn SlotsOk; decide +kernel
theorem witness_RepairsAndRebuildsAreCarriedOut_8 :
    Turn sw22 (mbRepair 4) rst ∧
    isStrand (rst.byte 1) (rst.byte 3) = true ∧
    rst.byte 2 < 2 ∧
    rst.byte 1 = sw22.mach.core.rd R.STG_STRAP_WARD ∧
    sw22.mach.core.usables (rst.byte 1) (rst.byte 2) = [rst.byte 3] := by
  unfold Turn SlotsOk; decide +kernel
theorem witness_RepairsAndRebuildsAreCarriedOut_9 :
    Turn sw23 (mbRepair 5) rsl ∧
    rsl.byte 1 < 96 ∧
    sw23.mach.core.slicePresent (rsl.byte 1) = true := by
  unfold Turn SlotsOk; decide +kernel
theorem witness_RepairsAndRebuildsAreCarriedOut_10 :
    Turn sw24 (mbRepair 1) rw9 ∧
    rw9.note = [] ∧
    (sw24.mach.core.rd R.CH_BELLSTEP_STATE = 0 ∧
      sw24.mach.core.allIdle = true ∧ sw24.mach.core.moved.any sw24.mach.core.coversRetired = false) ∧
    (∀ t ∈ sw24.mach.core.moved, sw24.mach.core.present t = true → sw24.mach.errorLines t = []) ∧
    (∀ w < 1024, sw24.mach.core.rd (R.LAR_WIN_OPEN w) = 1 → sw24.mach.core.winUnit w ∉ sw24.mach.core.moved) := by
  unfold Turn SlotsOk; decide +kernel
theorem witness_RepairsAndRebuildsAreCarriedOut_11 :
    Turn sw25 (mbRepair 1) rw9 ∧
    rw9.note = [] ∧
    (¬(sw25.mach.core.rd R.CH_BELLSTEP_STATE = 0 ∧
        sw25.mach.core.allIdle = true ∧ sw25.mach.core.moved.any sw25.mach.core.coversRetired = false)) := by
  unfold Turn SlotsOk; decide +kernel
theorem witness_CoresAreSwappedAndTested_1 :
    sw26.live = true ∧
    sw26.mach.core.rd R.STG_STATUS_STAGE ≠ 0 ∧
    2 ≤ sw26.mach.core.coresLeft ∧
    (∀ n < 3, sw26.mach.core.ledgerFull { kind := 9, unit := n } = false) := by
  decide +kernel
theorem witness_CoresAreSwappedAndTested_2 :
    sw26.live = true := by
  decide +kernel
theorem witness_CoresAreSwappedAndTested_3 :
    sw26.live = true ∧
    sw26.mach.core.rd R.STG_STATUS_STAGE ≠ 0 ∧
    sw26.mach.core.rd R.CH_CORES_SPARE < 3 := by
  decide +kernel
theorem witness_CoresAreSwappedAndTested_4 :
    sw27.live = true ∧
    (sw27.mach.core.rd R.STG_STATUS_STAGE = 0 ∨ sw27.mach.core.coresLeft < 2) := by
  decide +kernel
end Sys2Proof.Tests.S17

namespace Sys2Proof.Tests.S18
open Sys2Proof.Tests
def st (tgt b1 : Nat) := mreq 0x10 [BitVec.ofNat 8 tgt, BitVec.ofNat 8 b1]
def stg (n : Nat) (c : Core) : Core := (((((c.wr R.STG_STATUS_STAGE n).wr R.STG_STATUS_FULL 0).wr R.LDG_FP_SUMMARY_VALID (if n < 4 then 0 else 1)).wr R.STG_STATUS_PASSU (if n < 4 then 0 else 1)).wr R.STG_STATUS_PASSL (if n < 4 then 0 else 1)).wr R.TMB_STATUS_CAL_VALID 1
def so : StageObs := { low := { tiles := [(3,4)], banks := [(5,6,7),(5,6,8),(5,6,9)], repairs := [(3, 70, 2)], slices := [4] }, high := { tiles := [(47,20),(3,0)], banks := [(9,9,9)], slices := [95,3] }, rates := List.replicate 29 (2000,2200,2400,50) }
def ss (r : MbReq) (n : Nat) (f : Core → Core := id) := mS r (fun c => f (stg n c))
def rs (n : Nat) : State := up ((stg n base).wr R.STG_STATUS_RSVC 1 |>.wr R.STG_STATUS_PASSU 0 |>.wr R.STG_STATUS_PASSL 1 |>.wr R.LDG_FP_SUMMARY_VALID 1)
def pu (f : Core → Core) (c : Core) := f ((c.wr R.STG_STATUS_PASSU 1).wr R.CH_CRCTL_SLICE 95)
def pw (cmd kind off n : Nat) := mreq cmd (padTo 16 ([BitVec.ofNat 8 kind,3,0,0] ++ toBytes 4 off ++ toBytes 2 n) ++ padTo n [1,2,3,4])
def ps (cmd kind off n : Nat) (f : Core → Core := id) := mS (pw cmd kind off n) (pu f)
def sw1 : State := ss (st 1 0) 0
def sw2 : State := ss (st 1 0) 3
def rw1 : MbReq := st 1 0
def sw3 : State := ss (st 3 0) 2
def rw2 : MbReq := st 3 0
def sw4 : State := rs 2
def sw5 : State := ps 0x22 0 4000 256
def sw6 : State := ps 0x22 0 4001 256
def sw7 : State := ps 0x22 1 0 100 (fun c => c.wr R.STG_STATUS_PASSU 0)
def rw3 : MbReq := pw 0x22 0 4000 256
def rw4 : MbReq := pw 0x22 0 4001 256
def rw5 : MbReq := pw 0x22 1 0 100
theorem witness_StagesAreReachedAndFollow_1 :
    Turn sw1 (fun (r : MbReq) => mbIs 16 r && (sw1.mach.core.stageFree || decide (r.byte 0 < 4))) rw1 ∧
    rw1.note = [] ∧
    sw1.mach.core.stageCheck (rw1.byte 0) (bit (rw1.byte 1) 0) = none ∧
    rw1.byte 0 = 1 ∧
    sw1.mach.core.rd R.CH_CORES_RETIRED = 0 ∧
    (∀ n < 3, bit so.cores n = true) := by
  unfold Turn SlotsOk; decide +kernel
theorem witness_StagesAreReachedAndFollow_2 :
    Turn sw2 (fun (r : MbReq) => mbIs 16 r && (sw2.mach.core.stageFree || decide (r.byte 0 < 4))) rw1 ∧
    rw1.note = [] ∧
    sw2.mach.core.stageCheck (rw1.byte 0) (bit (rw1.byte 1) 0) = some (stOK, 0) := by
  unfold Turn SlotsOk; decide +kernel
theorem witness_StagesAreReachedAndFollow_3 :
    Turn sw3 (fun (r : MbReq) => mbIs 16 r && (sw3.mach.core.stageFree || decide (r.byte 0 < 4))) rw2 ∧
    rw2.note = [] ∧
    sw3.mach.core.stageCheck (rw2.byte 0) (bit (rw2.byte 1) 0) = none ∧
    rw2.byte 0 = 3 ∧
    sw3.mach.core.rd R.STG_STATUS_STAGE = 2 ∧
    sw3.mach.core.rd R.STG_STATUS_PASSL = 0 ∧
    sw3.mach.core.rd R.LDG_ALERT_DEVF = 0 ∧
    so.low.storeFail = false := by
  unfold Turn SlotsOk; decide +kernel
theorem witness_StagesAreReachedAndFollow_4 :
    sw4.live = true ∧
    (sw4.mach.core.rd R.STG_STATUS_RSVC ≠ 1 ∨
      sw4.mach.core.rd R.STG_STATUS_PASSU = 1 ∨ sw4.mach.core.rd R.STG_STATUS_BUSY = 0) := by
  decide +kernel
theorem witness_PiecesAreStagedAndCriesBegin_1 :
    Turn sw5 (fun (r : MbReq) => mbIs 34 r && decide (r.byte 0 ≠ 2)) rw3 ∧
    sw5.mach.core.stageRefused = none ∧
    (¬(if decide (rw3.byte 0 = 1) = true then 262144 else 4256) < rw3.field 4 4 + rw3.field 8 2) ∧
    (∀ (l : Nat), sw5.mach.lineErrs (sliceLineId sw5.mach.core.crier l) = []) := by
  refine ⟨?_, ?_, ?_, ?_⟩ <;> first | exact eq_ok (by decide +kernel) | exact fun _ => rfl | decide +kernel | (unfold Turn SlotsOk; decide +kernel)
theorem witness_PiecesAreStagedAndCriesBegin_2 :
    Turn sw6 (fun (r : MbReq) => mbIs 34 r && decide (r.byte 0 ≠ 2)) rw4 ∧
    sw6.mach.core.stageRefused = none ∧
    (if decide (rw4.byte 0 = 1) = true then 262144 else 4256) < rw4.field 4 4 + rw4.field 8 2 := by
  unfold Turn SlotsOk; decide +kernel
theorem witness_PiecesAreStagedAndCriesBegin_3 :
    Turn sw7 (fun (r : MbReq) => mbIs 34 r && decide (r.byte 0 ≠ 2)) rw5 ∧
    sw7.mach.core.stageRefused = some 2 := by
  unfold Turn SlotsOk; decide +kernel
end Sys2Proof.Tests.S18

namespace Sys2Proof.Tests.S19
open Sys2Proof.Tests
def cr (hops : Nat) := mreq 0x21 [BitVec.ofNat 8 hops]
def cr2 (hops : Nat) := mreq 0x22 [2, BitVec.ofNat 8 hops]
def few (c : Core) : Core := (((List.range 48).foldl (fun (c : Core) i => c.wr (R.LDG_FP_ROW_ABSENT i) (if i = 40 then 2^20 - 2 else 2^20 - 1)) c).wr R.STG_STATUS_PASSU 1).wr R.CH_CRCTL_SLICE 95
def man : List Byte := padTo 224 [3,0,1,0]
def cryS (x : CrySt) (f : Core → Core) : State := up (f ({ base with cry := x }.wr R.CH_CRCTL_SLICE 95))
def cr0 : CrySt := { manifest := man, targets := [0, 5, 959], ended := false, own := true }
def stS (hops : Nat) (f : Core → Core) := cryS { cr0 with msgs := [(.start, 0)], hops := hops, settled := [(0, .verified), (5, .oos)] } f
def act (c : Core) : Core := c.wr (R.PRT_STATE_STATE 5) 2
def wt := { kind := 0, offset := 0, len := 256, tag := 77 : RelayPiece }
def ra (st : Nat) : Arrival := { id := 4, unit := unitSeam, pkt := { typ := 8, payload := padTo 64 ([0x22,0,BitVec.ofNat 8 st,0] ++ toBytes 4 77) } }
def rlS (a : Arrival) (w : Option RelayPiece) (ps : List RelayPiece) := cryS { cr0 with waiting := w, relay := ps, hops := 1 } (fun c => act { c with net := { arr := [a] } })
def k2 : RelayPiece := { kind := 2, offset := 0, len := 0 }
def sw1 : State := mS (cr 3) few
def sw2 : State := mS (cr 3) (fun c => (few c).wr R.CH_BELLSTEP_STATE 1)
def rw1 : MbReq := cr 3
def sw3 : State := mS (cr2 3) few
def sw4 : State := mS (cr2 3) (fun c => (few c).wr R.CH_BELLSTEP_STATE 1)
def rw2 : MbReq := cr2 3
def sw5 : State := cryS { cr0 with msgs := [(.report, 5), (.report, 959)] } id
def sw6 : State := cryS { cr0 with msgs := [(.repair, 5)] } id
def sw7 : State := cryS { cr0 with recs := [⟨0,1,true,3⟩, ⟨5,1,false,3⟩, ⟨959,0,true,3⟩] } (fun c => c.wr R.CH_CRSTAT_ROUND 3)
def sw8 : State := stS 0 id
def sw9 : State := stS 2 id
def sw10 : State := stS 2 act
def sw11 : State := rlS (ra 0) (some wt) []
def sw12 : State := rlS (ra 3) (some wt) [k2]
def sw13 : State := rlS (ra 0) (some wt) [k2]
def sw14 : State := rlS (ra 0) none []
def aw1 : Arrival := ra 0
def aw2 : Arrival := ra 3
def psw1 : List RelayPiece := []
theorem witness_PiecesAreStagedAndCriesBegin_4 :
    rw1.note = [] ∧
    Turn sw1 (mbIs 33) rw1 ∧
    (sw1.mach.core.rd R.CH_BELLSTEP_STATE = 0 ∧ sw1.mach.core.cryTargets.all sw1.mach.core.unitIdle = true) ∧
    (sw1.mach.cry sw1.fuses false false sw1.mach.core.cryTargets (rw1.byte 0 % 16)).2 = false := by
  unfold Turn SlotsOk; decide +kernel
theorem witness_PiecesAreStagedAndCriesBegin_5 :
    rw1.note = [] ∧
    Turn sw2 (mbIs 33) rw1 ∧
    (¬(sw2.mach.core.rd R.CH_BELLSTEP_STATE = 0 ∧ sw2.mach.core.cryTargets.all sw2.mach.core.unitIdle = true)) := by
  unfold Turn SlotsOk; decide +kernel
theorem witness_PiecesAreStagedAndCriesBegin_6 :
    rw2.note = [] ∧
    Turn sw3 (fun (r : MbReq) => mbIs 34 r && decide (r.byte 0 = 2)) rw2 ∧
    (sw3.mach.core.rd R.CH_BELLSTEP_STATE = 0 ∧ sw3.mach.core.cryTargets.all sw3.mach.core.unitIdle = true) ∧
    (sw3.mach.cry sw3.fuses false false sw3.mach.core.cryTargets (rw2.byte 1 % 16)).2 = false := by
  unfold Turn SlotsOk; decide +kernel
theorem witness_PiecesAreStagedAndCriesBegin_7 :
    rw2.note = [] ∧
    Turn sw4 (fun (r : MbReq) => mbIs 34 r && decide (r.byte 0 = 2)) rw2 ∧
    (¬(sw4.mach.core.rd R.CH_BELLSTEP_STATE = 0 ∧ sw4.mach.core.cryTargets.all sw4.mach.core.unitIdle = true)) := by
  unfold Turn SlotsOk; decide +kernel
theorem witness_BroadcastsAreCollectedStartedAndRelayed_1 :
    sw5.live = true ∧
    959 < 960 ∧
    sw5.mach.core.present 959 = true ∧
    sw5.mach.core.tileDark 959 = false ∧
    sw5.mach.core.cry.msgs.contains (CryKind.report, 959) = true ∧
    sw5.mach.core.broadcastOver 959 = true := by
  decide +kernel
theorem witness_BroadcastsAreCollectedStartedAndRelayed_2 :
    sw6.live = true ∧
    5 < 960 ∧
    sw6.mach.core.present 5 = true ∧
    sw6.mach.core.tileDark 5 = false ∧
    sw6.mach.core.cry.msgs.contains (CryKind.repair, 5) = true := by
  decide +kernel
theorem witness_BroadcastsAreCollectedStartedAndRelayed_3 :
    sw7.live = true ∧
    sw7.mach.core.cry.ended = false ∧
    sw7.mach.core.cry.msgs.contains (CryKind.start, 0) = false ∧
    sw7.mach.core.rd R.CH_CRSTAT_STATE ≠ 5 ∧
    sw7.mach.core.collected = true ∧
    959 ∈ sw7.mach.core.unsettled := by
  decide +kernel
theorem witness_BroadcastsAreCollectedStartedAndRelayed_4 :
    sw8.live = true ∧
    sw8.mach.core.cry.msgs.contains (CryKind.start, 0) = true ∧
    sw8.mach.core.cry.hops = 0 := by
  decide +kernel
theorem witness_BroadcastsAreCollectedStartedAndRelayed_5 :
    sw9.live = true ∧
    sw9.mach.core.cry.msgs.contains (CryKind.start, 0) = true ∧
    sw9.mach.core.cry.hops ≠ 0 ∧
    sw9.mach.core.downActive = false := by
  decide +kernel
theorem witness_BroadcastsAreCollectedStartedAndRelayed_6 :
    sw10.live = true ∧
    sw10.mach.core.cry.msgs.contains (CryKind.start, 0) = true ∧
    sw10.mach.core.cry.hops ≠ 0 ∧
    sw10.mach.core.downActive = true := by
  decide +kernel
theorem witness_BroadcastsAreCollectedStartedAndRelayed_7 :
    sw11.live = true ∧
    sw11.mach.core.arrOf 0 8 unitSeam = some aw1 ∧
    sw11.mach.core.answersPiece aw1 = true ∧
    leAt aw1.pkt.payload 2 1 % 16 = stOK ∧
    sw11.mach.core.cry.relay = [] := by
  decide +kernel
theorem witness_BroadcastsAreCollectedStartedAndRelayed_8 :
    sw12.live = true ∧
    sw12.mach.core.arrOf 0 8 unitSeam = some aw2 ∧
    sw12.mach.core.answersPiece aw2 = true ∧
    leAt aw2.pkt.payload 2 1 % 16 ≠ stOK := by
  decide +kernel
theorem witness_BroadcastsAreCollectedStartedAndRelayed_9 :
    sw13.live = true ∧
    sw13.mach.core.arrOf 0 8 unitSeam = some aw1 ∧
    sw13.mach.core.answersPiece aw1 = true ∧
    leAt aw1.pkt.payload 2 1 % 16 = stOK ∧
    sw13.mach.core.cry.relay = k2 :: psw1 ∧
    k2.kind ≠ 1 ∧
    sw13.mach.core.downActive = true := by
  decide +kernel
theorem witness_BroadcastsAreCollectedStartedAndRelayed_10 :
    sw14.live = true ∧
    sw14.mach.core.arrOf 0 8 unitSeam = some aw1 ∧
    sw14.mach.core.answersPiece aw1 = false := by
  decide +kernel
end Sys2Proof.Tests.S19

namespace Sys2Proof.Tests.S21
open Sys2Proof.Tests
def m64 : Nat := 2^64-1
def rq (blk ofs val mask : Nat) := cmd 0 7 4 [(64,blk),(68,ofs),(128,val),(192,mask)]
def w (s c m v : Nat) : Nat := fldVal (R.MEM_RGN_START 0) s + fldVal (R.MEM_RGN_COUNT 0) c + fldVal (R.MEM_RGN_MODE 0) m + fldVal (R.MEM_RGN_VALID 0) v
def rg (n val : Nat) := rq 0 (0x100+8*n) val m64
def qa (n : Nat) := cmd 0 7 3 [(64,2),(68,n)]
def ti (u q : Nat) := cmd u q 2 [(64,63),(70,0xFFFFF),(90,1)]
def rp (op a b c : Nat) (rest : List Byte) := mreq 0x6A ([BitVec.ofNat 8 op, BitVec.ofNat 8 a, BitVec.ofNat 8 b, BitVec.ofNat 8 c] ++ padTo 4 [] ++ rest)
def sw1 : State := onc (rg 15 (w 0 64 2 1)) (tested 0)
def xw1 : Cmd := rg 15 (w 0 64 2 1)
def sw2 : State := onc (rg 2 (w 0 4 2 1)) (fun c => region 0 2 0 4 1 0 (tested 0 c))
def xw2 : Cmd := rg 2 (w 0 4 2 1)
def sw3 : State := onc (rg 2 (w 0 4 2 0)) (fun c => region 0 2 0 4 2 0 (tested 0 c))
def xw3 : Cmd := rg 2 (w 0 4 2 0)
def sw4 : State := onc (rg 2 (w 0 4 2 1)) (fun c => region 0 2 0 4 0 0 (tested 0 c))
def sw5 : State := onc (rg 2 (w 0 4 0 1)) (fun c => region 0 2 0 4 1 0 (tested 0 c))
def xw4 : Cmd := rg 2 (w 0 4 2 1)
def xw5 : Cmd := rg 2 (w 0 4 0 1)
def sw6 : State := onc (qa 5) (fun c => ((c.qset 0 2 0 (R.SEQ_QRING_RLEN 0) 4).qset 0 2 0 (R.SEQ_QRING_PI 0) 65535).qset 0 2 1 (R.SEQ_QSTAT_CI 0) 0)
def sw7 : State := onc (qa 6) (fun c => (c.qset 0 2 0 (R.SEQ_QRING_RLEN 0) 4).qset 0 2 0 (R.SEQ_QRING_PI 0) 65535)
def xw6 : Cmd := qa 5
def xw7 : Cmd := qa 6
def sw8 : State := onc (ti 959 7) (fun c => c.tallyPut 959 63 1 false false)
def xw8 : Cmd := ti 959 7
def sw9 : State := onc (ti 959 7) (fun c => c.tallyPut 959 63 1 false false)
def xw9 : Cmd := ti 959 7
def tw1 : State := after (exec (.tinc 959 7 0) (onc (ti 959 7) (fun c => c.tallyPut 959 63 1 false false)))
def sw10 : State := mS (rp 5 95 0 0 []) (fun c => c.wr (R.LDG_FP_SLICEMAP_ABSENT 11 7) 1)
def rw1 : MbReq := rp 5 95 0 0 []
def sw11 : State := up base
def sw12 : State := up base
def sw13 : State := { up base with tap := { tck := true, tap := .upIr, irShift := 0x21 }, fuses := { locked := false } }
def xw10 : Instr × Nat := (.scan, 0x30)
theorem witness_RegionsChangeModeAndSettle_7 :
    0 < 960 ∧
    15 < 16 ∧
    Runs sw1 0 7 0 4 xw1 ∧
    rwBlk xw1.word = 0 ∧
    rwOfs xw1.word = 256 + 8 * 15 ∧
    xw1.committed = false ∧
    (sw1.mach.core.rd (R.WGH_DOMST_MODE (0 / 20 / 2)) ≠ 1 ∧ sw1.mach.core.rd (R.WGH_DOMST_MODE (0 / 20 / 2)) ≠ 2) ∧
    sw1.mach.core.rgnIgnored 0 15 (BitVec.toNat (sw1.mach.core.tword 0 (4352 + 8 * 15)))
        (masked (BitVec.toNat (sw1.mach.core.tword 0 (4352 + 8 * 15))) (rwValue xw1.word) (rwBits xw1.word))
        (decide (rwBits xw1.word &&& 49152 ≠ 0)) =
      false ∧
    decide (rgnField (BitVec.toNat (sw1.mach.core.tword 0 (4352 + 8 * 15))) R.MEM_RGN_VALID = 1) = false ∧
    decide
        (rgnField (masked (BitVec.toNat (sw1.mach.core.tword 0 (4352 + 8 * 15))) (rwValue xw1.word) (rwBits xw1.word))
            R.MEM_RGN_VALID =
          1) =
      true := by
  unfold Runs; decide +kernel
theorem witness_RegionsChangeModeAndSettle_8 :
    0 < 960 ∧
    2 < 16 ∧
    Runs sw2 0 7 0 4 xw2 ∧
    rwBlk xw2.word = 0 ∧
    rwOfs xw2.word = 256 + 8 * 2 ∧
    xw2.committed = false ∧
    (sw2.mach.core.rd (R.WGH_DOMST_MODE (0 / 20 / 2)) ≠ 1 ∧ sw2.mach.core.rd (R.WGH_DOMST_MODE (0 / 20 / 2)) ≠ 2) ∧
    sw2.mach.core.rgnIgnored 0 2 (BitVec.toNat (sw2.mach.core.tword 0 (4352 + 8 * 2)))
        (masked (BitVec.toNat (sw2.mach.core.tword 0 (4352 + 8 * 2))) (rwValue xw2.word) (rwBits xw2.word))
        (decide (rwBits xw2.word &&& 49152 ≠ 0)) =
      false ∧
    decide (rgnField (BitVec.toNat (sw2.mach.core.tword 0 (4352 + 8 * 2))) R.MEM_RGN_VALID = 1) = true ∧
    decide
        (rgnField (masked (BitVec.toNat (sw2.mach.core.tword 0 (4352 + 8 * 2))) (rwValue xw2.word) (rwBits xw2.word))
            R.MEM_RGN_VALID =
          1) =
      true ∧
    rgnField (BitVec.toNat (sw2.mach.core.tword 0 (4352 + 8 * 2))) R.MEM_RGN_MODE ≠ 0 ∧
    rgnField (masked (BitVec.toNat (sw2.mach.core.tword 0 (4352 + 8 * 2))) (rwValue xw2.word) (rwBits xw2.word))
        R.MEM_RGN_MODE ≠
      0 ∧
    rgnField (BitVec.toNat (sw2.mach.core.tword 0 (4352 + 8 * 2))) R.MEM_RGN_MODE ≠
      rgnField (masked (BitVec.toNat (sw2.mach.core.tword 0 (4352 + 8 * 2))) (rwValue xw2.word) (rwBits xw2.word))
        R.MEM_RGN_MODE := by
  unfold Runs; decide +kernel
theorem witness_RegionsChangeModeAndSettle_9 :
    0 < 960 ∧
    2 < 16 ∧
    Runs sw3 0 7 0 4 xw3 ∧
    rwBlk xw3.word = 0 ∧
    rwOfs xw3.word = 256 + 8 * 2 ∧
    xw3.committed = false ∧
    (sw3.mach.core.rd (R.WGH_DOMST_MODE (0 / 20 / 2)) ≠ 1 ∧ sw3.mach.core.rd (R.WGH_DOMST_MODE (0 / 20 / 2)) ≠ 2) ∧
    sw3.mach.core.rgnIgnored 0 2 (BitVec.toNat (sw3.mach.core.tword 0 (4352 + 8 * 2)))
        (masked (BitVec.toNat (sw3.mach.core.tword 0 (4352 + 8 * 2))) (rwValue xw3.word) (rwBits xw3.word))
        (decide (rwBits xw3.word &&& 49152 ≠ 0)) =
      false ∧
    decide (rgnField (BitVec.toNat (sw3.mach.core.tword 0 (4352 + 8 * 2))) R.MEM_RGN_VALID = 1) = true ∧
    decide
        (rgnField (masked (BitVec.toNat (sw3.mach.core.tword 0 (4352 + 8 * 2))) (rwValue xw3.word) (rwBits xw3.word))
            R.MEM_RGN_VALID =
          1) =
      false := by
  unfold Runs; decide +kernel
theorem witness_RegionsChangeModeAndSettle_10 :
    0 < 960 ∧
    2 < 16 ∧
    Runs sw4 0 7 0 4 xw4 ∧
    rwBlk xw4.word = 0 ∧
    rwOfs xw4.word = 256 + 8 * 2 ∧
    xw4.committed = false ∧
    (sw4.mach.core.rd (R.WGH_DOMST_MODE (0 / 20 / 2)) ≠ 1 ∧ sw4.mach.core.rd (R.WGH_DOMST_MODE (0 / 20 / 2)) ≠ 2) ∧
    sw4.mach.core.rgnIgnored 0 2 (BitVec.toNat (sw4.mach.core.tword 0 (4352 + 8 * 2)))
        (masked (BitVec.toNat (sw4.mach.core.tword 0 (4352 + 8 * 2))) (rwValue xw4.word) (rwBits xw4.word))
        (decide (rwBits xw4.word &&& 49152 ≠ 0)) =
      false ∧
    decide (rgnField (BitVec.toNat (sw4.mach.core.tword 0 (4352 + 8 * 2))) R.MEM_RGN_VALID = 1) = true ∧
    decide
        (rgnField (masked (BitVec.toNat (sw4.mach.core.tword 0 (4352 + 8 * 2))) (rwValue xw4.word) (rwBits xw4.word))
            R.MEM_RGN_VALID =
          1) =
      true ∧
    rgnField (BitVec.toNat (sw4.mach.core.tword 0 (4352 + 8 * 2))) R.MEM_RGN_MODE = 0 ∧
    rgnField (masked (BitVec.toNat (sw4.mach.core.tword 0 (4352 + 8 * 2))) (rwValue xw4.word) (rwBits xw4.word))
        R.MEM_RGN_MODE ≠
      0 := by
  unfold Runs; decide +kernel
theorem witness_RegionsChangeModeAndSettle_11 :
    0 < 960 ∧
    2 < 16 ∧
    Runs sw5 0 7 0 4 xw5 ∧
    rwBlk xw5.word = 0 ∧
    rwOfs xw5.word = 256 + 8 * 2 ∧
    xw5.committed = false ∧
    (sw5.mach.core.rd (R.WGH_DOMST_MODE (0 / 20 / 2)) ≠ 1 ∧ sw5.mach.core.rd (R.WGH_DOMST_MODE (0 / 20 / 2)) ≠ 2) ∧
    sw5.mach.core.rgnIgnored 0 2 (BitVec.toNat (sw5.mach.core.tword 0 (4352 + 8 * 2)))
        (masked (BitVec.toNat (sw5.mach.core.tword 0 (4352 + 8 * 2))) (rwValue xw5.word) (rwBits xw5.word))
        (decide (rwBits xw5.word &&& 49152 ≠ 0)) =
      false ∧
    decide (rgnField (BitVec.toNat (sw5.mach.core.tword 0 (4352 + 8 * 2))) R.MEM_RGN_VALID = 1) = true ∧
    decide
        (rgnField (masked (BitVec.toNat (sw5.mach.core.tword 0 (4352 + 8 * 2))) (rwValue xw5.word) (rwBits xw5.word))
            R.MEM_RGN_VALID =
          1) =
      true ∧
    rgnField (BitVec.toNat (sw5.mach.core.tword 0 (4352 + 8 * 2))) R.MEM_RGN_MODE ≠ 0 ∧
    rgnField (masked (BitVec.toNat (sw5.mach.core.tword 0 (4352 + 8 * 2))) (rwValue xw5.word) (rwBits xw5.word))
        R.MEM_RGN_MODE =
      0 := by
  unfold Runs; decide +kernel
theorem witness_RegisterWritesTakeEffectOrFail_5 :
    0 < 960 ∧
    Runs sw6 0 7 0 3 xw6 ∧
    (if bit xw6.word 67 = false then
        signedCount (sw6.mach.core.ringPI 0 (bits xw6.word 64 3)) (sw6.mach.core.ringCI 0 (bits xw6.word 64 3)) +
          ↑(bits xw6.word 68 16)
      else
        if
            signedCount (sw6.mach.core.ringPI 0 (bits xw6.word 64 3)) (sw6.mach.core.ringCI 0 (bits xw6.word 64 3)) <
              0 then
          signedCount (sw6.mach.core.ringPI 0 (bits xw6.word 64 3)) (sw6.mach.core.ringCI 0 (bits xw6.word 64 3)) +
            ↑((bits xw6.word 68 16 + 65536 - sw6.mach.core.ringPI 0 (bits xw6.word 64 3)) % 65536)
        else ↑((bits xw6.word 68 16 + 65536 - sw6.mach.core.ringCI 0 (bits xw6.word 64 3)) % 65536)) ≤
      ↑(sw6.mach.core.ringLen 0 (bits xw6.word 64 3)) := by
  unfold Runs; decide +kernel
theorem witness_RegisterWritesTakeEffectOrFail_6 :
    0 < 960 ∧
    Runs sw7 0 7 0 3 xw7 ∧
    ↑(sw7.mach.core.ringLen 0 (bits xw7.word 64 3)) <
      if bit xw7.word 67 = false then
        signedCount (sw7.mach.core.ringPI 0 (bits xw7.word 64 3)) (sw7.mach.core.ringCI 0 (bits xw7.word 64 3)) +
          ↑(bits xw7.word 68 16)
      else
        if
            signedCount (sw7.mach.core.ringPI 0 (bits xw7.word 64 3)) (sw7.mach.core.ringCI 0 (bits xw7.word 64 3)) <
              0 then
          signedCount (sw7.mach.core.ringPI 0 (bits xw7.word 64 3)) (sw7.mach.core.ringCI 0 (bits xw7.word 64 3)) +
            ↑((bits xw7.word 68 16 + 65536 - sw7.mach.core.ringPI 0 (bits xw7.word 64 3)) % 65536)
        else ↑((bits xw7.word 68 16 + 65536 - sw7.mach.core.ringCI 0 (bits xw7.word 64 3)) % 65536) := by
  unfold Runs; decide +kernel
theorem witness_TallyCommandsActOnTheirTally_5 :
    Runs sw8 959 7 0 2 xw8 := by
  unfold Runs; decide +kernel
theorem witness_TallyCommandsActOnTheirTally_6 :
    Runs sw9 959 7 0 2 xw9 ∧
    (exec (Instr.tset 959 7 0) sw9 = Host.Outcome.next tw1 ∨ exec (Instr.tinc 959 7 0) sw9 = Host.Outcome.next tw1) := by
  refine ⟨by (unfold Runs; decide +kernel), by exact .inr ((eq_next (o := exec (Instr.tinc 959 7 0) sw9) (by decide +kernel)).trans rfl)⟩
theorem witness_RepairsAndRebuildsAreCarriedOut_12 :
    Turn sw10 (mbRepair 5) rw1 ∧
    rw1.byte 1 < 96 ∧
    sw10.mach.core.slicePresent (rw1.byte 1) = false := by
  unfold Turn SlotsOk; decide +kernel
theorem witness_TripVringAndBypassAct_1 :
    sw11.pwr.on = true ∧
    sw11.pwr.trip = false := by
  decide +kernel
theorem witness_TripVringAndBypassAct_2 :
    sw11.live = true := by
  decide +kernel
theorem witness_TestPortLoadsItsInstructions_1 :
    sw12.pwr.on = true ∧
    xw10 ∈
      [(Instr.extest, 0), (Instr.idcode, 1), (Instr.samplePreload, 2), (Instr.clamp, 3), (Instr.highz, 4), (Instr.dwExtest, 16),
        (Instr.dwSample, 17), (Instr.tstread, 24), (Instr.wsSelect, 32), (Instr.wsIntest, 33), (Instr.scan, 48), (Instr.mbist, 49),
        (Instr.bypass, 255)] := by
  decide +kernel
theorem witness_TestPortLoadsItsInstructions_2 :
    sw12.pwr.on = true := by
  decide +kernel
theorem witness_TestPortLoadsItsInstructions_3 :
    sw12.pwr.on = true ∧
    sw12.tap.tck = false := by
  decide +kernel
theorem witness_TestPortLoadsItsInstructions_4 :
    sw13.pwr.on = true ∧
    sw13.tap.tck = true := by
  decide +kernel
end Sys2Proof.Tests.S21

namespace Sys2Proof.Tests.S32
open Sys2Proof.Tests
def c0 : Core := region 3 1 0 4 1 9 (((base.wr (R.PRT_STATE_STATE 1) 2).wr R.STG_STATUS_STAGE 8).wr R.STG_CAUSE_WARMS 255)
def cS0 : State := withMem [(tileBase 3, 5), (tileBase 3 + 65535, 6), (tileBase 3 + 65536, 7), (loaderBase 0, 3), (bankBase 1, 3)] (up c0)
theorem witness_ComputeOnlyResetKeepsCode_1 :
    cS0.live = true := by
  decide +kernel
end Sys2Proof.Tests.S32

namespace Sys2Proof.Tests.S33
open Sys2Proof.Tests
def c0 : Core := region 3 1 0 4 1 9 (((base.wr (R.PRT_STATE_STATE 1) 2).wr R.STG_STATUS_STAGE 8).wr R.STG_CAUSE_WARMS 255)
def rr (k : Nat) := mreq 0x11 [BitVec.ofNat 8 k]
def wS : State := { up (((c0.wr R.STG_STATUS_PASSL 1).wr R.STG_STATUS_PASSU 1)) with pwr := { fullRstN := true, comp := true } }
def sw1 : State := { mS (rr 0) id with tap := {} }
def rw1 : MbReq := rr 0
theorem witness_ComputeOnlyResetKeepsCode_2 :
    sw1.live = true ∧
    Turn sw1 (mbReset false) rw1 := by
  unfold Turn SlotsOk; decide +kernel
theorem witness_ComputeOnlyResetKeepsCode_3 :
    wS.live = true ∧
    wS.pwr.comp = true := by
  decide +kernel
end Sys2Proof.Tests.S33

namespace Sys2Proof.Tests.S34
open Sys2Proof.Tests
def c0 : Core := region 3 1 0 4 1 9 (((base.wr (R.PRT_STATE_STATE 1) 2).wr R.STG_STATUS_STAGE 8).wr R.STG_CAUSE_WARMS 255)
def rr (k : Nat) := mreq 0x11 [BitVec.ofNat 8 k]
def off1 : State := { up c0 with pwr := { on := false, trip := true } }
def off2 : State := { up c0 with pwr := { on := true, fullRstN := false } }
def ontrip : State := { up c0 with pwr := { on := true, fullRstN := true, trip := true } }
def off2t : State := { off2 with pwr := { on := true, fullRstN := false, trip := true } }
def sw1 : State := up c0
def sw2 : State := up c0
def sw3 : State := mS (rr 1) (fun c => c.wr R.STG_STRAP_ASM 3)
def rw1 : MbReq := rr 1
def sw4 : State := up c0
def sw5 : State := { up base with pwr := { fullRstN := true, comp := true } }
def sw6 : State := mS (rr 0) id
def sw7 : State := mS (rr 1) id
def rw2 : MbReq := rr 0
def rw3 : MbReq := rr 1
theorem witness_ComputeOnlyResetKeepsCode_4 :
    sw1.live = true ∧
    sw1.pwr.comp = false := by
  decide +kernel
theorem witness_FullResetsClearAndRelease_1 :
    Instr.fullReset ∈ [Instr.fullReset, Instr.vinLow] ∧
    sw2.pwr.on = true ∧
    sw2.pwr.fullRstN = true ∧
    sw2.pwr.trip = false := by
  decide +kernel
theorem witness_FullResetsClearAndRelease_2 :
    Instr.vinLow ∈ [Instr.fullReset, Instr.vinLow] ∧
    sw2.pwr.on = true ∧
    sw2.pwr.fullRstN = true ∧
    sw2.pwr.trip = false := by
  decide +kernel
theorem witness_FullResetsClearAndRelease_3 :
    15 < 16 ∧
    3 < 4 ∧
    7 < 8 ∧
    (sw2.pwr.on = false ∨ sw2.pwr.fullRstN = true) := by
  decide +kernel
theorem witness_FullResetsClearAndRelease_4 :
    sw2.pwr.on = true := by
  decide +kernel
theorem witness_FullResetsClearAndRelease_5 :
    Instr.fullReset ∈ [Instr.fullReset, Instr.vinLow] ∧
    ontrip.pwr.on = true ∧
    ontrip.pwr.fullRstN = true ∧
    ontrip.pwr.trip = true := by
  decide +kernel
theorem witness_FullResetsClearAndRelease_6 :
    Instr.vinLow ∈ [Instr.fullReset, Instr.vinLow] ∧
    ontrip.pwr.on = true ∧
    ontrip.pwr.fullRstN = true ∧
    ontrip.pwr.trip = true := by
  decide +kernel
theorem witness_FullResetsClearAndRelease_7 :
    Instr.fullReset ∈ [Instr.fullReset, Instr.vinLow] ∧
    (off1.pwr.on = false ∨ off1.pwr.fullRstN = false) := by
  decide +kernel
theorem witness_FullResetsClearAndRelease_8 :
    Instr.vinLow ∈ [Instr.fullReset, Instr.vinLow] ∧
    (off1.pwr.on = false ∨ off1.pwr.fullRstN = false) := by
  decide +kernel
theorem witness_FullResetsClearAndRelease_9 :
    off1.pwr.on = false := by
  decide +kernel
theorem witness_FullResetsClearAndRelease_10 :
    15 < 16 ∧
    3 < 4 ∧
    7 < 8 ∧
    off2t.pwr.on = true ∧
    off2t.pwr.fullRstN = false ∧
    off2t.pwr.trip = true := by
  decide +kernel
theorem witness_FullResetsClearAndRelease_11 :
    off2t.pwr.on = true := by
  decide +kernel
theorem witness_FullResetsClearAndRelease_12 :
    Turn sw3 (mbReset true) rw1 := by
  unfold Turn SlotsOk; decide +kernel
theorem witness_FullResetsClearAndRelease_13 :
    15 < 16 ∧
    3 < 4 ∧
    7 < 8 ∧
    off2.pwr.on = true ∧
    off2.pwr.fullRstN = false ∧
    off2.pwr.trip = false := by
  decide +kernel
theorem witness_TripVringAndBypassAct_3 :
    (off1.pwr.on = false ∨ off1.pwr.trip = true) := by
  decide +kernel
theorem witness_ResetsSpareOrClearTimebaseAndHallmarks_1 :
    sw4.live = true := by
  decide +kernel
theorem witness_ResetsSpareOrClearTimebaseAndHallmarks_2 :
    Instr.fullReset ∈ [Instr.fullReset, Instr.vinLow] ∧
    sw4.pwr.on = true ∧
    sw4.pwr.fullRstN = true ∧
    sw4.pwr.trip = false := by
  decide +kernel
theorem witness_ResetsSpareOrClearTimebaseAndHallmarks_3 :
    Instr.vinLow ∈ [Instr.fullReset, Instr.vinLow] ∧
    sw4.pwr.on = true ∧
    sw4.pwr.fullRstN = true ∧
    sw4.pwr.trip = false := by
  decide +kernel
theorem witness_ResetsSpareOrClearTimebaseAndHallmarks_4 :
    sw4.pwr.on = true ∧
    sw4.pwr.trip = false := by
  decide +kernel
theorem witness_ResetsSpareOrClearTimebaseAndHallmarks_5 :
    sw4.pwr.on = true := by
  decide +kernel
theorem witness_ResetsSpareOrClearTimebaseAndHallmarks_6 :
    sw5.live = true ∧
    sw5.pwr.comp = true ∧
    sw5.pending = [] := by
  decide +kernel
theorem witness_ResetsSpareOrClearTimebaseAndHallmarks_7 :
    Turn sw6 (mbReset false) rw2 := by
  unfold Turn SlotsOk; decide +kernel
theorem witness_ResetsSpareOrClearTimebaseAndHallmarks_8 :
    Turn sw7 (mbReset true) rw3 := by
  unfold Turn SlotsOk; decide +kernel
theorem witness_ResetsSpareOrClearTimebaseAndHallmarks_9 :
    off1.pwr.on = false := by
  decide +kernel
end Sys2Proof.Tests.S34

namespace Sys2Proof.Tests.S35
open Sys2Proof.Tests
def mR (r : MbReq) (n : List Nat) (f : Core → Core) : State :=
  let r' := { r with started := true, note := n }
  up (f (mcore r' base))
def rq (r : MbReq) (n : List Nat) : MbReq := { r with started := true, note := n }
def dk (d b : Nat) := mreq 0x52 [BitVec.ofNat 8 d, BitVec.ofNat 8 b]
def role2 (c : Core) : Core := c.wr R.CH_BELLCFG_ROLE 2
def pk (d b : Nat) := mreq 0x53 [BitVec.ofNat 8 d, BitVec.ofNat 8 b]
def halfDark (h : Nat) (c : Core) : Core := (List.range 12).foldl (fun c i => c.wr (R.WGH_DOMST_MODE (12*h+i)) 2) c
def domsDark (h : Nat) (c : Core) : Core := (c.wr (R.WGH_DOMST_MODE (24+2*h)) 2).wr (R.WGH_DOMST_MODE (25+2*h)) 2
def ls (v : Nat) := mreq 0x48 ([95,0,0,0,0,0,0,0] ++ toBytes 2 v)
def b0 := mreq 0x40 []
def ep (st0 st1 act n : Nat) (c : Core) : Core := (((c.wr R.NET_RTCTL_STATE0 st0).wr R.NET_RTCTL_STATE1 st1).wr R.NET_RTCTL_ACTIVE act).wr (R.NET_EPCNT_COUNT (1 - act)) n
def ab2 := mreq 0x34 [1,1,5,0x81,0,0]
def pw (cmd kind off n : Nat) := mreq cmd (padTo 16 ([BitVec.ofNat 8 kind,0,0,0] ++ toBytes 4 off ++ toBytes 2 n) ++ padTo n [1,2,3,4])
def pu (f : Core → Core) (c : Core) := f ((c.wr R.STG_STATUS_PASSU 1).wr R.CH_CRCTL_SLICE 95)
def ps (cmd kind off n : Nat) (f : Core → Core := id) := mS (pw cmd kind off n) (pu f)
def rp (op a b c : Nat) (rest : List Byte) := mreq 0x6A ([BitVec.ofNat 8 op, BitVec.ofNat 8 a, BitVec.ofNat 8 b, BitVec.ofNat 8 c] ++ padTo 4 [] ++ rest)
def rb := rp 1 0 0 0 []
def sw1 : State := mS (dk 23 0) (fun c => role2 (c.wr (R.WGH_DOMST_MODE 23) 2))
def rw1 : MbReq := dk 23 0
def sw2 : State := mR (dk 23 0) [1] (fun c => c.wr (R.WGH_DOMST_MODE 23) 2)
def rw2 : MbReq := rq (dk 23 0) [1]
def sw3 : State := mR (dk 23 1) [1] id
def rw3 : MbReq := rq (dk 23 1) [1]
def sw4 : State := mR (pk 1 0) [1] (halfDark 1)
def rw4 : MbReq := rq (pk 1 0) [1]
def sw5 : State := mR (pk 1 0) [2] (fun c => (halfDark 1 c).wr R.NET_RTCTL_STATE0 2)
def rw5 : MbReq := rq (pk 1 0) [2]
def sw6 : State := mR (pk 1 0) [3] (fun c => domsDark 1 (halfDark 1 c))
def rw6 : MbReq := rq (pk 1 0) [3]
def sw7 : State := mR (pk 1 1) [2] (fun c => (halfDark 1 c).wr R.NET_RTCTL_STATE0 2)
def rw7 : MbReq := rq (pk 1 1) [2]
def sw8 : State := mR (ls (1+4*4)) [1] id
def rw8 : MbReq := rq (ls (1+4*4)) [1]
def sw9 : State := mR b0 [1] (ep 1 2 1 0)
def rw9 : MbReq := rq b0 [1]
def sw10 : State := mS ab2 id
def sw11 : State := ps 0x20 0 4000 256
def sw12 : State := ps 0x20 0 4001 256
def sw13 : State := ps 0x20 1 0 100 (fun c => c.wr R.STG_STATUS_PASSU 0)
def rw10 : MbReq := pw 0x20 0 4000 256
def rw11 : MbReq := pw 0x20 0 4001 256
def rw12 : MbReq := pw 0x20 1 0 100
def sw14 : State := mS (rp 2 48 19 0 []) id
def rw13 : MbReq := rp 2 48 19 0 []
def sw15 : State := mS (rp 3 47 20 15 []) id
def rw14 : MbReq := rp 3 47 20 15 []
def sw16 : State := mS (rp 3 47 19 15 []) (fun c => c.wr (R.LDG_FP_ROW_ABSENT 47) (2^19))
def rw15 : MbReq := rp 3 47 19 15 []
def sw17 : State := mR (rp 3 47 19 15 []) [1] id
def rw16 : MbReq := rq (rp 3 47 19 15 []) [1]
def sw18 : State := mS (rp 4 3 2 0 []) id
def rw17 : MbReq := rp 4 3 2 0 []
def sw19 : State := mS (rp 5 96 0 0 []) id
def rw18 : MbReq := rp 5 96 0 0 []
def sw20 : State := mS rb (fun c => (((((c.setRow 5 0 (2^19) false).wr (R.LAR_WIN_OPEN 1) 1).wr (R.LAR_WIN_ROW 1) 5).wr (R.LAR_WIN_COL 1) 19).wr (R.LAR_WIN_INBOUND 1) 2))
def sw21 : State := mR rb [1] (fun c => c.setRow 5 0 (2^19) false)
def rw19 : MbReq := rq rb [1]
theorem witness_PairsAndHalvesAreOrdered_7 :
    Turn sw1 (fun (r : MbReq) => mbIs 82 r && !bit (r.byte 1) 0) rw1 ∧
    rw1.note = [] ∧
    rw1.byte 0 < 24 ∧
    sw1.mach.core.rd (R.WGH_DOMST_MODE (rw1.byte 0)) = 2 ∧
    sw1.mach.core.darkRefused (rw1.byte 0) = false := by
  unfold Turn SlotsOk; decide +kernel
theorem witness_PairsAndHalvesAreOrdered_8 :
    Resumes sw2 (fun (r : MbReq) => mbIs 82 r && !bit (r.byte 1) 0) rw2 ∧
    rw2.note = [1] ∧
    rw2.byte 0 < 24 ∧
    sw2.mach.core.rd (R.WGH_DOMST_MODE (rw2.byte 0)) = 2 := by
  unfold Resumes SlotsOk; decide +kernel
theorem witness_PairsAndHalvesAreOrdered_9 :
    Resumes sw3 (fun (r : MbReq) => mbIs 82 r && bit (r.byte 1) 0) rw3 ∧
    rw3.note = [1] ∧
    rw3.byte 0 < 24 ∧
    sw3.mach.core.rd (R.WGH_DOMST_MODE (rw3.byte 0)) = 0 := by
  unfold Resumes SlotsOk; decide +kernel
theorem witness_PairsAndHalvesAreOrdered_10 :
    Resumes sw4 (fun (r : MbReq) => mbIs 83 r && !bit (r.byte 1) 0) rw4 ∧
    rw4.byte 0 < 2 ∧
    rw4.note = [1] ∧
    sw4.mach.core.evictsDone = true := by
  unfold Resumes SlotsOk; decide +kernel
theorem witness_PairsAndHalvesAreOrdered_11 :
    Resumes sw5 (fun (r : MbReq) => mbIs 83 r && !bit (r.byte 1) 0) rw5 ∧
    rw5.byte 0 < 2 ∧
    rw5.note = [2] ∧
    sw5.mach.core.net.own = false ∧
    sw5.mach.core.net.want = none ∧
    sw5.mach.core.epochState (1 - sw5.mach.core.rd R.NET_RTCTL_ACTIVE) = 0 := by
  unfold Resumes SlotsOk; decide +kernel
theorem witness_PairsAndHalvesAreOrdered_12 :
    Resumes sw6 (fun (r : MbReq) => mbIs 83 r && !bit (r.byte 1) 0) rw6 ∧
    rw6.byte 0 < 2 ∧
    rw6.note = [3] ∧
    sw6.mach.core.halfParked (decide (rw6.byte 0 = 1)) = true := by
  unfold Resumes SlotsOk; decide +kernel
theorem witness_PairsAndHalvesAreOrdered_13 :
    Resumes sw7 (fun (r : MbReq) => mbIs 83 r && bit (r.byte 1) 0) rw7 ∧
    rw7.note = [2] ∧
    rw7.byte 0 < 2 ∧
    sw7.mach.core.net.own = false ∧
    sw7.mach.core.net.want = none ∧
    sw7.mach.core.epochState (1 - sw7.mach.core.rd R.NET_RTCTL_ACTIVE) = 0 := by
  unfold Resumes SlotsOk; decide +kernel
theorem witness_LarderModesAreSetAndSwitched_5 :
    Resumes sw8 (mbIs 72) rw8 ∧
    rw8.note = [1] ∧
    sw8.mach.core.rd (R.LAR_CTL_STATE (rw8.byte 0)) ≠ 1 := by
  unfold Resumes SlotsOk; decide +kernel
theorem witness_WindowsAndRouteEpochsTurn_12 :
    Resumes sw9 (mbIs 64) rw9 ∧
    rw9.note = [1] := by
  unfold Resumes SlotsOk; decide +kernel
theorem witness_AbortsTakeTheirTargets_4 :
    Turn sw10 (mbIs 52) ab2 ∧
    ab2.note = [] ∧
    sw10.mach.core.abortCheck ab2 = none ∧
    ab2.byte 4 ≠ 1 ∧
    (∀ q ∈ ab2.abortQueues, sw10.mach.core.queueCmds ab2.abortUnit q = [] ∧ sw10.mach.core.toFetch ab2.abortUnit q = 0) ∧
    (∀ a ∈ sw10.mach.core.queues.aborts, a.unit = ab2.abortUnit → a.q ∉ ab2.abortQueues) := by
  unfold Turn SlotsOk; decide +kernel
theorem witness_PiecesAreStagedAndCriesBegin_8 :
    Turn sw11 (mbIs 32) rw10 ∧
    sw11.mach.core.stageRefused = none ∧
    (¬(if decide (rw10.byte 0 = 1) = true then 262144 else 4256) < rw10.field 4 4 + rw10.field 8 2) ∧
    (∀ (l : Nat), sw11.mach.lineErrs (sliceLineId sw11.mach.core.crier l) = []) := by
  refine ⟨?_, ?_, ?_, ?_⟩ <;> first | exact eq_ok (by decide +kernel) | exact fun _ => rfl | decide +kernel | (unfold Turn SlotsOk; decide +kernel)
theorem witness_PiecesAreStagedAndCriesBegin_9 :
    Turn sw12 (mbIs 32) rw11 ∧
    sw12.mach.core.stageRefused = none ∧
    (if decide (rw11.byte 0 = 1) = true then 262144 else 4256) < rw11.field 4 4 + rw11.field 8 2 := by
  unfold Turn SlotsOk; decide +kernel
theorem witness_PiecesAreStagedAndCriesBegin_10 :
    Turn sw13 (mbIs 32) rw12 ∧
    sw13.mach.core.stageRefused = some 2 := by
  unfold Turn SlotsOk; decide +kernel
theorem witness_RepairsAndRebuildsAreCarriedOut_13 :
    Turn sw14 (mbRepair 2) rw13 ∧
    (48 ≤ rw13.byte 1 ∨ 20 ≤ rw13.byte 2) := by
  unfold Turn SlotsOk; decide +kernel
theorem witness_RepairsAndRebuildsAreCarriedOut_14 :
    Turn sw15 (mbRepair 3) rw14 ∧
    rw14.note = [] ∧
    (48 ≤ rw14.byte 1 ∨ 20 ≤ rw14.byte 2 ∨ 16 ≤ rw14.byte 3) := by
  unfold Turn SlotsOk; decide +kernel
theorem witness_RepairsAndRebuildsAreCarriedOut_15 :
    Turn sw16 (mbRepair 3) rw15 ∧
    rw15.note = [] ∧
    rw15.byte 1 < 48 ∧
    rw15.byte 2 < 20 ∧
    rw15.byte 3 < 16 ∧
    (sw16.mach.core.present (20 * rw15.byte 1 + rw15.byte 2) = false ∨
      sw16.mach.core.bankRetired (20 * rw15.byte 1 + rw15.byte 2) (rw15.byte 3) = true) := by
  unfold Turn SlotsOk; decide +kernel
theorem witness_RepairsAndRebuildsAreCarriedOut_16 :
    Resumes sw17 (mbRepair 3) rw16 ∧
    rw16.note ≠ [] ∧
    rw16.byte 1 < 48 ∧
    rw16.byte 2 < 20 ∧
    rw16.byte 3 < 16 ∧
    (sw17.mach.core.bankRetired (20 * rw16.byte 1 + rw16.byte 2) (rw16.byte 3) = true ∨
      sw17.mach.core.bankQuiet (20 * rw16.byte 1 + rw16.byte 2) (rw16.byte 3) = true) := by
  unfold Resumes SlotsOk; decide +kernel
theorem witness_RepairsAndRebuildsAreCarriedOut_17 :
    Turn sw18 (mbRepair 4) rw17 ∧
    (isStrand (rw17.byte 1) (rw17.byte 3) = false ∨ 2 ≤ rw17.byte 2) := by
  unfold Turn SlotsOk; decide +kernel
theorem witness_RepairsAndRebuildsAreCarriedOut_18 :
    Turn sw19 (mbRepair 5) rw18 ∧
    96 ≤ rw18.byte 1 := by
  unfold Turn SlotsOk; decide +kernel
theorem witness_RepairsAndRebuildsAreCarriedOut_19 :
    Turn sw20 (mbRepair 1) rb ∧
    rb.note = [] ∧
    (sw20.mach.core.rd R.CH_BELLSTEP_STATE = 0 ∧
      sw20.mach.core.allIdle = true ∧ sw20.mach.core.moved.any sw20.mach.core.coversRetired = false) ∧
    (∃ w < 1024,
      sw20.mach.core.rd (R.LAR_WIN_OPEN w) = 1 ∧
        sw20.mach.core.winUnit w ∈ sw20.mach.core.moved ∧ sw20.mach.core.rd (R.LAR_WIN_INBOUND w) ≠ 0) := by
  unfold Turn SlotsOk; decide +kernel
theorem witness_RepairsAndRebuildsAreCarriedOut_20 :
    Resumes sw21 (mbRepair 1) rw19 ∧
    rw19.note ≠ [] ∧
    (∀ t ∈ sw21.mach.core.moved, sw21.mach.core.present t = true → sw21.mach.errorLines t = []) ∧
    (∀ w < 1024, sw21.mach.core.rd (R.LAR_WIN_OPEN w) = 1 → sw21.mach.core.winUnit w ∉ sw21.mach.core.moved) := by
  unfold Resumes SlotsOk; decide +kernel
end Sys2Proof.Tests.S35

namespace Sys2Proof.Tests.S36
open Sys2Proof.Tests
def mR (r : MbReq) (n : List Nat) (f : Core → Core) : State :=
  let r' := { r with started := true, note := n }
  up (f (mcore r' base))
def rq (r : MbReq) (n : List Nat) : MbReq := { r with started := true, note := n }
def st (tgt b1 : Nat) := mreq 0x10 [BitVec.ofNat 8 tgt, BitVec.ofNat 8 b1]
def stg (n : Nat) (c : Core) : Core := (((((c.wr R.STG_STATUS_STAGE n).wr R.STG_STATUS_FULL 0).wr R.LDG_FP_SUMMARY_VALID (if n < 4 then 0 else 1)).wr R.STG_STATUS_PASSU (if n < 4 then 0 else 1)).wr R.STG_STATUS_PASSL (if n < 4 then 0 else 1)).wr R.TMB_STATUS_CAL_VALID 1
def so : StageObs := { low := { tiles := [(3,4)], banks := [(5,6,7),(5,6,8),(5,6,9)], repairs := [(3, 70, 2)], slices := [4] }, high := { tiles := [(47,20),(3,0)], banks := [(9,9,9)], slices := [95,3] }, rates := List.replicate 29 (2000,2200,2400,50) }
def sf : StageObs := { so with low := { so.low with storeFail := true } }
def ss (r : MbReq) (n : Nat) (f : Core → Core := id) := mS r (fun c => f (stg n c))
def man : List Byte := padTo 224 [3,0,1,0]
def cr0 : CrySt := { manifest := man, targets := [0, 5, 959], ended := false, own := true }
def rs (n : Nat) : State := up (((((stg n base).wr R.STG_STATUS_RSVC 1 |>.wr R.STG_STATUS_PASSU 0 |>.wr R.STG_STATUS_PASSL 1 |>.wr R.LDG_FP_SUMMARY_VALID 1)).wr R.STG_STATUS_BUSY 1))
def csw (ret : Nat) : State := up ((base.wr R.STG_STATUS_STAGE 3).wr R.CH_CORES_RETIRED ret |>.wr R.CH_CORES_ACTB 1 |>.wr R.CH_CORES_SPARE 2)
def full : State := let s := csw 0; { s with mach := { s.mach with core := { s.mach.core with led := { s.mach.core.led with entries := List.replicate 65535 ⟨1,2,3,0⟩ } } } }
def sw1 : State := ss (st 3 0) 2
def rw1 : MbReq := st 3 0
def sw2 : State := ss (st 4 0) 3
def rw2 : MbReq := st 4 0
def sw3 : State := ss (st 4 1) 3 (fun c => c.wr R.STG_STATUS_PASSL 1)
def rw3 : MbReq := st 4 1
def sw4 : State := ss (st 5 0) 4
def rw4 : MbReq := st 5 0
def sw5 : State := ss (st 6 0) 5 (fun c => { c with cry := { c.cry with ended := false } })
/-- An image staged whose manifest has a FORMAT that is none. -/
def sw6 : State := withMem (writeBytes [] (sliceBase base.crier + manifestOff) [1, 0]) (ss (st 6 0) 5)
def rw5 : MbReq := st 6 0
def sw7 : State := ss (st 7 0) 6
def sw8 : State := ss (st 8 0) 7
def rw6 : MbReq := st 7 0
def rw7 : MbReq := st 8 0
def sw9 : State := mR (st 6 0) [6] (fun c => { stg 5 c with cry := cr0 })
def sw10 : State := mR (st 6 0) [6] (fun c => { (stg 5 c).wr R.CH_CRSTAT_VERIFIED 1 with cry := { cr0 with ended := true } })
def sw11 : State := mR (st 6 0) [6] (fun c => { stg 5 c with cry := { cr0 with ended := true } })
def rw8 : MbReq := rq (st 6 0) [6]
def sw12 : State := rs 2
def sw13 : State := up base
theorem witness_StagesAreReachedAndFollow_5 :
    Turn sw1 (fun (r : MbReq) => mbIs 16 r && (sw1.mach.core.stageFree || decide (r.byte 0 < 4))) rw1 ∧
    rw1.note = [] ∧
    sw1.mach.core.stageCheck (rw1.byte 0) (bit (rw1.byte 1) 0) = none ∧
    rw1.byte 0 = 3 ∧
    sw1.mach.core.rd R.STG_STATUS_STAGE = 2 ∧
    sw1.mach.core.rd R.STG_STATUS_PASSL = 0 ∧
    sw1.mach.core.rd R.LDG_ALERT_DEVF = 0 ∧
    sf.low.storeFail = true := by
  unfold Turn SlotsOk; decide +kernel
theorem witness_StagesAreReachedAndFollow_6 :
    Turn sw2 (fun (r : MbReq) => mbIs 16 r && (sw2.mach.core.stageFree || decide (r.byte 0 < 4))) rw2 ∧
    rw2.note = [] ∧
    sw2.mach.core.stageCheck (rw2.byte 0) (bit (rw2.byte 1) 0) = none ∧
    rw2.byte 0 = 4 ∧
    sw2.mach.core.rd R.STG_STATUS_STAGE = 3 ∧
    sw2.mach.core.rd R.STG_STATUS_PASSL = 0 ∧
    sw2.mach.core.rd R.LDG_ALERT_DEVF = 0 ∧
    sw2.mach.core.rd R.CH_CORES_RETIRED = 0 ∧
    (∀ e ∈ sw2.mach.core.buildEntries sw2.fuses (sw2.mach.core.led.low.getD { }), e.kind ∉ [7, 9, 11]) ∧
    bit (rw2.byte 1) 0 = false := by
  unfold Turn SlotsOk; decide +kernel
theorem witness_StagesAreReachedAndFollow_7 :
    Turn sw3 (fun (r : MbReq) => mbIs 16 r && (sw3.mach.core.stageFree || decide (r.byte 0 < 4))) rw3 ∧
    rw3.note = [] ∧
    sw3.mach.core.stageCheck (rw3.byte 0) (bit (rw3.byte 1) 0) = none ∧
    4 ≤ rw3.byte 0 ∧
    bit (rw3.byte 1) 0 = true ∧
    sw3.mach.core.rd R.STG_STATUS_STAGE = 3 ∧
    sw3.mach.core.rd R.STG_STATUS_PASSL = 1 ∧
    sw3.mach.core.rd R.LDG_ALERT_DEVF = 0 ∧
    sw3.mach.core.reduced = false := by
  unfold Turn SlotsOk; decide +kernel
theorem witness_StagesAreReachedAndFollow_8 :
    Turn sw4 (fun (r : MbReq) => mbIs 16 r && (sw4.mach.core.stageFree || decide (r.byte 0 < 4))) rw4 ∧
    rw4.note = [] ∧
    sw4.mach.core.stageCheck (rw4.byte 0) (bit (rw4.byte 1) 0) = none ∧
    rw4.byte 0 = 5 ∧
    sw4.mach.core.rd R.STG_STATUS_STAGE = 4 := by
  unfold Turn SlotsOk; decide +kernel
theorem witness_StagesAreReachedAndFollow_9 :
    Turn sw5 (fun (r : MbReq) => mbIs 16 r && (sw5.mach.core.stageFree || decide (r.byte 0 < 4))) rw5 ∧
    rw5.note = [] ∧
    sw5.mach.core.stageCheck (rw5.byte 0) (bit (rw5.byte 1) 0) = none ∧
    rw5.byte 0 = 6 ∧
    sw5.mach.core.rd R.STG_STATUS_STAGE = 5 ∧
    sw5.mach.core.cry.ended = false := by
  unfold Turn SlotsOk; decide +kernel
theorem witness_StagesAreReachedAndFollow_10 :
    Turn sw6 (fun (r : MbReq) => mbIs 16 r && (sw6.mach.core.stageFree || decide (r.byte 0 < 4))) rw5 ∧
    rw5.note = [] ∧
    sw6.mach.core.stageCheck (rw5.byte 0) (bit (rw5.byte 1) 0) = none ∧
    rw5.byte 0 = 6 ∧
    sw6.mach.core.rd R.STG_STATUS_STAGE = 5 ∧
    sw6.mach.core.cry.ended = true ∧
    ((sw6.mach.onCore fun (c : Core) => ((c.wr R.STG_STATUS_FAIL 0).wr R.STG_STATUS_FSTAGE 0).wr R.STG_STATUS_FSTAT 0).cry
          sw6.fuses
          (!(sw6.mach.onCore fun (c : Core) =>
                ((c.wr R.STG_STATUS_FAIL 0).wr R.STG_STATUS_FSTAGE 0).wr R.STG_STATUS_FSTAT 0).imageStaged)
          false
          (sw6.mach.onCore fun (c : Core) =>
                ((c.wr R.STG_STATUS_FAIL 0).wr R.STG_STATUS_FSTAGE 0).wr R.STG_STATUS_FSTAT 0).core.cryTargets
          0).2 =
      false := by
  unfold Turn SlotsOk; decide +kernel
theorem witness_StagesAreReachedAndFollow_11 :
    Turn sw7 (fun (r : MbReq) => mbIs 16 r && (sw7.mach.core.stageFree || decide (r.byte 0 < 4))) rw6 ∧
    rw6.note = [] ∧
    sw7.mach.core.stageCheck (rw6.byte 0) (bit (rw6.byte 1) 0) = none ∧
    rw6.byte 0 = 7 ∧
    sw7.mach.core.rd R.STG_STATUS_STAGE = 6 := by
  unfold Turn SlotsOk; decide +kernel
theorem witness_StagesAreReachedAndFollow_12 :
    Turn sw8 (fun (r : MbReq) => mbIs 16 r && (sw8.mach.core.stageFree || decide (r.byte 0 < 4))) rw7 ∧
    rw7.note = [] ∧
    sw8.mach.core.stageCheck (rw7.byte 0) (bit (rw7.byte 1) 0) = none ∧
    rw7.byte 0 = 8 ∧
    sw8.mach.core.rd R.STG_STATUS_STAGE = 7 := by
  unfold Turn SlotsOk; decide +kernel
theorem witness_StagesAreReachedAndFollow_13 :
    Resumes sw9 (fun (r : MbReq) => mbIs 16 r && (sw9.mach.core.stageFree || decide (r.byte 0 < 4))) rw8 ∧
    rw8.note = [6] ∧
    rw8.byte 0 = 6 ∧
    sw9.mach.core.rd R.STG_STATUS_STAGE = 5 ∧
    sw9.mach.core.cry.ended = false := by
  unfold Resumes SlotsOk; decide +kernel
theorem witness_StagesAreReachedAndFollow_14 :
    Resumes sw10 (fun (r : MbReq) => mbIs 16 r && (sw10.mach.core.stageFree || decide (r.byte 0 < 4))) rw8 ∧
    rw8.note = [6] ∧
    rw8.byte 0 = 6 ∧
    sw10.mach.core.rd R.STG_STATUS_STAGE = 5 ∧
    sw10.mach.core.cry.ended = true ∧
    sw10.mach.core.cryOk = true := by
  unfold Resumes SlotsOk; decide +kernel
theorem witness_StagesAreReachedAndFollow_15 :
    Resumes sw11 (fun (r : MbReq) => mbIs 16 r && (sw11.mach.core.stageFree || decide (r.byte 0 < 4))) rw8 ∧
    rw8.note = [6] ∧
    rw8.byte 0 = 6 ∧
    sw11.mach.core.rd R.STG_STATUS_STAGE = 5 ∧
    sw11.mach.core.cry.ended = true ∧
    sw11.mach.core.cryOk = false := by
  unfold Resumes SlotsOk; decide +kernel
theorem witness_StagesAreReachedAndFollow_16 :
    sw12.live = true ∧
    sw12.mach.core.rd R.STG_STATUS_RSVC = 1 ∧
    sw12.mach.core.rd R.STG_STATUS_PASSU = 0 ∧
    sw12.mach.core.rd R.STG_STATUS_BUSY = 1 := by
  decide +kernel
theorem witness_CoresAreSwappedAndTested_5 :
    sw13.live = true ∧
    (sw13.mach.core.rd R.CH_CORES_SPARE = 3 ∨ sw13.mach.core.rd R.STG_STATUS_STAGE = 0) := by
  decide +kernel
theorem witness_CoresAreSwappedAndTested_6 :
    full.live = true ∧
    full.mach.core.rd R.STG_STATUS_STAGE ≠ 0 ∧
    2 ≤ full.mach.core.coresLeft ∧
    0 ∈ full.mach.core.goodCores ∧
    bit 6 0 = false ∧
    (0 = full.mach.core.rd R.CH_CORES_ACTA ∨ 0 = full.mach.core.rd R.CH_CORES_ACTB) ∧
    full.mach.core.ledgerFull { kind := 9, unit := 0 } = true := by
  decide +kernel
end Sys2Proof.Tests.S36

namespace Sys2Proof.Tests.S37
open Sys2Proof.Tests
def T (t o : Nat) : Nat := t/20*2^36 + t%20*2^31 + o
def hubOn (c : Core) : Core := ((c.wr R.PRT_HUBMAP_PORTS0 1).wr (R.PRT_STATE_STATE 0) 2).wr R.PRT_SELF_VALID 1
def pm : Cmd := { lcmd 5 5 0x30 3 [(64,T 4 1),(128,0xFFE00),(160,511),(180,63),(186,1),(187,1),(189,6)] with p := 3 }
def ga : Cmd := { lcmd 5 6 0x32 3 [(128,16)] with p := 0 }
def gl : List Byte := toBytes 8 (T 4 0) ++ toBytes 3 599 ++ toBytes 5 64
def ga2 : Cmd := { ga with p := 3, gather := [T 4 0, 600, 64, T 6 5, 3, 700], parts := [{k := 0, pkt := {typ := 2}},{k := 1, pkt := {typ := 2}}] }
def okp : Part := {k := 0, pkt := {typ := 2}, status := some 0}
def pd : Cmd := { pm with p := 1, parts := [okp] }
def gd : Cmd := { lcmd 5 6 0x31 3 [(64,T 4 0),(128,0xFFE00),(160,512)] with p := 1, parts := [okp] }
def gad : Cmd := { ga2 with p := 1, parts := [okp] }
def cd : Cmd := { cmd 961 3 0x33 [(64,T 4 0),(128,T 5 0),(192,3)] with p := 1, parts := [okp] }
def tz : Cmd := { cmd 3 7 2 [(64, 5)] with phase := .fetched }
def m64 : Nat := 2^64-1
def rq (blk ofs val mask : Nat) := cmd 0 7 4 [(64,blk),(68,ofs),(128,val),(192,mask)]
def w (s c m v : Nat) : Nat := fldVal (R.MEM_RGN_START 0) s + fldVal (R.MEM_RGN_COUNT 0) c + fldVal (R.MEM_RGN_MODE 0) m + fldVal (R.MEM_RGN_VALID 0) v
def rg (n val : Nat) := rq 0 (0x100+8*n) val m64
def pk : Packet := { typ := 1, epoch := 0, vc := 2, phase := 1, len := 3, dst := T 6 0, payload := [1,2,3], hops := 4 }
def fl (here dest : Nat) : Flying := { pkt := pk, plane := 2, here := here, dest := dest, unit := 6 }
def fS (f : Flying) (c : Core) := up { c with net := { c.net with fly := [f] } }
def nx (s : State) (f : Flying) := (s.mach.core.nextPort f)
def fq : Flying := { fl 24 7 with queued := true, pkt := { pk with epoch := 1 } }
def full : State := let s := fS (fl 24 7) base; { s with mach := { s.mach with core := { s.mach.core with net := { s.mach.core.net with off := [8 * inputKey 25 2 3 + 2] } } } }
def er : List (Nat×Nat×Nat) := [(0,0,1),(0,1,1),(0,2,1),(0,3,1),(0,4,1)]
def f3 : Flying := { fl 24 7 with resends := 3, out := 1 }
def ntfy : Nat := base.pageAddr 0x60800 + 2^45 * 3
def hub (c : Core) : Core := (hubOn c).wr R.LDG_NOTIFY_ADDR ntfy
def dn : Notice := ⟨4,0,0x42,77⟩
def dn2 : Notice := ⟨5,0,0x01,7⟩
def N (o : Nat) := 4*2^42 + o
def fe : Fetch := { tag := 7, slice := 5, addr := N 64, write := true, data := List.replicate 64 1 }
def akA : Arrival := { id := 7, unit := 965, pkt := { typ := 4, status := 0, part := 7, dst := (5*2^35+2^42), src := N 64, seq := 9 } }
def fr : Fetch := { tag := 7, slice := 5, addr := N 64, write := false }
def rdA : Arrival := { id := 7, unit := 965, pkt := { typ := 3, part := 7, dst := (5*2^35+2^42), src := N 64, seq := 9, len := 64, payload := List.replicate 63 2 ++ [9] } }
def rqA : Arrival := { id := 7, unit := 965, pkt := { typ := 2, ackreq := true, len := 8, dst := (5*2^35+2^42+256), src := T 4 (5*2^28), seq := 9, part := 1 } }
def rpA : Arrival := { id := 7, unit := 1060, port := some 3, pkt := { typ := 2, ackreq := true, len := 8, dst := base.pageAddr 0x10000, src := 3 * 2^45, seq := 9, part := 1 } }
def la (o n : Nat) : Arrival := { id := 7, unit := 960, pkt := { typ := 2, ackreq := true, len := n, dst := N o, src := T 4 (5*2^28), seq := 9 } }
def lx (o : Nat) := N o / 64 * 64
def ln (o : Nat) : CLine := ⟨base.sliceFor (lx o), lineSet (lineTag (lx o)), 3, lineTag (lx o), true, 0⟩
def lS (l : List CLine) (o n : Nat) := up { (hubOn base) with net := { arr := [la o n] }, lar := { lines := l } }
def mx (op : Nat) (cur : Nat) : Cmd := { cmd 961 3 op [(64, N 0),(128, 1)] with cursor := cur }
def mS' (x : Cmd) (by' : Nat) (ls : List CLine) := onc x (fun c => { (hubOn c).wr R.LAR_ILVCTL_BYPASS by' with lar := { lines := ls } })
def mc (op : Nat) : Cmd := { mx op 0 with committed := true }
def scS : State := let s := withMem [(sliceBase 95 + 64*65535, 7)] (up ((base.wr (R.LAR_CTL_MODE 95) 1).wr (R.LAR_CTL_WCLASS 95) 1)); { s with mach := { s.mach with errs := SMap.set [] [] (sliceLineId 95 65535) [(5,3)] } }
def dl (es : List (Nat×Nat)) : List (Nat×Nat) := match decodeLine true es with | .word l _ => l | _ => []
def dk (es : List (Nat×Nat)) : Nat := match decodeLine true es with | .word _ k => k | _ => 0
def sx := cmd 5 5 0x39 [(64,3)]
def man : List Byte := padTo 224 [3,0,1,0]
def cryS (x : CrySt) (f : Core → Core) : State := up (f ({ base with cry := x }.wr R.CH_CRCTL_SLICE 95))
def cr0 : CrySt := { manifest := man, targets := [0, 5, 959], ended := false, own := true }
def sw1 : State := onc pm (tested 5)
def sw2 : State := withMem (writeBytes [] (tileBase 5 + 16) gl) (onc ga (tested 5))
def sw3 : State := onc ga2 (tested 5)
def aw1 : Nat := T 6 5
def sw4 : State := onc pd (tested 5)
def sw5 : State := onc gd (tested 5)
def sw6 : State := onc gad (tested 5)
def sw7 : State := one cd
def sw8 : State := one tz
def sw9 : State := one (rq 0 0x40 0 0)
def xw1 : Cmd := rq 0 0x40 0 0
def sw10 : State := onc (rg 15 (w 0 64 0 1)) (fun c => (tested 0 c).wr (R.WGH_DOMST_MODE 0) 2)
def xw2 : Cmd := rg 15 (w 0 64 0 1)
def sw11 : State := onc (rg 2 (w 0 4 0 1)) (fun c => region 0 2 0 4 0 0 (tested 0 c))
def xw3 : Cmd := rg 2 (w 0 4 0 1)
def sw12 : State := fS fq base
def fw1 : Flying := fl 24 7
def pw1 : Packet := (nx full (fl 24 7)).1
def sw13 : State := fS f3 base
def pw2 : Packet := (nx (fS f3 base) f3).1
def sw14 : State := up { (hub base).wr R.TMB_NOW_NOW 1000 with log := { due := [dn, dn2], lastNotice := some 0 } }
def restw1 : List Notice := [dn2]
def sw15 : State := up { base with lar := { fetches := [fe] }, net := { arr := [akA] } }
def sw16 : State := up { base with lar := { fetches := [fr] }, net := { arr := [rdA] } }
def sw17 : State := withMem [(sliceBase 5 + 256, 7)] (up { base.wr (R.LAR_CTL_MODE 5) 1 with net := { arr := [rqA] } })
def sw18 : State := up { base with net := { arr := [rpA] } }
def sw19 : State := lS [] 130 60
def aw2 : Arrival := la 130 60
def xw4 : Nat := lx 130
def sw20 : State := mS' (mc 0x3C) 0 []
def xw5 : Cmd := mc 0x3C
def sw21 : State := mS' (mc 0x3D) 0 []
def xw6 : Cmd := mc 0x3D
def sw22 : State := mS' (mx 0x3E 2) 0 []
def xw7 : Cmd := mx 0x3E 2
def sw23 : State := mS' (mx 0x3E 1) 0 [ln 64, ln 128, ln 0]
def sw24 : State := mS' (mx 0x3E 1) 0 []
def xw8 : Cmd := mx 0x3E 1
def aw3 : Nat := N 64
def lw1 : CLine := ln 64
def lw2 : List (Nat × Nat) := dl [(5,3)]
def kw1 : Nat := dk [(5,3)]
def sw25 : State := onc sx (fun c => (hubOn c).wr (R.CH_SEAL_LO_SEAL 1) 5)
def sw26 : State := cryS { cr0 with msgs := [(.report, 959)] } (fun c => c.wr (R.LDG_FP_ROW_ABSENT 47) (2^19))
theorem witness_MoverIssuesTheNextPart_5 :
    Runs sw1 5 5 0 48 pm ∧
    pm.more = true ∧
    sw1.mach.core.streamRoom 5 (rmRemote pm.word) pm.width = true ∧
    (5 < 960 →
      sw1.mach.core.queues.seen = [] ∧
        sw1.mach.ReadsNow pm clsMover (bits (rmLocal pm.word) 0 20 + 512 * (pm.parts.length / pm.width))
          (min 512 (rmLen pm.word - 512 * (pm.parts.length / pm.width)))) ∧
    (960 ≤ 5 →
      sw1.mach.core.unitThere (960 + bits (rmLocal pm.word) 22 7) = true ∧
        sw1.mach.core.rd (R.LAR_CTL_STATE (bits (rmLocal pm.word) 22 7)) ≠ 1 ∧
          sw1.mach.core.rd (R.LAR_CTL_MODE (bits (rmLocal pm.word) 22 7)) ≠ 0 ∧
            ∀
              i ∈
                touched 6 (bits (rmLocal pm.word) 0 22 + 512 * (pm.parts.length / pm.width))
                  (min 512 (rmLen pm.word - 512 * (pm.parts.length / pm.width))),
              sw1.mach.lineErrs (sliceLineId (bits (rmLocal pm.word) 22 7) i) = []) ∧
    rmMC pm.word ≠ 0 ∧
    spanStatus (rmRemote pm.word) (512 * (pm.parts.length / pm.width))
        (min 512 (rmLen pm.word - 512 * (pm.parts.length / pm.width))) =
      none ∧
    pm.width ≠ 0 ∧
    sw1.mach.core.spanPresent (rmRemote pm.word + 512 * (pm.parts.length / pm.width)) (decide (rmMC pm.word = 2))
        (rmMlast pm.word) ≠
      [] := by
  unfold Runs Machine.Mach.ReadsNow; decide +kernel
theorem witness_MoverIssuesTheNextPart_6 :
    Runs sw2 5 6 0 50 ga ∧
    5 < 960 ∧
    ga.gather = [] ∧
    sw2.mach.core.queues.seen = [] ∧
    sw2.mach.ReadsNow ga clsMover (gaList ga.word) (16 * gaCount ga.word) := by
  unfold Runs Machine.Mach.ReadsNow; decide +kernel
theorem witness_MoverIssuesTheNextPart_7 :
    Runs sw3 5 6 0 50 ga2 ∧
    5 < 960 ∧
    ga2.gather ≠ [] ∧
    ga2.more = true ∧
    gatherPart ga2.gather ga2.parts.length = some (aw1, 0, 3, 700) ∧
    sw3.mach.core.partStatus ga2 aw1 0 3 = none ∧
    sw3.mach.core.streamRoom 5 aw1 1 = true := by
  unfold Runs; decide +kernel
theorem witness_MoverIssuesTheNextPart_8 :
    pd.more = false ∧
    pd.cut = false ∧
    (∀ p ∈ pd.parts, p.status = some stOK) ∧
    pd.parts.length = pd.p ∧
    Runs sw4 5 5 0 48 pd := by
  unfold Runs; decide +kernel
theorem witness_MoverIssuesTheNextPart_9 :
    gd.more = false ∧
    gd.cut = false ∧
    (∀ p ∈ gd.parts, p.status = some stOK) ∧
    gd.parts.length = gd.p ∧
    Runs sw5 5 6 0 49 gd := by
  unfold Runs; decide +kernel
theorem witness_MoverIssuesTheNextPart_10 :
    gad.more = false ∧
    gad.cut = false ∧
    (∀ p ∈ gad.parts, p.status = some stOK) ∧
    gad.parts.length = gad.p ∧
    Runs sw6 5 6 0 50 gad ∧
    5 < 960 ∧
    gad.gather ≠ [] := by
  unfold Runs; decide +kernel
theorem witness_MoverIssuesTheNextPart_11 :
    cd.more = false ∧
    cd.cut = false ∧
    (∀ p ∈ cd.parts, p.status = some stOK) ∧
    cd.parts.length = cd.p ∧
    Runs sw7 961 3 0 51 cd := by
  unfold Runs; decide +kernel
theorem witness_TallyCommandsActOnTheirTally_7 :
    sw8.live = true ∧
    isQueue 3 7 = true ∧
    sw8.mach.core.head? 3 7 = some tz ∧
    tz.phase = CPhase.fetched ∧
    tz.opcode = 2 ∧
    bits tz.word 70 20 = 0 ∧
    (List.filter Cmd.started (sw8.mach.core.others tz)).length < inflightLimit tz.unit tz.q ∧
    (tz.fence = true → sw8.mach.core.others tz = []) := by
  decide +kernel
theorem witness_BankClassesChangeAndSettle_4 :
    0 < 960 ∧
    Runs sw9 0 7 0 4 xw1 ∧
    rwBlk xw1.word = 0 ∧
    rwOfs xw1.word = 64 ∧
    xw1.committed = false ∧
    (∀ b < 16, bits (masked (BitVec.toNat (sw9.mach.core.tword 0 4160)) (rwValue xw1.word) (rwBits xw1.word)) (3 * b) 3 ≤ 4) := by
  unfold Runs; decide +kernel
theorem witness_BankClassesChangeAndSettle_5 :
    0 < 960 ∧
    Runs sw9 0 7 0 4 xw1 ∧
    rwBlk xw1.word = 0 ∧
    rwOfs xw1.word = 64 ∧
    xw1.committed = false ∧
    (∀ b < 16, bits (masked (BitVec.toNat (sw9.mach.core.tword 0 4160)) (rwValue xw1.word) (rwBits xw1.word)) (3 * b) 3 ≤ 4) ∧
    (∀ b < 16,
      sw9.mach.core.trd 0 (R.MEM_BANKMAP_CLASS b) =
        bits (masked (BitVec.toNat (sw9.mach.core.tword 0 4160)) (rwValue xw1.word) (rwBits xw1.word)) (3 * b) 3) ∧
    sw9.mach.core.trd 0 R.MEM_BANKMAP_PEND = 0 := by
  unfold Runs; decide +kernel
theorem witness_RegionsChangeModeAndSettle_12 :
    0 < 960 ∧
    15 < 16 ∧
    Runs sw10 0 7 0 4 xw2 ∧
    rwBlk xw2.word = 0 ∧
    rwOfs xw2.word = 256 + 8 * 15 ∧
    xw2.committed = false ∧
    (¬(sw10.mach.core.rd (R.WGH_DOMST_MODE (0 / 20 / 2)) ≠ 1 ∧ sw10.mach.core.rd (R.WGH_DOMST_MODE (0 / 20 / 2)) ≠ 2)) := by
  unfold Runs; decide +kernel
theorem witness_RegionsChangeModeAndSettle_13 :
    0 < 960 ∧
    2 < 16 ∧
    Runs sw11 0 7 0 4 xw3 ∧
    rwBlk xw3.word = 0 ∧
    rwOfs xw3.word = 256 + 8 * 2 ∧
    xw3.committed = false ∧
    (sw11.mach.core.rd (R.WGH_DOMST_MODE (0 / 20 / 2)) ≠ 1 ∧ sw11.mach.core.rd (R.WGH_DOMST_MODE (0 / 20 / 2)) ≠ 2) ∧
    sw11.mach.core.rgnIgnored 0 2 (BitVec.toNat (sw11.mach.core.tword 0 (4352 + 8 * 2)))
        (masked (BitVec.toNat (sw11.mach.core.tword 0 (4352 + 8 * 2))) (rwValue xw3.word) (rwBits xw3.word))
        (decide (rwBits xw3.word &&& 49152 ≠ 0)) =
      false ∧
    decide (rgnField (BitVec.toNat (sw11.mach.core.tword 0 (4352 + 8 * 2))) R.MEM_RGN_VALID = 1) = true ∧
    decide
        (rgnField (masked (BitVec.toNat (sw11.mach.core.tword 0 (4352 + 8 * 2))) (rwValue xw3.word) (rwBits xw3.word))
            R.MEM_RGN_VALID =
          1) =
      true ∧
    rgnField (BitVec.toNat (sw11.mach.core.tword 0 (4352 + 8 * 2))) R.MEM_RGN_MODE =
      rgnField (masked (BitVec.toNat (sw11.mach.core.tword 0 (4352 + 8 * 2))) (rwValue xw3.word) (rwBits xw3.word))
        R.MEM_RGN_MODE ∧
    rgnField (BitVec.toNat (sw11.mach.core.tword 0 (4352 + 8 * 2))) R.MEM_RGN_STATE = 0 := by
  unfold Runs; decide +kernel
theorem witness_PacketsHopRetryAndEscape_6 :
    sw12.live = true ∧
    sw12.mach.core.net.fly[0]? = some fq ∧
    fq.queued = true ∧
    sw12.mach.core.hasRoom fq.here fq.plane fq.inp fq.pkt.vc fq.pkt.flits = true := by
  decide +kernel
theorem witness_PacketsHopRetryAndEscape_7 :
    full.live = true ∧
    full.mach.core.net.fly[0]? = some fw1 ∧
    fw1.queued = false ∧
    fw1.pkt.hops < 255 ∧
    full.mach.core.nextPort fw1 = (pw1, some 1) ∧
    neighbour fw1.here 1 = some 25 ∧
    full.mach.core.linkState fw1.here fw1.plane 1 = 0 ∧
    full.mach.core.hasRoom 25 fw1.plane (opposite 1) pw1.vc pw1.flits = false := by
  decide +kernel
theorem witness_PacketsHopRetryAndEscape_8 :
    sw13.live = true ∧
    sw13.mach.core.net.fly[0]? = some f3 ∧
    f3.queued = false ∧
    f3.pkt.hops < 255 ∧
    sw13.mach.core.nextPort f3 = (pw2, some 1) ∧
    neighbour f3.here 1 = some 25 ∧
    sw13.mach.core.linkState f3.here f3.plane 1 = 0 ∧
    sw13.mach.core.hasRoom 25 f3.plane (opposite 1) pw2.vc pw2.flits = true ∧
    sw13.mach.core.firstAt f3 = true ∧
    decodePacket pw2.wire er = none ∧
    f3.here < 1104 ∧
    f3.plane < 3 ∧
    1 < 6 ∧
    (if f3.out = 1 then f3.resends else 0) = 3 := by
  decide +kernel
theorem witness_NoticesAreRecordedAndSent_3 :
    sw14.live = true ∧
    sw14.mach.core.log.due = dn :: restw1 ∧
    (∀ (t : Nat), sw14.mach.core.log.lastNotice = some t → 1000 ≤ sw14.mach.core.now - t) ∧
    (sw14.mach.core.hubActive = true ∧
      sw14.mach.core.rd R.LDG_NOTIFY_ADDR ≠ 0 ∧
        (sw14.mach.core.route (sw14.mach.core.rd R.LDG_NOTIFY_ADDR) (sw14.mach.core.unitRouter unitSeam)).isSome = true) := by
  decide +kernel
theorem witness_PartsEndAndStreamsAreReleased_6 :
    sw15.live = true ∧
    sw15.mach.core.net.arr[0]? = some akA ∧
    akA.pkt.typ = 4 ∧
    adClass akA.pkt.dst = 1 ∧
    sw15.mach.core.fetchOf akA.pkt = some fe ∧
    fe.write = true ∧
    fe.waiters = [] ∧
    akA.pkt.status = stOK ∧
    fe.inval = false := by
  decide +kernel
theorem witness_ReadsAreServedAndAnswered_5 :
    sw16.live = true ∧
    sw16.mach.core.net.arr[0]? = some rdA ∧
    rdA.pkt.typ = 3 ∧
    rdA.land = none ∧
    adClass rdA.pkt.dst = 1 ∧
    sw16.mach.core.fetchOf rdA.pkt = some fr ∧
    fr.write = false ∧
    fr.shut = false ∧
    fr.waiters = [] ∧
    rdA.pkt.payload.length = 64 ∧
    sw16.mach.core.noAlloc fr.slice fr.addr = false ∧
    sw16.mach.core.cline? fr.slice (lineTag fr.addr) = none := by
  decide +kernel
theorem witness_ReadsAreServedAndAnswered_6 :
    sw17.live = true ∧
    sw17.mach.core.net.arr[0]? = some rqA ∧
    rqA.pkt.typ = 2 ∧
    rqA.accepted = false ∧
    rqA.seen = [] ∧
    sw17.mach.core.holdRoom rqA.unit rqA.pkt = true ∧
    sw17.mach.core.inService rqA = false ∧
    sw17.mach.core.holdStatus rqA = none ∧
    sw17.mach.errs = [] ∧
    5 < 96 ∧
    rqA.unit = 960 + 5 ∧
    adClass rqA.pkt.dst = 1 ∧
    sw17.mach.core.rd (R.LAR_CTL_STATE 5) ≠ 1 := by
  decide +kernel
theorem witness_ReadsAreServedAndAnswered_7 :
    sw18.live = true ∧
    sw18.mach.core.net.arr[0]? = some rpA ∧
    rpA.pkt.typ = 2 ∧
    rpA.accepted = false ∧
    rpA.seen = [] ∧
    adClass rpA.pkt.dst = 2 ∧
    (∀ (q : Nat), rpA.port = some q → q < 4) ∧
    adPageOff rpA.pkt.dst % 8 = 0 ∧
    rpA.pkt.len = 8 ∧
    (adT rpA.pkt.dst = 1 → sw18.mach.core.present rpA.unit = true) := by
  decide +kernel
theorem witness_LarderServesAndIsMaintained_7 :
    sw19.live = true ∧
    sw19.mach.core.net.arr[0]? = some aw2 ∧
    0 < 96 ∧
    aw2.unit = 960 + 0 ∧
    (adClass aw2.pkt.dst = 4 ∨ adClass aw2.pkt.dst = 5) ∧
    aw2.pkt.typ = 2 ∧
    aw2.accepted = false ∧
    sw19.mach.core.rd (R.LAR_CTL_STATE 0) ≠ 1 ∧
    sw19.mach.core.holdRoom aw2.unit aw2.pkt = true ∧
    sw19.mach.core.inService aw2 = false ∧
    sw19.mach.core.unitThere aw2.unit = true ∧
    aw2.pkt.dst % 2 ^ 42 + aw2.pkt.len ≤ 2 ^ 42 ∧
    sw19.mach.errs = [] ∧
    (∀ f ∈ sw19.mach.core.lar.fetches, aw2.id ∉ f.waiters) ∧
    lineAddrs aw2.pkt.dst aw2.pkt.len = [xw4] ∧
    sw19.mach.core.merge? xw4 = none ∧
    sw19.mach.core.sliceFor xw4 < 96 ∧
    sw19.mach.core.cline? (sw19.mach.core.sliceFor xw4) (lineTag xw4) = none ∧
    sw19.mach.core.joinable xw4 = none ∧
    sw19.mach.core.writing xw4 = false ∧
    (sw19.mach.core.wayOut xw4 (sw19.mach.core.unitRouter (960 + sw19.mach.core.sliceFor xw4))).isSome = true := by
  decide +kernel
theorem witness_LarderServesAndIsMaintained_8 :
    Runs sw20 961 3 0 60 xw5 ∧
    decide (sw20.mach.core.rd R.LAR_ILVCTL_BYPASS = 1) = false ∧
    xw5.committed = true ∧
    (∀ g ∈ sw20.mach.core.lar.fetches, Option.map Prod.fst g.owner ≠ some xw5.owner) := by
  unfold Runs; decide +kernel
theorem witness_LarderServesAndIsMaintained_9 :
    Runs sw21 961 3 0 61 xw6 ∧
    decide (sw21.mach.core.rd R.LAR_ILVCTL_BYPASS = 1) = false ∧
    xw6.committed = true ∧
    (∀ g ∈ sw21.mach.core.lar.fetches, Option.map Prod.fst g.owner ≠ some xw6.owner) := by
  unfold Runs; decide +kernel
theorem witness_LarderServesAndIsMaintained_10 :
    Runs sw22 961 3 0 62 xw7 ∧
    decide (sw22.mach.core.rd R.LAR_ILVCTL_BYPASS = 1) = false ∧
    lnLines xw7.word ≤ xw7.cursor ∧
    (∀ g ∈ sw22.mach.core.lar.fetches, Option.map Prod.fst g.owner ≠ some xw7.owner) := by
  unfold Runs; decide +kernel
theorem witness_LarderServesAndIsMaintained_11 :
    Runs sw23 961 3 0 62 xw8 ∧
    decide (sw23.mach.core.rd R.LAR_ILVCTL_BYPASS = 1) = false ∧
    xw8.cursor < lnLines xw8.word ∧
    partAddr (rmRemote xw8.word) (64 * xw8.cursor) = some aw3 ∧
    sw23.mach.core.unitThere (960 + sw23.mach.core.sliceFor aw3) = true ∧
    sw23.mach.core.noAlloc (sw23.mach.core.sliceFor aw3) aw3 = false ∧
    sw23.mach.core.cline? (sw23.mach.core.sliceFor aw3) (lineTag aw3) = some lw1 := by
  unfold Runs; decide +kernel
theorem witness_LarderServesAndIsMaintained_12 :
    Runs sw24 961 3 0 62 xw8 ∧
    decide (sw24.mach.core.rd R.LAR_ILVCTL_BYPASS = 1) = false ∧
    xw8.cursor < lnLines xw8.word ∧
    partAddr (rmRemote xw8.word) (64 * xw8.cursor) = some aw3 ∧
    sw24.mach.core.unitThere (960 + sw24.mach.core.sliceFor aw3) = true ∧
    sw24.mach.core.noAlloc (sw24.mach.core.sliceFor aw3) aw3 = false ∧
    sw24.mach.core.cline? (sw24.mach.core.sliceFor aw3) (lineTag aw3) = none ∧
    sw24.mach.core.writing aw3 = false ∧
    sw24.mach.core.joinable aw3 = none ∧
    (sw24.mach.core.wayOut aw3 (sw24.mach.core.unitRouter (960 + sw24.mach.core.sliceFor aw3))).isSome = true := by
  unfold Runs; decide +kernel
theorem witness_ScrubbingRewritesCorrectableLines_4 :
    scS.live = true ∧
    0 < 960 ∧
    0 < 16384 ∧
    95 < 96 ∧
    65535 < 65536 ∧
    scS.mach.core.unitThere (960 + 95) = true ∧
    scS.mach.core.rd (R.LAR_CTL_MODE 95) = 1 ∧
    scS.mach.core.rd (R.LAR_CTL_STATE 95) = 0 ∧
    scS.mach.core.rd (R.LAR_CTL_WCLASS 95) = 1 ∧
    scS.mach.lineErrs (sliceLineId 95 65535) ≠ [] ∧
    decodeLine true (scS.mach.lineErrs (sliceLineId 95 65535)) = Decoded.word lw2 kw1 := by
  decide +kernel
theorem witness_SealsAreFoldedAndExchanged_5 :
    5 < 960 ∧
    Runs sw25 5 5 0 57 sx ∧
    (∀ r ∈ sw25.mach.core.bell.exchanged, r.1 ≠ sx.sealStep) ∧
    (∀ y ∈ sw25.mach.core.sealxOf sx.sealStep, y.parts = []) ∧
    (sw25.mach.core.wayOut sw25.mach.core.twinSeal sw25.mach.core.seamRouter).isSome = true ∧
    sw25.mach.core.streamRoom 5 sw25.mach.core.twinSeal 1 = true := by
  unfold Runs; decide +kernel
theorem witness_BroadcastsAreCollectedStartedAndRelayed_11 :
    sw26.live = true ∧
    959 < 960 ∧
    (sw26.mach.core.present 959 = false ∨ sw26.mach.core.tileDark 959 = true) ∧
    sw26.mach.core.cry.msgs.contains (CryKind.report, 959) = true ∧
    sw26.mach.core.broadcastOver 959 = true := by
  decide +kernel
end Sys2Proof.Tests.S37

namespace Sys2Proof.Tests.S22
open Sys2Proof.Tests
/-! Witnesses whose hypotheses rest on a signature: no value of a signature check can be computed (log entry 32), so each is met
by the state shown whenever the check answers that the signature is good. The digests are SHA-384 of FIPS 180-4. -/

/-- A firmware header of release 1.1.0 with SVN 1 for the 16-byte body 00h to 0Fh. -/
def hdr (svn : Nat) : List Byte :=
  [2, 0, 0, 0, 16, 0, 0, 0, 0, 1, 1, 0, BitVec.ofNat 8 svn, 0, 0, 0]
    ++ [0xC8, 0x1D, 0xF9, 0x8D, 0x9E, 0x6D, 0xE9, 0xB8, 0x58, 0xA1, 0xE6, 0xEB, 0xA0, 0xF1, 0xA3, 0xA3, 0x99, 0xD9, 0x8C, 0x44, 0x1E, 0x67, 0xE1, 0x06, 0x26, 0x01, 0x80, 0x64, 0x85, 0xBB, 0x89, 0x12, 0x5E, 0xFD, 0x54, 0xCC, 0x78, 0xDF, 0x5F, 0xBC, 0xEA, 0xBC, 0x93, 0xCD, 0x7C, 0x7B, 0xA1, 0x3B] ++ List.replicate 96 7
def fwc : MbReq := mreq 0x1A []
def fwS (svn rom : Nat) : State :=
  let s := withMem (writeBytes [] (bankBase 1) [0, 1, 2, 3, 4, 5, 6, 7, 8, 9, 10, 11, 12, 13, 14, 15])
    (mS fwc (fun c => { c.wr R.CH_FWVER_ROM rom with fw := { staged := some (1, hdr svn), written := [(8, 8), (0, 8)] } }))
  { s with fuses := { s.fuses with fwsvn := 1 } }
def fwGood (s : State) (h : List Byte) : Bool :=
  s.fuses.imageGood h (s.mach.read (bankBase 1) (leAt h 4 4))
    (decide (coveredTo s.mach.core.fw.written s.mach.core.fw.written.length 0 = leAt h 4 4))
theorem image_good {f : Fuses} {h body : List Byte} {whole : Bool} (h0 : whole = true)
    (h1 : decide (sha384 body = (h.drop 16).take 48) = true) (h2 : f.fwrev = 0)
    (h3 : Config.sigGood 0 0 (h.take 64) ((h.drop 64).take 96) = true) : f.imageGood h body whole = true := by
  have k : keyGen 0 = some 0 := by decide
  simp only [Fuses.imageGood, sigUnder, h2, k, h0, h1, h3, Bool.and_self]
theorem witness_FirmwareIsStagedWrittenAndCommitted_signed_1
    (h : Config.sigGood 0 0 ((hdr 0).take 64) (((hdr 0).drop 64).take 96) = true) :
    Turn (fwS 0 0) (mbIs 0x1A) fwc ∧ (fwS 0 0).mach.core.fw.staged = some (1, hdr 0) ∧ fwGood (fwS 0 0) (hdr 0) = true ∧
    leAt (hdr 0) 12 2 < (fwS 0 0).fuses.fwsvn :=
  ⟨by unfold Turn SlotsOk; decide +kernel, by decide +kernel,
    image_good (by decide +kernel) (by decide +kernel) (by decide +kernel) h, by decide +kernel⟩
theorem witness_FirmwareIsStagedWrittenAndCommitted_signed_2
    (h : Config.sigGood 0 0 ((hdr 1).take 64) (((hdr 1).drop 64).take 96) = true) :
    Turn (fwS 1 0) (mbIs 0x1A) fwc ∧ (fwS 1 0).mach.core.fw.staged = some (1, hdr 1) ∧ fwGood (fwS 1 0) (hdr 1) = true ∧
    (fwS 1 0).fuses.fwsvn ≤ leAt (hdr 1) 12 2 ∧ (fwS 1 0).mach.core.rd R.CH_FWVER_ROM = 0 :=
  ⟨by unfold Turn SlotsOk; decide +kernel, by decide +kernel,
    image_good (by decide +kernel) (by decide +kernel) (by decide +kernel) h, by decide +kernel, by decide +kernel⟩
theorem witness_FirmwareIsStagedWrittenAndCommitted_signed_3
    (h : Config.sigGood 0 0 ((hdr 1).take 64) (((hdr 1).drop 64).take 96) = true) :
    Turn (fwS 1 1) (mbIs 0x1A) fwc ∧ (fwS 1 1).mach.core.fw.staged = some (1, hdr 1) ∧ fwGood (fwS 1 1) (hdr 1) = true ∧
    (fwS 1 1).fuses.fwsvn ≤ leAt (hdr 1) 12 2 ∧ (fwS 1 1).mach.core.rd R.CH_FWVER_ROM = 1 :=
  ⟨by unfold Turn SlotsOk; decide +kernel, by decide +kernel,
    image_good (by decide +kernel) (by decide +kernel) (by decide +kernel) h, by decide +kernel, by decide +kernel⟩

/-- A history record of one entry for a chiplet whose certificate is all zeros. -/
def rec4 : List Byte :=
  [4, 0, 1, 0, 9, 0, 0, 0] ++ [0xF5, 0x7B, 0xB7, 0xED, 0x82, 0xC6, 0xAE, 0x4A, 0x29, 0xE6, 0xC9, 0x87, 0x93, 0x38, 0xC5, 0x92, 0xC7, 0xD4, 0x2A, 0x39, 0x13, 0x55, 0x83, 0xE8, 0xCC, 0xBE, 0x39, 0x40, 0xF2, 0x34, 0x4B, 0x0E, 0xB6, 0xEB, 0x85, 0x03, 0xDB, 0x0F, 0xFD, 0x6A, 0x39, 0xDD, 0xD0, 0x0C, 0xD0, 0x7D, 0x83, 0x17] ++ List.replicate 8 0 ++ List.replicate 16 1
    ++ List.replicate 96 5
def his : MbReq := mreq 0x68 (padTo 16 ([0, 0, 0, 0, 176, 0, 1]) ++ rec4)
def hisS : State := mS his (fun c => c.wr R.LDG_FP_SUMMARY_VALID 0)
def hisGot : List (Nat × Nat) := hisS.mach.core.led.got ++ [(his.field 0 4, his.field 4 2)]
def hisAll : List Byte := (hisS.mach.write (historyBase + his.field 0 4) (his.data (his.field 4 2))).read historyBase (presentedEnd hisGot)
theorem witness_InformationAndHistoryAreExchanged_signed_1
    (h : Config.identityGood (padTo 208 []) (rec4.take 80) (rec4.drop 80) = true) :
    Turn hisS (mbIs 0x68) his ∧ ¬ (hisS.mach.core.rd R.STG_STATUS_PASSL = 1 ∨ hisS.mach.core.rd R.LDG_FP_SUMMARY_VALID = 1) ∧
    his.byte 6 ≠ 0 ∧
    (decide (coveredTo hisGot hisGot.length 0 = presentedEnd hisGot) && hisS.fuses.historyGood hisAll) = true := by
  have e : hisAll = rec4 := by decide +kernel
  have c : hisS.fuses.certificate = padTo 208 [] := by decide +kernel
  have n : 64 + 16 * leAt rec4 2 2 = 80 := by decide +kernel
  have a : (decide (leAt rec4 0 2 = 4) && decide (rec4.length = 80 + 96)
    && decide ((rec4.drop 8).take 48 = hisS.fuses.idHash)) = true := by decide +kernel
  refine ⟨by unfold Turn SlotsOk; decide +kernel, by decide +kernel, by decide +kernel, ?_⟩
  rw [Bool.and_eq_true]
  refine ⟨by decide +kernel, ?_⟩
  rw [e]
  simp only [Fuses.historyGood, n, c]
  rw [a, h]
  rfl

/-- An epoch notice for a chiplet whose certificate is all zeros. -/
def notice : List Byte :=
  [5, 0, 0, 0, 1, 0, 0, 0, 63, 0, 2, 3, 0, 0, 0, 0] ++ [0xF5, 0x7B, 0xB7, 0xED, 0x82, 0xC6, 0xAE, 0x4A, 0x29, 0xE6, 0xC9, 0x87, 0x93, 0x38, 0xC5, 0x92, 0xC7, 0xD4, 0x2A, 0x39, 0x13, 0x55, 0x83, 0xE8, 0xCC, 0xBE, 0x39, 0x40, 0xF2, 0x34, 0x4B, 0x0E, 0xB6, 0xEB, 0x85, 0x03, 0xDB, 0x0F, 0xFD, 0x6A, 0x39, 0xDD, 0xD0, 0x0C, 0xD0, 0x7D, 0x83, 0x17]
    ++ List.replicate 32 0 ++ List.replicate 96 6
def adv : MbReq := mreq 0x60 (padTo 16 [2] ++ notice)
def advS : State := mS adv id
theorem witness_HallmarksArePresentedClearedAndAdvanced_signed_1
    (h : Config.sigGood 2 0 (notice.take 96) ((notice.drop 96).take 96) = true) :
    Turn advS (mbHallmark 2) adv ∧ adv.hallmarkForm = none ∧ advS.fuses.noticeGood adv.blob = true := by
  have e : adv.blob = notice := by decide +kernel
  have k : keyGen advS.fuses.hmrev = some 0 := by decide +kernel
  have b : advS.fuses.boundTo notice = true := by decide +kernel
  have a : (decide (hmTier notice = 0) && decide (hmSerial notice ≠ 0) && decide (hmEpoch notice ≤ 63) && decide (hmFwsvn notice ≤ 63)
    && decide (hmTsvn notice ≤ 63) && blobZeros notice) = true := by decide +kernel
  refine ⟨by unfold Turn SlotsOk; decide +kernel, by decide +kernel, ?_⟩
  rw [e]
  simp only [Fuses.noticeGood, Fuses.blobSigned, sigUnder, k]
  rw [a, b, h]
  rfl

/-- The manifest of one chunk of 4,096 zero bytes. -/
def man : List Byte :=
  [3, 0, 1, 0] ++ List.replicate 60 0 ++ [0xC0, 0xE5, 0x9A, 0x3E, 0x3F, 0xFB, 0xD3, 0xB5, 0xC7, 0x54, 0x28, 0xFB, 0x36, 0x43, 0x2F, 0xAC, 0xAB, 0xC7, 0x45, 0x94, 0x42, 0x96, 0xFF, 0x51, 0x5F, 0x73, 0x7C, 0x4F, 0xEF, 0x4E, 0xFC, 0x64, 0x58, 0x68, 0x09, 0xF7, 0xA1, 0x6F, 0x56, 0x35, 0x4A, 0x1E, 0xAE, 0xCF, 0x2A, 0xA8, 0xD7, 0x74] ++ List.replicate 16 0 ++ List.replicate 96 0
def few (c : Core) : Core :=
  (((List.range 48).foldl (fun (c : Core) i => c.wr (R.LDG_FP_ROW_ABSENT i) (if i = 40 then 2 ^ 20 - 2 else 2 ^ 20 - 1)) c).wr
    R.STG_STATUS_PASSU 1).wr R.CH_CRCTL_SLICE 95
def cryHost : MbReq := mreq 0x21 [3]
def cryRelay : MbReq := mreq 0x22 [2, 3]
def cryAt (r : MbReq) : State := withMem (writeBytes [] (sliceBase 95 + manifestOff) man) (mS r few)
theorem cry_good {m m1 m2 : Mach} {f : Fuses} {ts : List Nat} {hops : Nat} {mn im : List Byte}
    (h1 : m.manifestBytes false = (m1, some mn)) (h2 : m1.imageBytes false 0 (4096 * min 64 (manChunks mn)) = (m2, some im))
    (h3 : f.tileGood mn im = true) (h4 : (m2.broadcast mn false false ts hops).2 = true) :
    (m.cry f false false ts hops).2 = true := by simp [Mach.cry, h1, h2, h3, h4]
theorem pair_some {α β : Type} {d : β} {p : α × Option β} (h : p.2.isSome = true) : p = (p.1, some (p.2.getD d)) := by
  obtain ⟨a, _ | b⟩ := p <;> simp_all
def manR (m : Mach) : List Byte := (m.manifestBytes false).2.getD []
def imgP (m : Mach) : Mach × Option (List Byte) := (m.manifestBytes false).1.imageBytes false 0 (4096 * min 64 (manChunks (manR m)))
theorem tile_good {f : Fuses} {mn im : List Byte} (n : manChunks mn = 1) (a : leAt mn 0 2 = 3) (b : f.tsvn ≤ leAt mn 8 2)
    (k : keyGen f.trev = some 0) (h : Config.sigGood 1 0 (mn.take 128) ((mn.drop 128).take 96) = true)
    (d : sha384 (im.take 4096) = manHash mn 0) : f.tileGood mn im = true := by
  have l : List.range 1 = [0] := rfl
  simp [Fuses.tileGood, sigUnder, manSigned, n, a, b, k, h, l, d]
/-- What lies above every byte listed reads as zero. -/
theorem image_zero {m : Mach} {n k : Nat} (e : m.errs = []) (c : m.core.crier = k)
    (a : m.mem.all (fun x => decide (x.1 < sliceBase k + imageOff)) = true)
    (l : ((m.imageBytes false 0 n).2.getD []).length = n) : (m.imageBytes false 0 n).2.getD [] = List.replicate n 0 := by
  refine List.eq_replicate_iff.2 ⟨l, fun b hb => ?_⟩
  simp only [Mach.imageBytes, c] at hb
  rw [if_neg (by decide), Mach.sliceRead_clean (fun _ _ => by simp [Mach.lineErrs, e])] at hb
  simp only [Option.getD_some] at hb
  have hb := List.mem_of_mem_drop (List.mem_of_mem_take hb)
  simp only [List.mem_flatMap] at hb
  obtain ⟨q, hq, hb⟩ := hb
  have ⟨j, h1, _, h2⟩ := mem_readBytes hb
  refine h2.trans ?_
  have := touched_ge hq
  refine SMap.get_absent 0 (fun x hx he => ?_)
  have := of_decide_eq_true (List.all_eq_true.1 a x hx)
  simp only [imageOff] at this
  simp only [imageOff] at *
  omega
/-- The machine as its stations begin to take chunks. -/
def begun (m : Mach) (mn : List Byte) (ts : List Nat) (hops : Nat) : Mach :=
  (ts.foldl Mach.setLoading m).onCore (fun c =>
    let c := ((c.wr R.CH_CRSTAT_STATE 2).wr R.CH_CRSTAT_ROUND 0).wr R.CH_CRSTAT_TARGETS ts.length
    let c := ((c.wr R.CH_CRSTAT_VERIFIED 0).wr R.CH_CRSTAT_OOS 0).wr R.CH_CRSTAT_NCHUNK (manChunks mn)
    { c with cry := {
      manifest := mn, default := false, own := false, targets := ts, since := c.now,
      msgs := ts.map (fun t => (.report, t)), hops := hops, ended := false,
      measured := sha384 (mn.take (manSigned mn)) } })
theorem row_good {m m' : Mach} {mn bs : List Byte} {row : Nat} (n : manChunks mn = 1)
    (hI : m.imageBytes false 0 4096 = (m', some bs)) (hd : sha384 bs = manHash mn 0) : (m.rowSends mn false row).2 = true := by
  have l : List.range 1 = [0] := rfl
  simp [Mach.rowSends, Mach.stationImage, Mach.stationChunk, n, l, hI, hd]
theorem broadcast_good {m : Mach} {mn : List Byte} {ts : List Nat} {hops row : Nat} (hr : (ts.map (fun t => t / 20)).dedup = [row])
    (h : ((begun m mn ts hops).rowSends mn false row).2 = true) : (m.broadcast mn false false ts hops).2 = true := by
  unfold Machine.Mach.broadcast
  simp only [hr, List.foldl_cons, List.foldl_nil, if_true]
  exact (congrArg Prod.snd (if_pos h)).trans h
/-- The staged manifest and image are read and the broadcast's machine reads them too, whichever command cries. -/
def readable (m : Mach) (hops : Nat) : Bool :=
  (m.manifestBytes false).2.isSome && (imgP m).2.isSome
    && (((begun (imgP m).1 (manR m) [800] hops).imageBytes false 0 4096)).2.isSome
def sound (m : Mach) : Bool :=
  decide (m.errs = []) && decide (m.core.crier = 95) && m.mem.all (fun x => decide (x.1 < sliceBase 95 + imageOff))
    && decide (((m.imageBytes false 0 4096).2.getD []).length = 4096)
theorem sound_zero {m : Mach} (h : sound m = true) : (m.imageBytes false 0 4096).2.getD [] = List.replicate 4096 0 := by
  simp only [sound, Bool.and_eq_true, decide_eq_true_eq] at h
  exact image_zero h.1.1.1 h.1.1.2 h.1.2 h.2
theorem cry_witness {m : Mach} {f : Fuses} {hops : Nat} (p : readable m hops = true)
    (g : leAt (manR m) 0 2 = 3 ∧ manChunks (manR m) = 1 ∧ (manR m).take 128 = man.take 128 ∧ ((manR m).drop 128).take 96 = man.drop 128 ∧
      manHash (manR m) 0 = (man.drop 64).take 48)
    (i : sound (m.manifestBytes false).1 = true) (j : sound (begun (imgP m).1 (manR m) [800] hops) = true)
    (t : f = {}) (h : Config.sigGood 1 0 (man.take 128) (man.drop 128) = true)
    (d : sha384 (List.replicate 4096 0) = (man.drop 64).take 48) :
    (m.cry f false false [800] hops).2 = true := by
  simp only [readable, Bool.and_eq_true] at p
  have n : (imgP m).2.getD [] = List.replicate 4096 0 := by
    simp only [imgP, g.2.1]; exact sound_zero i
  refine cry_good (pair_some (d := []) p.1.1) (pair_some (d := []) p.1.2) (tile_good g.2.1 g.1 ?_ ?_ ?_ ?_)
    (broadcast_good (row := 40) (by decide) (row_good g.2.1 (pair_some (d := []) p.2) ?_))
  · rw [t]; exact Nat.zero_le _
  · rw [t]; decide
  · show Config.sigGood 1 0 ((manR m).take 128) (((manR m).drop 128).take 96) = true
    rw [g.2.2.1, g.2.2.2.1, h]
  · show sha384 (((imgP m).2.getD []).take 4096) = manHash (manR m) 0
    rw [n, List.take_of_length_le (List.length_replicate ..).le, g.2.2.2.2, d]
  · exact (congrArg sha384 (sound_zero j)).trans (d.trans g.2.2.2.2.symm)
theorem targets_one (r : MbReq) (h : decide ((cryAt r).mach.core.cryTargets = [800]) = true) :
    (cryAt r).mach.core.cryTargets = [800] := of_decide_eq_true h
/-- With `d`, the SHA-384 of 4,096 zero bytes, too long a computation for a test. -/
theorem witness_PiecesAreStagedAndCriesBegin_signed_1 (h : Config.sigGood 1 0 (man.take 128) (man.drop 128) = true)
    (d : sha384 (List.replicate 4096 0) = (man.drop 64).take 48) :
    Turn (cryAt cryHost) (mbIs 0x21) cryHost ∧ cryHost.note = [] ∧
    ((cryAt cryHost).mach.core.rd R.CH_BELLSTEP_STATE = 0 ∧
      (cryAt cryHost).mach.core.cryTargets.all (cryAt cryHost).mach.core.unitIdle = true) ∧
    ((cryAt cryHost).mach.cry (cryAt cryHost).fuses false false (cryAt cryHost).mach.core.cryTargets (cryHost.byte 0 % 16)).2 = true := by
  refine ⟨by unfold Turn SlotsOk; decide +kernel, rfl, by decide +kernel, ?_⟩
  rw [targets_one _ (by decide +kernel), show cryHost.byte 0 % 16 = 3 by decide +kernel]
  exact cry_witness (by decide +kernel) (by decide +kernel) (by decide +kernel) (by decide +kernel) (by decide +kernel) h d
theorem witness_PiecesAreStagedAndCriesBegin_signed_2 (h : Config.sigGood 1 0 (man.take 128) (man.drop 128) = true)
    (d : sha384 (List.replicate 4096 0) = (man.drop 64).take 48) :
    Turn (cryAt cryRelay) (fun r => mbIs 0x22 r && decide (r.byte 0 = 2)) cryRelay ∧ cryRelay.note = [] ∧
    ((cryAt cryRelay).mach.core.rd R.CH_BELLSTEP_STATE = 0 ∧
      (cryAt cryRelay).mach.core.cryTargets.all (cryAt cryRelay).mach.core.unitIdle = true) ∧
    ((cryAt cryRelay).mach.cry (cryAt cryRelay).fuses false false (cryAt cryRelay).mach.core.cryTargets (cryRelay.byte 1 % 16)).2 = true := by
  refine ⟨by unfold Turn SlotsOk; decide +kernel, rfl, by decide +kernel, ?_⟩
  rw [targets_one _ (by decide +kernel), show cryRelay.byte 1 % 16 = 3 by decide +kernel]
  exact cry_witness (by decide +kernel) (by decide +kernel) (by decide +kernel) (by decide +kernel) (by decide +kernel) h d

/-- Stage 6 asked for at stage 5, an image staged. -/
def stageSix : MbReq := mreq 0x10 [6]
def sixS : State := withMem (writeBytes [] (sliceBase 95 + manifestOff) man)
  (mS stageSix (fun c => (((few c).wr R.STG_STATUS_STAGE 5).wr R.STG_STATUS_FULL 0).wr R.TMB_STATUS_CAL_VALID 1))
def sixM : Mach := sixS.mach.onCore (fun c => ((c.wr R.STG_STATUS_FAIL 0).wr R.STG_STATUS_FSTAGE 0).wr R.STG_STATUS_FSTAT 0)
theorem witness_StagesAreReachedAndFollow_signed_1 (h : Config.sigGood 1 0 (man.take 128) (man.drop 128) = true)
    (d : sha384 (List.replicate 4096 0) = (man.drop 64).take 48) :
    Turn sixS (fun r => mbIs 0x10 r && (sixS.mach.core.stageFree || decide (r.byte 0 < 4))) stageSix ∧ stageSix.note = [] ∧
    sixS.mach.core.stageCheck (stageSix.byte 0) (bit (stageSix.byte 1) 0) = none ∧ stageSix.byte 0 = 6 ∧
    sixS.mach.core.rd R.STG_STATUS_STAGE = 5 ∧ sixS.mach.core.cry.ended = true ∧
    (sixM.cry sixS.fuses (!sixM.imageStaged) false sixM.core.cryTargets 0).2 = true := by
  refine ⟨by unfold Turn SlotsOk; decide +kernel, rfl, by decide +kernel, by decide +kernel, by decide +kernel, by decide +kernel, ?_⟩
  rw [show sixM.imageStaged = true by decide +kernel, show sixM.core.cryTargets = [800] by decide +kernel]
  exact cry_witness (by decide +kernel) (by decide +kernel) (by decide +kernel) (by decide +kernel) (by decide +kernel) h d

/-- A piece of an image, and of one relayed, for a crier slice no line of which stands in error. -/
def pieceHost : MbReq := mreq 0x20 (padTo 16 [1, 0, 0, 0, 0, 1, 0, 0, 16] ++ List.replicate 16 9)
def pieceRelay : MbReq := { pieceHost with cmd := 0x22 }
theorem witness_PiecesAreStagedAndCriesBegin_clean_1 :
    Turn (cryAt pieceHost) (mbIs 0x20) pieceHost ∧ (cryAt pieceHost).mach.core.stageRefused = none ∧
    ¬ (262144 < pieceHost.field 4 4 + pieceHost.field 8 2) ∧
    ∀ l, (cryAt pieceHost).mach.lineErrs (sliceLineId (cryAt pieceHost).mach.core.crier l) = [] :=
  ⟨by unfold Turn SlotsOk; decide +kernel, by decide +kernel, by decide +kernel,
    fun _ => by simp [Mach.lineErrs, show (cryAt pieceHost).mach.errs = [] by decide +kernel]⟩
theorem witness_PiecesAreStagedAndCriesBegin_clean_2 :
    Turn (cryAt pieceRelay) (fun r => mbIs 0x22 r && decide (r.byte 0 ≠ 2)) pieceRelay ∧
    (cryAt pieceRelay).mach.core.stageRefused = none ∧ ¬ (262144 < pieceRelay.field 4 4 + pieceRelay.field 8 2) ∧
    ∀ l, (cryAt pieceRelay).mach.lineErrs (sliceLineId (cryAt pieceRelay).mach.core.crier l) = [] :=
  ⟨by unfold Turn SlotsOk; decide +kernel, by decide +kernel, by decide +kernel,
    fun _ => by simp [Mach.lineErrs, show (cryAt pieceRelay).mach.errs = [] by decide +kernel]⟩

/-! ## The statements about every command -/

theorem witness_WellFormedExactlyCompletes_1 : wellFormed (.mma 959 3) = true ∧ wellFormed (.mma 960 3) = false := by decide +kernel
theorem witness_NothingOutsideMovesButByItsRows_1 :
    State.reset.live = false ∧ outsideRow (.nop 0 0 0) = false ∧ exec (.nop 0 0 0) State.reset = .next (after (exec (.nop 0 0 0) State.reset)) :=
  ⟨by decide +kernel, rfl, eq_next (by decide +kernel)⟩
theorem witness_NothingOutsideMovesButByItsRows_2 :
    exec (.nop 0 0 0) (up base) = .next (after (exec (.nop 0 0 0) (up base))) ∧ outsideRow (.nop 0 0 0) = false ∧
    crossingRow (.nop 0 0 0) = false :=
  ⟨eq_next (by decide +kernel), rfl, rfl⟩
theorem witness_NothingOutsideMovesButByItsRows_3 :
    exec (.pendClear 0) (up base) = .next (after (exec (.pendClear 0) (up base))) ∧ controlRow (.pendClear 0) = true :=
  ⟨eq_next (by decide +kernel), rfl⟩
theorem witness_FusesAndTripLatchHold_1 :
    let s : State := { up base with fuses := { hmepoch := 63, fwsvn := 63, tsvn := 63 } }
    step s = .next (after (step s)) ∧ s.fuses.hmepoch ≤ 63 ∧ s.fuses.fwsvn ≤ 63 ∧ s.fuses.tsvn ≤ 63 :=
  ⟨eq_next (by decide +kernel), by decide +kernel⟩
theorem witness_FusesAndTripLatchHold_2 :
    let s : State := { (State.reset) with pwr := { State.reset.pwr with trip := true }, pending := [.tripLatchClear true] }
    step s = .next (after (step s)) ∧ s.pwr.trip = true ∧ (after (step s)).pwr.trip = false :=
  ⟨eq_next (by decide +kernel), by decide +kernel⟩
theorem witness_MemoryKeepsItsForm_1 :
    let s : State := withMem [(tileBase 3, 1), (tileBase 3 + 5, 255)] (up base)
    Memory.wf s.mach.mem ∧ step s = .next (after (step s)) :=
  ⟨by decide +kernel, eq_next (by decide +kernel)⟩
theorem witness_RequestsStandInSlots_1 :
    SlotsOk (mS { mreq 1 [] with port := 5 } id) ∧ step (mS { mreq 1 [] with port := 5 } id) = .next (after (step (mS { mreq 1 [] with port := 5 } id))) :=
  ⟨by unfold SlotsOk; decide +kernel, eq_next (by decide +kernel)⟩
end Sys2Proof.Tests.S22

namespace Sys2Proof.Tests.S23
open Sys2Proof.Tests
/-- A stage of an opcode with ISAT as given. -/
def stageOf (sop isat : Nat) : Stage := ⟨sop + isat * 2 ^ 24⟩
theorem witness_IntegerLanesWrapOrSaturate_1 :
    (stageOf 0x20 1).sop = 0x20 ∧ (stageOf 0x21 0).sop = 0x21 ∧ (stageOf 0x22 1).sop = 0x22 ∧ (stageOf 0x2A 0).sop = 0x2A := by
  decide +kernel
/-- R139: 2,147,483,647 + 1 wraps, and under ISAT saturates with invalid. -/
theorem test_integerLanes :
    laneOp (stageOf 0x20 0) (fun _ => []) 0 0 0 0x7FFFFFFF 1 0 = (0x80000000, {})
      ∧ laneOp (stageOf 0x20 1) (fun _ => []) 0 0 0 0x7FFFFFFF 1 0 = (0x7FFFFFFF, { invalid := true }) := by decide +kernel
end Sys2Proof.Tests.S23

end
end

section
/-! How a row of live control state completes, and the laws of the timebase (R37, R38) and of the counting-house's own epoch
change (Table 10.5). -/

namespace Sys2Proof.Machine

/-! ## Rows of live control state -/

/-- A row of live control state completes with its effect, and leaves the memories and everything outside the machine. -/
theorem completes_onCore {i : Instr} {s : State} {f : Core → Core} {P : State → Prop} (hi : exec i s = s.onCore f) (hl : s.live = true)
    (h : ∀ t, MemKept s t → OutsideKept s t → t.mach.core = f s.mach.core → P t) : Completes i s P := by
  have he : exec i s = .next { s with mach := { s.mach with core := f s.mach.core } } := hi.trans (onCore_live hl f)
  exact ⟨_, he, h _ (onCore_mem (hi.symm.trans he)) (onMach_outside (hi.symm.trans he)) rfl⟩

/-- With no command waiting, a live step is one idle cycle. -/
theorem step_idle {s : State} (hl : s.live = true) (hp : s.pending = []) :
    step s = .next { s with mach := { s.mach with core := s.mach.core.idle } } := by
  have h : step s = s.onCore Core.idle := by unfold step; rw [hp]
  exact h.trans (onCore_live hl Core.idle)

/-! ## The counting-house's own epoch change (R240, Table 10.5) -/

/-- `d` is `c` but for NET_RTCTL and the network's record of its tables. -/
structure EpochOnly (c d : Core) : Prop where
  cword : ∀ off, off ≠ R.NET_RTCTL_ACTIVE.off → d.cword off = c.cword off
  treg : d.treg = c.treg
  queues : d.queues = c.queues
  tmb : d.tmb = c.tmb
  fly : d.net.fly = c.net.fly
  arr : d.net.arr = c.net.arr

namespace EpochOnly

theorem refl (c : Core) : EpochOnly c c := ⟨fun _ _ => rfl, rfl, rfl, rfl, rfl, rfl⟩

theorem trans {c d e : Core} (h : EpochOnly c d) (k : EpochOnly d e) : EpochOnly c e :=
  ⟨fun o ho => (k.cword o ho).trans (h.cword o ho), k.treg.trans h.treg, k.queues.trans h.queues, k.tmb.trans h.tmb, k.fly.trans h.fly,
    k.arr.trans h.arr⟩

theorem rd {c d : Core} (h : EpochOnly c d) (f : Fld) (hf : f.off ≠ R.NET_RTCTL_ACTIVE.off) : d.rd f = c.rd f := by
  unfold Core.rd; rw [h.cword f.off hf]

theorem now {c d : Core} (h : EpochOnly c d) : d.now = c.now := h.rd _ (by decide)
theorem inc {c d : Core} (h : EpochOnly c d) : d.inc = c.inc := h.rd _ (by decide)
theorem slewStep {c d : Core} (h : EpochOnly c d) : d.slewStep = c.slewStep := by unfold Core.slewStep; rw [h.inc, h.tmb]

/-- A change of the network's record that leaves the packets alone. -/
theorem of_net (c : Core) (n : NetSt) (hf : n.fly = c.net.fly) (ha : n.arr = c.net.arr) : EpochOnly c { c with net := n } :=
  ⟨fun _ _ => rfl, rfl, rfl, rfl, hf, ha⟩

/-- A write of a field of NET_RTCTL. -/
theorem of_wr (c : Core) (f : Fld) (v : Nat) (hf : f.off = R.NET_RTCTL_ACTIVE.off) : EpochOnly c (c.wr f v) :=
  ⟨fun o ho => cword_wr_apart c f v o (hf ▸ ho), rfl, rfl, rfl, rfl, rfl⟩

theorem of_setEpoch (c : Core) (e v : Nat) : EpochOnly c (c.setEpoch e v) := by
  unfold Core.setEpoch
  split
  · exact of_wr c _ v rfl
  · exact of_wr c _ v rfl

end EpochOnly

/-- ACTIVE is a field apart from both epochs' states. -/
theorem rd_setEpoch_active (c : Core) (e v : Nat) : (c.setEpoch e v).rd R.NET_RTCTL_ACTIVE = c.rd R.NET_RTCTL_ACTIVE := by
  unfold Core.setEpoch
  split
  · exact Core.rd_wr_apart c _ _ v (by decide) (by decide)
  · exact Core.rd_wr_apart c _ _ v (by decide) (by decide)

theorem epochState_setEpoch_self (c : Core) (e v : Nat) : (c.setEpoch e v).epochState e = v % 4 := by
  unfold Core.setEpoch Core.epochState
  split
  · exact Core.rd_wr_self c _ v (by decide)
  · exact Core.rd_wr_self c _ v (by decide)

/-- The states of the two epochs are fields apart. -/
theorem epochState_setEpoch_other (c : Core) (e v : Nat) (he : e < 2) : (c.setEpoch (1 - e) v).epochState e = c.epochState e := by
  obtain rfl | rfl : e = 0 ∨ e = 1 := by omega
  · exact Core.rd_wr_apart c R.NET_RTCTL_STATE1 R.NET_RTCTL_STATE0 v (by decide) (by decide)
  · exact Core.rd_wr_apart c R.NET_RTCTL_STATE0 R.NET_RTCTL_STATE1 v (by decide) (by decide)

theorem epochState_wr_active (c : Core) (v e : Nat) : (c.wr R.NET_RTCTL_ACTIVE v).epochState e = c.epochState e := by
  unfold Core.epochState
  split
  · exact Core.rd_wr_apart c _ _ v (by decide) (by decide)
  · exact Core.rd_wr_apart c _ _ v (by decide) (by decide)

theorem active_lt (c : Core) : c.rd R.NET_RTCTL_ACTIVE < 2 := Core.rd_lt c _

/-- The counting-house frees the inactive epoch, where the change under way is its own, or does nothing. -/
theorem freeOwn_cases (c : Core) : c.freeOwn = c ∨ (c.net.own = true ∧ c.freeOwn = c.freeEpoch (1 - c.rd R.NET_RTCTL_ACTIVE)) := by
  unfold Core.freeOwn
  simp only
  split
  · next h => exact .inr ⟨h.1, rfl⟩
  · exact .inl rfl

theorem freeEpoch_epochOnly (c : Core) (e : Nat) : EpochOnly c (c.freeEpoch e) :=
  (EpochOnly.of_setEpoch c e 0).trans (EpochOnly.of_net _ _ rfl rfl)

theorem freeOwn_epochOnly (c : Core) : EpochOnly c c.freeOwn := by
  obtain h | ⟨-, h⟩ := freeOwn_cases c
  · rw [h]; exact .refl c
  · rw [h]; exact freeEpoch_epochOnly c _

/-- Freeing leaves the ACTIVE epoch as it is. -/
theorem freeOwn_active (c : Core) : c.freeOwn.rd R.NET_RTCTL_ACTIVE = c.rd R.NET_RTCTL_ACTIVE
    ∧ c.freeOwn.epochState (c.rd R.NET_RTCTL_ACTIVE) = c.epochState (c.rd R.NET_RTCTL_ACTIVE) := by
  obtain h | ⟨-, h⟩ := freeOwn_cases c
  · rw [h]; exact ⟨rfl, rfl⟩
  · rw [h]
    exact ⟨rd_setEpoch_active c _ 0, epochState_setEpoch_other c _ 0 (active_lt c)⟩

theorem buildEpoch_epochOnly (c : Core) (e : Nat) (hs : List Nat) : EpochOnly c (c.buildEpoch e hs) := by
  unfold Core.buildEpoch
  refine EpochOnly.trans ?_ (EpochOnly.of_setEpoch _ e 1)
  exact EpochOnly.of_net c _ rfl rfl

/-- Tables being written are LOADING, and the ACTIVE epoch stays. -/
theorem buildEpoch_loading (c : Core) (e : Nat) (hs : List Nat) :
    (c.buildEpoch e hs).epochState e = 1 ∧ (c.buildEpoch e hs).rd R.NET_RTCTL_ACTIVE = c.rd R.NET_RTCTL_ACTIVE :=
  ⟨epochState_setEpoch_self _ e 1, rd_setEpoch_active _ e 1⟩

theorem flipEpoch_epochOnly (c : Core) : EpochOnly c c.flipEpoch :=
  ((EpochOnly.of_wr c R.NET_RTCTL_ACTIVE _ rfl).trans (EpochOnly.of_setEpoch _ _ 3)).trans (EpochOnly.of_net _ _ rfl rfl)

/-- After a flip the other epoch is ACTIVE, in the state it had. -/
theorem flipEpoch_active (c : Core) : c.flipEpoch.rd R.NET_RTCTL_ACTIVE = 1 - c.rd R.NET_RTCTL_ACTIVE
    ∧ c.flipEpoch.epochState (1 - c.rd R.NET_RTCTL_ACTIVE) = c.epochState (1 - c.rd R.NET_RTCTL_ACTIVE) := by
  have ha := active_lt c
  have hw : (c.wr R.NET_RTCTL_ACTIVE (1 - c.rd R.NET_RTCTL_ACTIVE)).rd R.NET_RTCTL_ACTIVE = 1 - c.rd R.NET_RTCTL_ACTIVE :=
    (Core.rd_wr_self c _ _ (by decide)).trans (Nat.mod_eq_of_lt (by show _ < 2; omega))
  have hs := epochState_setEpoch_other (c.wr R.NET_RTCTL_ACTIVE (1 - c.rd R.NET_RTCTL_ACTIVE)) (1 - c.rd R.NET_RTCTL_ACTIVE) 3 (by omega)
  rw [Nat.sub_sub_self (by omega), epochState_wr_active] at hs
  exact ⟨(rd_setEpoch_active _ _ 3).trans hw, hs⟩

/-- Where no own epoch change is wanted or under way, nothing happens. -/
theorem ownTables_none {c : Core} (ho : c.net.own = false) (hw : c.net.want = none) : c.ownTables = c := by
  simp [Core.ownTables, Core.freeOwn, ho, hw]

/-- Tables wanted are written once the inactive epoch is INVALID. -/
theorem ownTables_wanted {c : Core} {hs : List Nat} (ho : c.net.own = false) (hw : c.net.want = some hs)
    (he : c.epochState (1 - c.rd R.NET_RTCTL_ACTIVE) = 0) :
    c.ownTables = Core.buildEpoch { c with net := { c.net with want := none, own := true } } (1 - c.rd R.NET_RTCTL_ACTIVE) hs := by
  simp [Core.ownTables, ho, hw, he]

/-- Tables written become VALID and are flipped to. -/
theorem ownTables_loading {c : Core} (ho : c.net.own = true) (he : c.epochState (1 - c.rd R.NET_RTCTL_ACTIVE) = 1) :
    c.ownTables = ((c.setEpoch (1 - c.rd R.NET_RTCTL_ACTIVE) 2).flipEpoch).freeOwn := by
  simp [Core.ownTables, ho, he]

/-- One step of the own epoch change touches nothing but NET_RTCTL and the record of the tables. -/
theorem ownTables_epochOnly (c : Core) : EpochOnly c c.ownTables := by
  unfold Core.ownTables
  simp only
  split
  · exact ((EpochOnly.of_setEpoch c _ 2).trans (flipEpoch_epochOnly _)).trans (freeOwn_epochOnly _)
  · split
    · split
      · refine EpochOnly.trans ?_ (buildEpoch_epochOnly _ _ _)
        exact EpochOnly.of_net c _ rfl rfl
      · exact freeOwn_epochOnly c
    · exact freeOwn_epochOnly c

/-- Tables wanted are LOADING after the step. -/
theorem ownTables_makes_loading {c : Core} (ho : c.net.own = false) (hw : c.net.want.isSome = true)
    (he : c.epochState (1 - c.rd R.NET_RTCTL_ACTIVE) = 0) :
    c.ownTables.epochState (1 - c.rd R.NET_RTCTL_ACTIVE) = 1 ∧ c.ownTables.rd R.NET_RTCTL_ACTIVE = c.rd R.NET_RTCTL_ACTIVE := by
  obtain ⟨hs, hw⟩ := Option.isSome_iff_exists.mp hw
  rw [ownTables_wanted ho hw he]
  exact buildEpoch_loading _ _ hs

/-- Tables LOADING are VALID and ACTIVE after the step. -/
theorem ownTables_makes_active {c : Core} (ho : c.net.own = true) (he : c.epochState (1 - c.rd R.NET_RTCTL_ACTIVE) = 1) :
    c.ownTables.epochState (1 - c.rd R.NET_RTCTL_ACTIVE) = 2 ∧ c.ownTables.rd R.NET_RTCTL_ACTIVE = 1 - c.rd R.NET_RTCTL_ACTIVE := by
  rw [ownTables_loading ho he]
  obtain ⟨ha, hs⟩ := flipEpoch_active (c.setEpoch (1 - c.rd R.NET_RTCTL_ACTIVE) 2)
  obtain ⟨ha', hs'⟩ := freeOwn_active (c.setEpoch (1 - c.rd R.NET_RTCTL_ACTIVE) 2).flipEpoch
  rw [rd_setEpoch_active] at ha hs
  rw [ha] at ha' hs'
  exact ⟨(hs'.trans hs).trans (epochState_setEpoch_self c _ 2), ha'⟩

/-! ## One cycle of the oscillator (R37) -/

theorem tick_now (c : Core) :
    c.tick.now = (c.now + (c.tmb.frac + ((c.inc : Int) + c.slewStep).toNat) / 2 ^ 24) % 2 ^ R.TMB_NOW_NOW.w :=
  Core.rd_wr_self c R.TMB_NOW_NOW _ (by decide)

theorem tick_cword (c : Core) (off : Nat) (h : off ≠ R.TMB_NOW_NOW.off) : c.tick.cword off = c.cword off :=
  cword_wr_apart c R.TMB_NOW_NOW _ off h

theorem tick_rd (c : Core) (f : Fld) (h : f.off ≠ R.TMB_NOW_NOW.off) : c.tick.rd f = c.rd f := by
  unfold Core.rd; rw [tick_cword c f.off h]

theorem tick_epochState (c : Core) (e : Nat) : c.tick.epochState e = c.epochState e := by
  unfold Core.epochState
  rw [tick_rd c _ (by decide), tick_rd c _ (by decide)]

@[simp] theorem tick_net (c : Core) : c.tick.net = c.net := rfl
@[simp] theorem tick_frac (c : Core) : c.tick.tmb.frac = (c.tmb.frac + ((c.inc : Int) + c.slewStep).toNat) % 2 ^ 24 := rfl
@[simp] theorem tick_slew (c : Core) : c.tick.tmb.slew = c.tmb.slew - c.slewStep := rfl

/-- An idle cycle advances TMB_NOW by the accumulator's carries: the epoch change before it leaves the timebase alone. -/
theorem idle_now (c : Core) :
    c.idle.now = (c.now + (c.tmb.frac + ((c.inc : Int) + c.slewStep).toNat) / 2 ^ 24) % 2 ^ R.TMB_NOW_NOW.w := by
  have h := ownTables_epochOnly c
  rw [← h.now, ← h.inc, ← h.slewStep, ← h.tmb]
  exact tick_now _

/-- Settles O27: the timebase moves as `tick` says, and beside it only what `ownTables` does to the epochs. -/
theorem idleStepIsOneOscillatorCycle : Obligations.IdleStepIsOneOscillatorCycle := by
  unfold Obligations.IdleStepIsOneOscillatorCycle
  intro s hl hp
  generalize hc : s.mach.core = c
  have h := ownTables_epochOnly c
  refine ⟨_, step_idle hl hp, ⟨rfl, rfl, rfl⟩, ⟨rfl, rfl, rfl, rfl⟩, ?_⟩
  simp only [hc]
  refine ⟨idle_now c, ?frac, ?slew, fun o h1 h2 => (tick_cword _ o h1).trans (h.cword o h2), h.treg, h.queues, h.fly, h.arr,
    fun ho hw => ?nothing, fun ho hw he => ?wanted, fun ho he => ?loading⟩
  case frac => rw [← h.inc, ← h.slewStep, ← h.tmb]; exact tick_frac _
  case slew => rw [← h.slewStep, ← h.tmb]; exact tick_slew _
  case nothing =>
    have e : c.idle = c.tick := congrArg Core.tick (ownTables_none ho hw)
    exact ⟨by rw [e, tick_net], by rw [e]; exact tick_cword c _ (by decide)⟩
  case wanted =>
    obtain ⟨h1, h2⟩ := ownTables_makes_loading ho hw he
    exact ⟨(tick_epochState _ _).trans h1, (tick_rd _ _ (by decide)).trans h2⟩
  case loading =>
    obtain ⟨h1, h2⟩ := ownTables_makes_active ho he
    exact ⟨(tick_epochState _ _).trans h1, (tick_rd _ _ (by decide)).trans h2⟩

end Sys2Proof.Machine
end

section
/-! Time beacons (R37, R38) and the registers that clear on a read (R38, R86, R243). -/

namespace Sys2Proof.Machine

/-! ## Slewing and beacons -/

theorem slewTo_rd_apart (c : Core) (off : Int) (f : Fld) (h : R.TMB_STATUS_SLEWING.apart f = true) : (c.slewTo off).rd f = c.rd f :=
  Core.rd_wr_apart c _ f _ (by decide) h

/-- SLEWING stands exactly while there is an offset to slew out. -/
theorem slewTo_slewing (c : Core) (off : Int) : (c.slewTo off).rd R.TMB_STATUS_SLEWING = if off = 0 then 0 else 1 := by
  have h : (c.slewTo off).rd R.TMB_STATUS_SLEWING = b2n (decide (off ≠ 0)) % 2 ^ 1 := Core.rd_wr_self c _ _ (by decide)
  rw [h]
  by_cases h0 : off = 0
  · simp [h0, b2n]
  · simp [h0, b2n]

@[simp] theorem slewTo_slew (c : Core) (off : Int) : (c.slewTo off).tmb.slew = off * 2 ^ 24 := rfl
@[simp] theorem slewTo_beacon (c : Core) (off : Int) : (c.slewTo off).tmb.beacon = c.tmb.beacon := rfl
@[simp] theorem noteBeacon_rd (c : Core) (h : Nat) (f : Fld) : (c.noteBeacon h).rd f = c.rd f := rfl
@[simp] theorem noteBeacon_beacon (c : Core) (h : Nat) : (c.noteBeacon h).tmb.beacon = some (h, c.now) := rfl

/-- A beacon rejected raises DRIFT_ERR and keeps the last one applied. -/
theorem rejectBeacon_driftErr (c : Core) : c.rejectBeacon.rd R.TMB_STATUS_DRIFT_ERR = 1 := Core.rd_wr_self c.draw.2 _ 1 (by decide)
theorem rejectBeacon_rd_apart (c : Core) (f : Fld) (h : R.TMB_STATUS_DRIFT_ERR.apart f = true) : c.rejectBeacon.rd f = c.rd f :=
  Core.rd_wr_apart c.draw.2 _ f 1 (by decide) h
@[simp] theorem rejectBeacon_beacon (c : Core) : c.rejectBeacon.tmb.beacon = c.tmb.beacon := rfl

/-- INC as a beacon applied corrects it: by hub time against local time without what was slewed meanwhile (R37). -/
def Core.correctedInc (c : Core) (he le : Int) : Nat :=
  (c.inc * he.toNat * 2 ^ 24 / (le * 2 ^ 24 - c.tmb.slewed).toNat + c.draw.1.toNat % 2) % 2 ^ 32

/-- What a beacon applied makes of INC, of the agreeing intervals and of CAL_VALID. -/
def Core.calibrated (c : Core) (he le : Int) : Core :=
  let n := if decide ((max (he - le) (le - he)) * 1000000 ≤ 50 * le) then c.tmb.agree + 1 else 0
  let d := c.draw.2.wr R.TMB_CAL_INC (c.correctedInc he le)
  let d := if 2 ≤ n then d.wr R.TMB_STATUS_CAL_VALID 1 else d
  { d with tmb := { d.tmb with agree := n } }

/-- A beacon applied calibrates, is noted, and has its offset slewed out. -/
theorem applyBeacon_eq (c : Core) (hub : Nat) (he le : Int) :
    c.applyBeacon hub he le = ((c.calibrated he le).noteBeacon hub).slewTo ((hub : Int) - (c.calibrated he le).now) := rfl

/-- CAL_VALID set, or left as it is, leaves every other field. -/
theorem rd_calValid_apart (c : Core) (p : Prop) [Decidable p] (f : Fld) (h : R.TMB_STATUS_CAL_VALID.apart f = true) :
    (if p then c.wr R.TMB_STATUS_CAL_VALID 1 else c).rd f = c.rd f := by
  split
  · exact Core.rd_wr_apart c _ f 1 (by decide) h
  · rfl

/-- Of the registers calibration may change INC and CAL_VALID alone. -/
theorem calibrated_rd (c : Core) (he le : Int) (f : Fld) (h : R.TMB_STATUS_CAL_VALID.apart f = true) :
    (c.calibrated he le).rd f = (c.draw.2.wr R.TMB_CAL_INC (c.correctedInc he le)).rd f :=
  rd_calValid_apart _ _ f h

theorem calibrated_rd_apart (c : Core) (he le : Int) (f : Fld) (h0 : R.TMB_CAL_INC.apart f = true)
    (h1 : R.TMB_STATUS_CAL_VALID.apart f = true) : (c.calibrated he le).rd f = c.rd f :=
  (calibrated_rd c he le f h1).trans (Core.rd_wr_apart c.draw.2 _ f _ (by decide) h0)

theorem calibrated_now (c : Core) (he le : Int) : (c.calibrated he le).now = c.now := calibrated_rd_apart c he le _ (by decide) (by decide)

theorem applyBeacon_rd_apart (c : Core) (hub : Nat) (he le : Int) (f : Fld) (h0 : R.TMB_CAL_INC.apart f = true)
    (h1 : R.TMB_STATUS_CAL_VALID.apart f = true) (h2 : R.TMB_STATUS_SLEWING.apart f = true) : (c.applyBeacon hub he le).rd f = c.rd f := by
  rw [applyBeacon_eq, slewTo_rd_apart _ _ f h2, noteBeacon_rd, calibrated_rd_apart c he le f h0 h1]

theorem applyBeacon_inc (c : Core) (hub : Nat) (he le : Int) : (c.applyBeacon hub he le).inc = c.correctedInc he le := by
  unfold Core.inc
  rw [applyBeacon_eq, slewTo_rd_apart _ _ _ (by decide), noteBeacon_rd, calibrated_rd _ _ _ _ (by decide),
    Core.rd_wr_self _ _ _ (by decide)]
  exact Nat.mod_mod _ _

theorem applyBeacon_beacon (c : Core) (hub : Nat) (he le : Int) : (c.applyBeacon hub he le).tmb.beacon = some (hub, c.now) := by
  rw [applyBeacon_eq, slewTo_beacon, noteBeacon_beacon, calibrated_now]

theorem applyBeacon_slew (c : Core) (hub : Nat) (he le : Int) : (c.applyBeacon hub he le).tmb.slew = ((hub : Int) - c.now) * 2 ^ 24 := by
  rw [applyBeacon_eq, slewTo_slew, calibrated_now]

/-- The core with ERR_PPM as a later beacon shows it (Table 2.4). -/
def Core.showErr (c : Core) (he le : Int) : Core := c.wr R.TMB_STATUS_ERR_PPM (unsignedOf 16 (errPpm le he))

theorem showErr_rd (c : Core) (he le : Int) (f : Fld) (h : R.TMB_STATUS_ERR_PPM.apart f = true) : (c.showErr he le).rd f = c.rd f :=
  Core.rd_wr_apart c _ f _ (by decide) h
@[simp] theorem showErr_tmb (c : Core) (he le : Int) : (c.showErr he le).tmb = c.tmb := rfl
theorem showErr_now (c : Core) (he le : Int) : (c.showErr he le).now = c.now := showErr_rd c he le _ (by decide)
theorem showErr_inc (c : Core) (he le : Int) : (c.showErr he le).inc = c.inc := showErr_rd c he le _ (by decide)

/-- The first beacon, where local time is behind it: local time is set. -/
theorem timeBeacon_first_behind {c : Core} {hub : Nat} (hb : c.tmb.beacon = none) (h : c.now < hub + 45) :
    c.timeBeacon hub = (c.wr R.TMB_NOW_NOW (hub + 45)).noteBeacon (hub + 45) := by
  simp [Core.timeBeacon, hb, h]

/-- The first beacon, where local time is not behind it: the offset is slewed out. -/
theorem timeBeacon_first_ahead {c : Core} {hub : Nat} (hb : c.tmb.beacon = none) (h : hub + 45 ≤ c.now) :
    c.timeBeacon hub = (c.slewTo (((hub + 45 : Nat) : Int) - c.now)).noteBeacon (hub + 45) := by
  simp [Core.timeBeacon, hb, Nat.not_lt.mpr h]

/-- A later beacon, with the hub's and the local interval since the last one. -/
theorem timeBeacon_later {c : Core} {hub h0 l0 : Nat} (hb : c.tmb.beacon = some (h0, l0)) {he le : Int}
    (hhe : he = ((hub + 45 : Nat) : Int) - h0) (hle : le = (c.now : Int) - l0) :
    c.timeBeacon hub = if he ≤ 0 ∨ le ≤ 0 ∨ le < (max (he - le) (le - he)) * 100 then (c.showErr he le).rejectBeacon
      else (c.showErr he le).applyBeacon (hub + 45) he le := by
  subst hhe hle
  simp only [Core.timeBeacon, hb]
  rfl

/-- R37: the first beacon. -/
theorem firstBeacon_completes {s : State} (hub : Nat) (hl : s.live = true) (hb : s.mach.core.tmb.beacon = none) :
    Completes (.timeBeacon hub) s (fun s' => MemKept s s' ∧ OutsideKept s s' ∧ s'.mach.core.tmb.beacon.isSome = true ∧
      (s.mach.core.now < hub + 45 → s'.mach.core.now = (hub + 45) % 2 ^ R.TMB_NOW_NOW.w) ∧
      (hub + 45 ≤ s.mach.core.now → s'.mach.core.now = s.mach.core.now
        ∧ s'.mach.core.tmb.slew = (((hub + 45 : Nat) : Int) - s.mach.core.now) * 2 ^ 24
        ∧ s'.mach.core.rd R.TMB_STATUS_SLEWING = if hub + 45 = s.mach.core.now then 0 else 1)) := by
  refine completes_onCore rfl hl fun t hm ho ht => ⟨hm, ho, ?_⟩
  obtain h | h := Nat.lt_or_ge s.mach.core.now (hub + 45)
  · rw [ht, timeBeacon_first_behind hb h]
    exact ⟨rfl, fun _ => Core.rd_wr_self _ R.TMB_NOW_NOW _ (by decide), fun h' => absurd h' (Nat.not_le.mpr h)⟩
  · rw [ht, timeBeacon_first_ahead hb h]
    refine ⟨rfl, fun h' => absurd h' (Nat.not_lt.mpr h), fun _ => ⟨slewTo_rd_apart _ _ R.TMB_NOW_NOW (by decide), rfl, ?_⟩⟩
    rw [noteBeacon_rd, slewTo_slewing]
    simp only [sub_eq_zero, Nat.cast_inj]

/-- R37, R38: a later beacon is rejected with DRIFT_ERR, or corrects INC and has its offset slewed out. -/
theorem laterBeacon_completes {s : State} {hub h0 l0 : Nat} (hl : s.live = true) (hb : s.mach.core.tmb.beacon = some (h0, l0))
    {he le : Int} (hhe : he = ((hub + 45 : Nat) : Int) - h0) (hle : le = (s.mach.core.now : Int) - l0) {bad : Prop}
    (hbad : bad = (he ≤ 0 ∨ le ≤ 0 ∨ le < (max (he - le) (le - he)) * 100)) :
    Completes (.timeBeacon hub) s (fun s' => MemKept s s' ∧ OutsideKept s s' ∧ s'.mach.core.now = s.mach.core.now ∧
      (bad → s'.mach.core.rd R.TMB_STATUS_DRIFT_ERR = 1 ∧ s'.mach.core.inc = s.mach.core.inc
        ∧ s'.mach.core.tmb.beacon = s.mach.core.tmb.beacon) ∧
      (¬ bad → (∃ r < 2, s'.mach.core.inc
          = (s.mach.core.inc * he.toNat * 2 ^ 24 / (le * 2 ^ 24 - s.mach.core.tmb.slewed).toNat + r) % 2 ^ 32)
        ∧ s'.mach.core.tmb.beacon = some (hub + 45, s.mach.core.now)
        ∧ s'.mach.core.tmb.slew = (((hub + 45 : Nat) : Int) - s.mach.core.now) * 2 ^ 24
        ∧ s'.mach.core.rd R.TMB_STATUS_DRIFT_ERR = s.mach.core.rd R.TMB_STATUS_DRIFT_ERR)) := by
  subst hbad
  refine completes_onCore rfl hl fun t hm ho ht => ⟨hm, ho, ?_⟩
  rw [timeBeacon_later hb hhe hle] at ht
  have hnow := showErr_now s.mach.core he le
  have hinc := showErr_inc s.mach.core he le
  split at ht
  · next h =>
    rw [ht]
    exact ⟨(rejectBeacon_rd_apart _ R.TMB_NOW_NOW (by decide)).trans hnow, fun _ => ⟨rejectBeacon_driftErr _,
      (rejectBeacon_rd_apart _ R.TMB_CAL_INC (by decide)).trans hinc, rfl⟩, fun h' => absurd h h'⟩
  · next h =>
    rw [ht]
    refine ⟨(applyBeacon_rd_apart _ _ _ _ R.TMB_NOW_NOW (by decide) (by decide) (by decide)).trans hnow, fun h' => absurd h' h,
      fun _ => ⟨⟨_, Nat.mod_lt (s.mach.core.showErr he le).draw.1.toNat (by norm_num), ?_⟩, ?_, ?_, ?_⟩⟩
    · rw [applyBeacon_inc, Core.correctedInc, hinc, showErr_tmb]
    · rw [applyBeacon_beacon, hnow]
    · rw [applyBeacon_slew, hnow]
    · rw [applyBeacon_rd_apart _ _ _ _ _ (by decide) (by decide) (by decide)]
      exact showErr_rd _ _ _ _ (by decide)

/-- R37: SLEWING ends with the offset. -/
theorem slewComplete_completes {s : State} (hl : s.live = true) (h : s.mach.core.tmb.slew = 0) :
    Completes .slewComplete s (fun s' => MemKept s s' ∧ s'.mach.core.rd R.TMB_STATUS_SLEWING = 0
      ∧ s'.mach.core.tmb = s.mach.core.tmb) := by
  refine completes_onCore rfl hl fun t hm _ ht => ⟨hm, ?_⟩
  rw [ht, Core.slewComplete, if_pos h]
  exact ⟨Core.rd_wr_self _ _ 0 (by decide), rfl⟩

/-! ## Reads that clear (log entry 8) -/

/-- A register page's offset of an input's NET_QDEPTH names that input (Table 10.9). -/
theorem afterChipRead_netQdepth (c : Core) {n k p : Nat} (hn : n < 1104) (hk : k < 3) (hp : p < 6) :
    c.afterChipRead (R.NET_QDEPTH_MAXD n k p).off = c.wr (R.NET_QDEPTH_MAXD n k p) 0 := by
  have ho : (R.NET_QDEPTH_MAXD n k p).off = 0x500000 + 0x800 * n + 0x200 * k + 0x40 * p + 24 := rfl
  have ht : (R.NET_QDEPTH_MAXD n k p).off ≠ R.TMB_STATUS_DRIFT_ERR.off := by
    rw [ho]; show _ ≠ 0x10010; omega
  have e1 : (0x500000 + 0x800 * n + 0x200 * k + 0x40 * p + 24 - 0x500000) / 0x800 = n := by omega
  have e2 : (0x500000 + 0x800 * n + 0x200 * k + 0x40 * p + 24) % 0x800 / 0x200 = k := by omega
  have e3 : (0x500000 + 0x800 * n + 0x200 * k + 0x40 * p + 24) % 0x200 / 0x40 = p := by omega
  unfold Core.afterChipRead
  rw [if_neg ht, ho, if_pos (by omega), e1, e2, e3]

/-- R86: a read of SEQ_NFLAGS_RC returns the flags and clears them. -/
theorem nflagsRcRead_completes {s : State} (hl : s.live = true) {t : Nat} (ht : t < 960) :
    Completes (.nflagsRcRead t) s (fun s' => MemKept s s' ∧ OutsideKept s s' ∧
      s'.mach.core.lastRead = (s.mach.core.tword t 0x200).toNat ∧ s'.mach.core.tword t 0x200 = 0
        ∧ RegsOnly (fun t' o => t' = t ∧ o = 0x200) (fun _ => False) s s') := by
  have hi : exec (.nflagsRcRead t) s
      = s.onCore (fun c => { (c.afterTileRead t 0x208) with lastRead := c.tileView t 0x208 }) := by
    show onlyIf (isTile t) _ = _
    rw [show isTile t = true from decide_eq_true ht, onlyIf_true]
  refine completes_onCore hi hl fun s' hm ho hs => ⟨hm, ho, ?_⟩
  have hw : ∀ u off, off < 0x4000 →
      s'.mach.core.tword u off = if u = t ∧ off = 0x200 then 0 else s.mach.core.tword u off := fun u off h => by
    rw [hs]; exact Core.tword_setTword s.mach.core t u 0x200 off 0 (by decide) h
  refine ⟨by rw [hs]; rfl, by rw [hw t 0x200 (by decide), if_pos ⟨rfl, rfl⟩], fun u off h hne => by rw [hw u off h, if_neg hne],
    fun off _ => by rw [hs]; rfl⟩

/-- R38: a read of TMB_STATUS returns it and clears DRIFT_ERR. -/
theorem tmbStatusRead_completes {s : State} (hl : s.live = true) :
    Completes .tmbStatusRead s (fun s' => MemKept s s' ∧ OutsideKept s s' ∧
      s'.mach.core.lastRead = (s.mach.core.cword R.TMB_STATUS_DRIFT_ERR.off).toNat ∧ s'.mach.core.rd R.TMB_STATUS_DRIFT_ERR = 0
        ∧ s'.mach.core.rd R.TMB_STATUS_SLEWING = s.mach.core.rd R.TMB_STATUS_SLEWING
        ∧ s'.mach.core.rd R.TMB_STATUS_CAL_VALID = s.mach.core.rd R.TMB_STATUS_CAL_VALID) := by
  refine completes_onCore rfl hl fun s' hm ho hs => ⟨hm, ho, ?_⟩
  have hr : s'.mach.core.creg = (s.mach.core.wr R.TMB_STATUS_DRIFT_ERR 0).creg := by rw [hs]; rfl
  refine ⟨by rw [hs], ?_, ?_, ?_⟩
  · exact (rd_congr hr _).trans (Core.rd_wr_self _ _ 0 (by decide))
  · exact (rd_congr hr _).trans (Core.rd_wr_apart _ _ _ 0 (by decide) (by decide))
  · exact (rd_congr hr _).trans (Core.rd_wr_apart _ _ _ 0 (by decide) (by decide))

/-- R243: a read of NET_QDEPTH returns it and clears MAXD. -/
theorem netQdepthRead_completes {s : State} (hl : s.live = true) {n k p : Nat} (hn : n < 1104) (hk : k < 3) (hp : p < 6) :
    Completes (.netQdepthRead n k p) s (fun s' => MemKept s s' ∧ OutsideKept s s' ∧
      s'.mach.core.lastRead = (s.mach.core.cword (R.NET_QDEPTH_MAXD n k p).off).toNat ∧ s'.mach.core.rd (R.NET_QDEPTH_MAXD n k p) = 0
        ∧ s'.mach.core.rd (R.NET_QDEPTH_DEPTH n k p) = s.mach.core.rd (R.NET_QDEPTH_DEPTH n k p)) := by
  have hi : exec (.netQdepthRead n k p) s = s.onCore (fun c =>
      { (c.afterChipRead (R.NET_QDEPTH_MAXD n k p).off) with lastRead := (c.cword (R.NET_QDEPTH_MAXD n k p).off).toNat }) := by
    show onlyIf (decide (n < 1104) && decide (k < 3) && decide (p < 6)) _ = _
    rw [decide_eq_true hn, decide_eq_true hk, decide_eq_true hp]
    rfl
  refine completes_onCore hi hl fun s' hm ho hs => ⟨hm, ho, ?_⟩
  have hr : s'.mach.core.creg = (s.mach.core.wr (R.NET_QDEPTH_MAXD n k p) 0).creg := by
    rw [hs, ← afterChipRead_netQdepth s.mach.core hn hk hp]
  have ha : (R.NET_QDEPTH_MAXD n k p).apart (R.NET_QDEPTH_DEPTH n k p) = true := by simp [Fld.apart, R.NET_QDEPTH_MAXD, R.NET_QDEPTH_DEPTH]
  exact ⟨by rw [hs], (rd_congr hr _).trans (Core.rd_wr_self _ _ 0 (show 8 + 8 ≤ 64 by decide)),
    (rd_congr hr _).trans (Core.rd_wr_apart _ _ _ 0 (show 8 + 8 ≤ 64 by decide) ha)⟩

/-- Settles O28, beacon by beacon and read by read. -/
theorem beaconsAndClearingReads : Obligations.BeaconsAndClearingReads := by
  unfold Obligations.BeaconsAndClearingReads
  refine ⟨fun s hub hl => ⟨fun hb => firstBeacon_completes hub hl hb, fun h0 l0 hb => laterBeacon_completes hl hb rfl rfl rfl,
    fun h => slewComplete_completes hl h⟩, fun s hl => ⟨fun t ht => nflagsRcRead_completes hl ht, tmbStatusRead_completes hl,
    fun n hn k hk p hp => netQdepthRead_completes hl hn hk hp⟩⟩

end Sys2Proof.Machine
end

section
/-! What the entry into a compute-only reset leaves of the chiplet's registers (R39, R365, R366, R399). -/

namespace Sys2Proof.Machine

/-- What each step of a fold over a list's members leaves as it was, the fold leaves as it was. -/
theorem foldl_same_mem {α β γ : Type} {g : α → γ} {f : α → β → α} (l : List β) (h : ∀ a, ∀ b ∈ l, g (f a b) = g a) (a : α) :
    g (l.foldl f a) = g a := by
  induction l generalizing a with
  | nil => rfl
  | cons b l ih => rw [List.foldl_cons, ih (fun a x hx => h a x (List.mem_cons_of_mem b hx)), h a b List.mem_cons_self]

/-! ## The ports' outbound logic writes no register -/

theorem emit_creg (c : Core) (p s : Nat) (f : Frame) : (c.emit p s f).creg = c.creg := by
  unfold Core.emit
  split <;> rfl

theorem transmit_creg (c : Core) (h : Held) (s lseq : Nat) : (c.transmit h s lseq).1.creg = c.creg := by
  unfold Core.transmit
  exact foldl_same (g := Core.creg) (fun c f => emit_creg c h.port s f) _ _

theorem pumpOne_creg (c : Core) (p : Nat) (h : Held) : (c.pumpOne p h).1.creg = c.creg := by
  unfold Core.pumpOne
  split
  · rfl
  · split
    · rfl
    · split
      · split
        · exact transmit_creg c h _ _
        · rfl
      · split
        · rfl
        · exact transmit_creg _ h _ _

theorem pump_creg (c : Core) (p : Nat) : (c.pump p).creg = c.creg :=
  foldl_same (g := fun acc : Core × List Held => acc.1.creg) (fun acc h => pumpOne_creg acc.1 p h) _ _

theorem sendOut_creg (c : Core) (p : Nat) (pkt : Packet) (relay : Bool) : (c.sendOut p pkt relay).creg = c.creg := pump_creg _ p

theorem sendLoss_creg (c : Core) (st : Nat) : (c.sendLoss st).creg = c.creg := by
  unfold Core.sendLoss
  simp only
  split
  · rfl
  · split
    · exact sendOut_creg _ _ _ _
    · split
      · exact sendOut_creg _ _ _ _
      · rfl

/-! ## The parts of the entry -/

/-- Answering a request that came in by a port, where there is one to answer. -/
theorem answerVia_creg (c : Core) (via : Option Nat) (pkt : Packet) :
    (match via with
      | some p => if pkt.isRequest then c.portAck p pkt stRESET else c
      | none => c).creg = c.creg := by
  split
  · split
    · exact sendOut_creg c _ _ _
    · rfl
  · rfl

theorem answerInside_creg (c : Core) : c.answerInside.creg = c.creg := by
  unfold Core.answerInside
  refine (foldl_same (g := Core.creg) (fun c a => ?_) _ _).trans (foldl_same (g := Core.creg) (fun c f => ?_) _ _)
  · exact answerVia_creg c _ _
  · exact answerVia_creg c _ _

theorem endClaims_creg (c : Core) (t : Nat) (claims wrote : List Nat) (ok : Bool) : (c.endClaims t claims wrote ok).creg = c.creg := by
  unfold Core.endClaims
  refine foldl_same (g := Core.creg) (fun c s => ?_) claims c
  split <;> rfl

theorem dropClaims_creg (c : Core) : c.dropClaims.creg = c.creg := by
  unfold Core.dropClaims
  exact (foldl_same (g := Core.creg) (fun c a => endClaims_creg c _ _ _ _) _ _).trans
    (foldl_same (g := Core.creg) (fun c x => endClaims_creg c _ _ _ _) _ _)

/-- Offsets of the control page that no part of the entry writes: among them the timebase, the ledger and the hallmarks. -/
def entrySpares (off : Nat) : Prop := (0x18 ≤ off ∧ off < 0x30000) ∨ (0x60210 ≤ off ∧ off < 0x68000)

/-- A register that is not returned to its reset value reads as before. -/
theorem cword_keep (c : Core) (p : Nat → Bool) (off : Nat) (h : p off = true) :
    Core.cword { c with creg := SMap.keep p c.creg } off = c.cword off := by
  unfold Core.cword
  rw [SMap.get_keep, if_pos h]

/-- A tile's registers settled: no chiplet register changes. -/
theorem tileRegs_creg (c : Core) (t : Nat) : (c.tileRegs t).creg = c.creg := by
  unfold Core.tileRegs
  refine (foldl_same (g := Core.creg) (fun c n => ?_) _ _).trans ?_
  · rfl
  · rfl

theorem blankSlice_core (m : Mach) (s : Nat) : (m.blankSlice s).core = m.core := rfl

theorem tileMem_creg (m : Mach) (t : Nat) : (m.tileMem t).core.creg = m.core.creg := by
  unfold Mach.tileMem
  refine Eq.trans ?_ (foldl_same (g := fun m : Mach => m.core.creg) (f := fun m g => m.blankSegs t g (g + 1)) (fun m g => ?_)
    (m.core.unretained t) m)
  · rfl
  · rfl

theorem cword_withWgh (c : Core) (w : WghSt) (off : Nat) : Core.cword { c with wgh := w } off = c.cword off := rfl

theorem not_resetByCompute {off : Nat} (h : entrySpares off) : resetByCompute off = false := by
  unfold entrySpares at h
  have hp : off ≠ R.WGH_POWER_PWR.off := by show off ≠ 0x50018; omega
  have hb : off ≠ R.WGH_BUDGET_EROW.off := by show off ≠ 0x50020; omega
  unfold resetByCompute
  simp only [Bool.or_eq_false_iff, Bool.and_eq_false_iff, decide_eq_false_iff_not]
  omega

section
variable {off : Nat} (h : entrySpares off)
include h

theorem emptyFabric_cword (c : Core) : c.emptyFabric.cword off = c.cword off := by
  have hr : off ≠ R.NET_RTCTL_ACTIVE.off := by show off ≠ 0x400000; unfold entrySpares at h; omega
  have h0 : off ≠ (R.NET_EPCNT_COUNT 0).off := by show off ≠ 0x400008; unfold entrySpares at h; omega
  have h1 : off ≠ (R.NET_EPCNT_COUNT 1).off := by show off ≠ 0x400010; unfold entrySpares at h; omega
  have hp : ¬ (0x500000 ≤ off) := by unfold entrySpares at h; omega
  unfold Core.emptyFabric
  rw [cword_wr_apart _ _ _ _ h1, cword_wr_apart _ _ _ _ h0]
  split
  · rw [(EpochOnly.of_setEpoch _ _ 0).cword off hr]
    exact cword_keep c _ off (by simp [hp])
  · exact cword_keep c _ off (by simp [hp])

theorem resetWins_cword (c : Core) : c.resetWins.cword off = c.cword off := by
  unfold Core.resetWins
  refine foldl_same_mem (g := fun c => Core.cword c off) _ (fun c w hw => ?_) c
  have hw := List.mem_range.mp hw
  have hg : off ≠ (R.LAR_WIN_GEN w).off := by show off ≠ 0x48000 + 0x20 * w; unfold entrySpares at h; omega
  have hl : off ≠ (R.LAR_WIN_LENGTH w).off := by show off ≠ 0x48000 + 0x20 * w + 8; unfold entrySpares at h; omega
  dsimp only
  rw [cword_wr_apart _ _ _ _ hg, Core.cword_setCword, if_neg hl, Core.cword_setCword, if_neg hg]

theorem emptyLogic_cword (c : Core) : c.emptyLogic.cword off = c.cword off := by
  have hk := not_resetByCompute h
  unfold Core.emptyLogic
  refine (cword_congr (foldl_same (g := Core.creg) tileRegs_creg _ _) off).trans ?_
  refine (foldl_same_mem (g := fun c => Core.cword c off) _ (fun c s hs => ?slices) _).trans ?_
  case slices =>
    have hs := List.mem_range.mp hs
    have : off ≠ (R.LAR_CTL_STATE s).off := by show off ≠ 0x40000 + 0x0000 + 8 * s; unfold entrySpares at h; omega
    split
    · exact cword_wr_apart _ _ _ _ this
    · rfl
  refine (cword_withWgh _ _ off).trans ?_
  refine (foldl_same_mem (g := fun c => Core.cword c off) _ (fun c d hd => ?grants) _).trans ?_
  case grants =>
    have hd := List.mem_range.mp hd
    exact cword_wr_apart _ _ _ _ (by show off ≠ 0x50000 + 0x0200 + 8 * d; unfold entrySpares at h; omega)
  refine (cword_congr (foldl_same (g := Core.creg) (fun c d => ?targets) _ _) off).trans ?_
  case targets => rfl
  exact cword_keep c _ off (by simp [hk])

/-- The ports' part of the entry: those that served present HELD. -/
def Core.holdPorts (c : Core) : Core :=
  (List.range 6).foldl (fun (c : Core) p =>
    let st := c.rd (R.PRT_STATE_STATE p)
    if st = 2 ∨ st = 4 then c.wr (R.PRT_STATE_STATE p) 3 else c) { c with ports := { c.ports with hold := true } }

theorem holdPorts_cword (c : Core) : c.holdPorts.cword off = c.cword off := by
  unfold Core.holdPorts
  refine foldl_same_mem (g := fun c => Core.cword c off) _ (fun c p hp => ?_) _
  have hp := List.mem_range.mp hp
  dsimp only
  split
  · exact cword_wr_apart _ _ _ _ (by show off ≠ 0x30000 + 0x0000 + 8 * p; unfold entrySpares at h; omega)
  · rfl

/-- The logic's part of the entry: the parent is told unless the ports were HELD (`was`), and what does not survive goes. -/
def Core.enterLogic (c : Core) (was : Bool) : Core :=
  (if was then c.holdPorts else c.holdPorts.sendLoss stRESET).answerInside.dropClaims.emptyFabric.resetWins.emptyLogic

theorem enterLogic_cword (c : Core) (was : Bool) : (c.enterLogic was).cword off = c.cword off := by
  unfold Core.enterLogic
  rw [emptyLogic_cword h, resetWins_cword h, emptyFabric_cword h, cword_congr (dropClaims_creg _), cword_congr (answerInside_creg _)]
  split
  · exact holdPorts_cword h c
  · rw [cword_congr (sendLoss_creg _ _), holdPorts_cword h]

/-- What the entry leaves in the STG registers, CH_CORES and CH_FWVER. -/
def Core.enterStatus (c : Core) (cause : Nat) : Core :=
  let c := ((c.wr R.STG_CAUSE_LAST cause).bump R.STG_CAUSE_WARMS 1).wr R.STG_STATUS_WARM 0
  let c := (c.wr R.STG_STATUS_BUSY 0).wr R.CH_CORES_SWAPPING 0
  if c.rd R.STG_STATUS_STAGE < 2 then (c.wr R.STG_STATUS_STAGE 0).setCword R.CH_FWVER_RELEASE.off (cResetWord R.CH_FWVER_RELEASE.off)
  else c

theorem enterStatus_cword (c : Core) (cause : Nat) : (c.enterStatus cause).cword off = c.cword off := by
  have hstage : off ≠ R.STG_STATUS_STAGE.off := by show off ≠ 0x0; unfold entrySpares at h; omega
  have hbusy : off ≠ R.STG_STATUS_BUSY.off := hstage
  have hwarm : off ≠ R.STG_STATUS_WARM.off := hstage
  have hlast : off ≠ R.STG_CAUSE_LAST.off := by show off ≠ 0x10; unfold entrySpares at h; omega
  have hwarms : off ≠ R.STG_CAUSE_WARMS.off := hlast
  have hcores : off ≠ R.CH_CORES_SWAPPING.off := by show off ≠ 0x60000; unfold entrySpares at h; omega
  have hfw : off ≠ R.CH_FWVER_RELEASE.off := by show off ≠ 0x60008; unfold entrySpares at h; omega
  unfold Core.enterStatus Core.bump
  dsimp only
  split
  · rw [Core.cword_setCword, if_neg hfw]
    simp only [cword_wr_apart, hstage, hbusy, hwarm, hlast, hwarms, hcores, ne_eq, not_false_eq_true]
  · simp only [cword_wr_apart, hbusy, hwarm, hlast, hwarms, hcores, ne_eq, not_false_eq_true]

end

/-- The requests the mailboxes still hold, answered TARGET_RESET (R331, R369). -/
def Core.answerReset (c : Core) : Core := c.mb.reqs.foldl (fun (c : Core) r => c.mbAnswer r stRESET 0 [] true) c

/-- The entry, part by part: the mailboxes are answered, the logic is emptied, then the memories, and the status registers are
written. -/
theorem enterCompute_eq (m : Mach) (cause : Nat) :
    m.enterCompute cause = ((List.range 96).foldl Mach.blankSlice ((List.range 960).foldl Mach.tileMem
      ((m.onCore Core.answerReset).onCore (fun c => c.enterLogic m.core.answerReset.ports.hold)))).onCore
        (fun c => c.enterStatus cause) := rfl

/-- Emptying the memories of tiles and slices writes no chiplet register. -/
theorem emptyMemories_creg (m : Mach) (ts ss : List Nat) :
    (ss.foldl Mach.blankSlice (ts.foldl Mach.tileMem m)).core.creg = m.core.creg :=
  (foldl_same (g := fun m : Mach => m.core.creg) (fun m s => congrArg Core.creg (blankSlice_core m s)) ss _).trans
    (foldl_same (g := fun m : Mach => m.core.creg) tileMem_creg ts m)

/-- The entry leaves the registers it spares as answering the mailboxes left them. -/
theorem enterCompute_cword {off : Nat} (h : entrySpares off) (m : Mach) (cause : Nat) :
    (m.enterCompute cause).core.cword off = m.core.answerReset.cword off := by
  rw [enterCompute_eq, Mach.onCore_core, enterStatus_cword h]
  refine (cword_congr (emptyMemories_creg _ _ _) off).trans ?_
  rw [Mach.onCore_core, Mach.onCore_core, enterLogic_cword h]

end Sys2Proof.Machine
end

section
/-! A request that stands in no slot is answered in another register: the refutation of O59. -/

namespace Sys2Proof.Machine

/-- A response that no ACTIVE port can send is dropped with NORESP. -/
theorem mbSend_noresp {c : Core} {p : Nat} (h : c.rd (R.PRT_STATE_STATE p) ≠ 2) (pkt : Packet) (direct : Bool) :
    c.mbSend p pkt direct = c.wr (R.CH_MBSTAT_NORESP p) 1 := if_pos h

/-- A request's slot freed and its response kept: what answering does before the response is sent. -/
def Core.mbClose (c : Core) (r : MbReq) (pkt : Packet) : Core :=
  let c : Core := { c with mb := { c.mb with
    reqs := c.mb.reqs.filter (fun x => !(decide (x.port = r.port) && decide (x.slot = r.slot))) } }
  (c.wr (R.CH_MBSTAT_BUSY r.port) (setBit (c.rd (R.CH_MBSTAT_BUSY r.port)) r.slot false)).mbKeep ⟨r.port, r.cmd, r.tag, pkt⟩

theorem mbAnswer_eq (c : Core) (r : MbReq) (st detail : Nat) (body : List Byte) (direct : Bool) :
    c.mbAnswer r st detail body direct
      = (c.mbClose r (c.mbPacket r st detail body)).mbSend r.port (c.mbPacket r st detail body) direct := rfl

theorem mbClose_creg (c : Core) (r : MbReq) (pkt : Packet) :
    (c.mbClose r pkt).creg = (c.wr (R.CH_MBSTAT_BUSY r.port) (setBit (c.rd (R.CH_MBSTAT_BUSY r.port)) r.slot false)).creg := rfl

/-- Closing a request leaves its port's state as it is. -/
theorem mbClose_portState (c : Core) (r : MbReq) (pkt : Packet) :
    (c.mbClose r pkt).rd (R.PRT_STATE_STATE r.port) = c.rd (R.PRT_STATE_STATE r.port) := by
  have ha : (R.CH_MBSTAT_BUSY r.port).apart (R.PRT_STATE_STATE r.port) = true := by simp [Fld.apart, R.CH_MBSTAT_BUSY, R.PRT_STATE_STATE]
  exact (rd_congr (mbClose_creg c r pkt) _).trans (Core.rd_wr_apart c _ _ _ (show 0 + 16 ≤ 64 by decide) ha)

theorem mbAnswer_noresp (c : Core) (r : MbReq) (st detail : Nat) (body : List Byte) (direct : Bool)
    (h : c.rd (R.PRT_STATE_STATE r.port) ≠ 2) : (c.mbAnswer r st detail body direct).rd (R.CH_MBSTAT_NORESP r.port) = 1 := by
  rw [mbAnswer_eq, mbSend_noresp (by rwa [mbClose_portState])]
  exact Core.rd_wr_self _ _ 1 (show 52 + 1 ≤ 64 by decide)

/-- COMPUTE_ONLY_RESET of a live chiplet is the entry, with its cause. -/
theorem computeOnlyReset_mach {s t : State} (hl : s.live = true) (h : exec .computeOnlyReset s = .next t) :
    t.mach = s.mach.enterCompute 4 := by
  have he : exec .computeOnlyReset s
      = .next { s with mach := s.mach.enterCompute 4, pwr := { s.pwr with compRstN := false, comp := true } } :=
    congrArg Host.Outcome.next (if_pos hl)
  rw [← Host.Outcome.next.inj (he.symm.trans h)]

/-- A request noted at a port 65, which the chiplet does not have: the CH_MBSTAT register of that number is CH_HMSTAT. -/
def strayRequest : MbReq := { port := 65, slot := 0, cmd := 0x11, vmaj := 1, tag := 0, resp := 0, body := [] }

/-- The chiplet out of reset, with that request waiting. -/
def strayState : State :=
  { State.reset with
    mach := { core := { mb := { reqs := [strayRequest] } } }
    pwr := { fullRstN := true, compRstN := true } }

/-- Bit 52 of its CH_HMSTAT, NORESP of that CH_MBSTAT, is clear. -/
theorem strayState_noresp : strayState.mach.core.rd (R.CH_MBSTAT_NORESP 65) = 0 := by decide +kernel

/-- The entry sets that bit, and leaves it set. -/
theorem strayState_enterCompute (cause : Nat) :
    (strayState.mach.enterCompute cause).core.rd (R.CH_MBSTAT_NORESP 65) = 1 := by
  have h : (strayState.mach.enterCompute cause).core.cword (R.CH_MBSTAT_NORESP 65).off
      = strayState.mach.core.answerReset.cword (R.CH_MBSTAT_NORESP 65).off :=
    enterCompute_cword (.inr (by decide)) strayState.mach cause
  unfold Core.rd
  rw [h]
  exact mbAnswer_noresp strayState.mach.core strayRequest stRESET 0 [] true (by decide +kernel)

/-- Refutes O59: the clause for the reset pin takes every live state, also one whose mailboxes hold a request at a port that does
not exist (no hypothesis asks SlotsOk there, as Turn does for MB_RESET). In `strayState` the request at "port 65" is answered
at the offset of CH_MBSTAT[65], which is that of CH_HMSTAT, so that the reset does not leave CH_HMSTAT as it was. No run comes
to this state if every step keeps SlotsOk, as Obligations.RequestsStandInSlots says. -/
theorem not_resetsSpareOrClearTimebaseAndHallmarks : ¬ Obligations.ResetsSpareOrClearTimebaseAndHallmarks := by
  unfold Obligations.ResetsSpareOrClearTimebaseAndHallmarks
  intro h
  obtain ⟨hpin, -⟩ := h strayState
  obtain ⟨t, ht, -, -, -, hst, -⟩ := hpin (by decide)
  have ht : t.mach = strayState.mach.enterCompute 4 := computeOnlyReset_mach (by decide) ht
  have hkept : t.mach.core.rd (R.CH_MBSTAT_NORESP 65) = strayState.mach.core.rd (R.CH_MBSTAT_NORESP 65) :=
    congrArg (fldGet (R.CH_MBSTAT_NORESP 65)) hst
  rw [ht, strayState_enterCompute, strayState_noresp] at hkept
  exact absurd hkept (by decide)

end Sys2Proof.Machine
end
section
/-! Integer lanes of a chain stage wrap or saturate, and shifts count by B[4:0] (R139). -/

namespace Sys2Proof.Machine

/-! ## Clamping to 32 bits -/

theorem clampSigned_above {v : Int} (h : 2147483647 < v) : clampSigned 32 v = 2147483647 := by
  unfold clampSigned; omega

theorem clampSigned_below {v : Int} (h : v < -2147483648) : clampSigned 32 v = -2147483648 := by
  unfold clampSigned; omega

theorem clampSigned_within {v : Int} (hlo : -2147483648 ≤ v) (hhi : v ≤ 2147483647) : clampSigned 32 v = v := by
  unfold clampSigned; omega

/-! ## The result of an exact integer -/

theorem i32Result_wraps (v : Int) : i32Result false v = ((v % 2 ^ 32).toNat, {}) := rfl

theorem i32Result_saturates (v : Int) :
    i32Result true v = (unsignedOf 32 (clampSigned 32 v), { invalid := decide (clampSigned 32 v ≠ v) }) := rfl

/-- R139 for one exact value: saturated with invalid only under ISAT and out of range, else wrapped with no flag. -/
theorem i32Result_eq (sat : Bool) (v : Int) :
    i32Result sat v =
      (if sat = true ∧ 2147483647 < v then (0x7FFFFFFF, { invalid := true })
       else if sat = true ∧ v < -2147483648 then (0x80000000, { invalid := true })
       else ((v % 2 ^ 32).toNat, {})) := by
  cases sat with
  | false => simp [i32Result_wraps]
  | true =>
    rw [i32Result_saturates]
    by_cases hhi : 2147483647 < v
    · have hne : (2147483647 : Int) ≠ v := by omega
      simp [clampSigned_above hhi, hhi, hne, unsignedOf]
    · by_cases hlo : v < -2147483648
      · have hne : (-2147483648 : Int) ≠ v := by omega
        simp [clampSigned_below hlo, hhi, hlo, hne, unsignedOf]
      · simp [clampSigned_within (not_lt.mp hlo) (not_lt.mp hhi), hhi, hlo, unsignedOf]

/-! ## What a lane answers, stage opcode by stage opcode (Table 7.3) -/

section Lane
variable {g : Stage} {pwq : Nat → List Byte} {row lane r a b d : Nat}

theorem laneOp_iadd (h : g.sop = 0x20) :
    laneOp g pwq row lane r a b d = i32Result g.isat (signedOf 32 a + signedOf 32 b) := by simp only [laneOp, h]

theorem laneOp_isub (h : g.sop = 0x21) :
    laneOp g pwq row lane r a b d = i32Result g.isat (signedOf 32 a - signedOf 32 b) := by simp only [laneOp, h]

theorem laneOp_imul (h : g.sop = 0x22) :
    laneOp g pwq row lane r a b d = i32Result g.isat (signedOf 32 a * signedOf 32 b) := by simp only [laneOp, h]

theorem laneOp_ishl (h : g.sop = 0x28) :
    laneOp g pwq row lane r a b d = (a * 2 ^ (b % 32) % 2 ^ 32, .none) := by simp only [laneOp, h]

theorem laneOp_ishr (h : g.sop = 0x29) :
    laneOp g pwq row lane r a b d = (a / 2 ^ (b % 32), .none) := by simp only [laneOp, h]

theorem laneOp_isar (h : g.sop = 0x2A) :
    laneOp g pwq row lane r a b d = (unsignedOf 32 (signedOf 32 a / 2 ^ (b % 32)), .none) := by simp only [laneOp, h]

/-- A shift's count is B[4:0]: the bits of B above bit 4 do not reach its result. -/
theorem laneOp_shift_count (hlo : 0x28 ≤ g.sop) (hhi : g.sop ≤ 0x2A) :
    laneOp g pwq row lane r a b d = laneOp g pwq row lane r a (b % 32) d := by
  obtain h | h | h : g.sop = 0x28 ∨ g.sop = 0x29 ∨ g.sop = 0x2A := by omega
  · rw [laneOp_ishl h, laneOp_ishl h, Nat.mod_mod]
  · rw [laneOp_ishr h, laneOp_ishr h, Nat.mod_mod]
  · rw [laneOp_isar h, laneOp_isar h, Nat.mod_mod]

end Lane

/-- Settles O60: each of the three operations is `i32Result` of its exact value, and each shift reads only B[4:0]. -/
theorem integerLanesWrapOrSaturate : Obligations.IntegerLanesWrapOrSaturate := by
  unfold Obligations.IntegerLanesWrapOrSaturate
  intro g pwq row lane r a b d
  refine ⟨fun h => ?iadd, fun h => ?isub, fun h => ?imul, laneOp_shift_count⟩
  case iadd => exact (laneOp_iadd h).trans (i32Result_eq ..)
  case isub => exact (laneOp_isub h).trans (i32Result_eq ..)
  case imul => exact (laneOp_imul h).trans (i32Result_eq ..)

end Sys2Proof.Machine
end

section
/-! Rows of live logic and of running commands: what their steps leave, the commands they finish, and the tallies' frame
(R192 to R196, R204). -/

namespace Sys2Proof.Machine

/-! ## Rows -/

/-- A row of live logic completes with its effect, and leaves everything outside the machine. -/
theorem completes_onMach {i : Instr} {s : State} {f : Mach → Mach} {P : State → Prop} (hi : exec i s = s.onMach f)
    (hl : s.live = true) (h : ∀ t, OutsideKept s t → t.mach = f s.mach → P t) : Completes i s P := by
  have he : exec i s = .next { s with mach := f s.mach } := hi.trans (onMach_live hl f)
  exact ⟨_, he, h _ (onMach_outside (hi.symm.trans he)) rfl⟩

/-- The row of a running command answers the state that the command's action leaves. -/
theorem exec_runs {i : Instr} {s : State} {ok : Bool} {u q f op : Nat} {x : Cmd} {g : Mach → Cmd → Mach} (hr : Runs s u q f op x)
    (hok : ok = true) (hi : exec i s = onlyIf ok (s.onMach (fun m => m.withCmd u q f op g))) :
    exec i s = .next { s with mach := g s.mach x } := by
  obtain ⟨hl, -, hx, ho⟩ := hr
  rw [hi, hok, onlyIf_true, onMach_live hl, withCmd_runs hx ho]

/-- A row of a command's opcode acts on the running command where that is its opcode, and does nothing otherwise. -/
theorem exec_runs_cases {i : Instr} {s t : State} {ok : Bool} {u q f op k : Nat} {x : Cmd} {g : Mach → Cmd → Mach}
    (hr : Runs s u q f op x) (hok : ok = true) (hi : exec i s = onlyIf ok (s.onMach (fun m => m.withCmd u q f k g)))
    (h : exec i s = .next t) : (Runs s u q f k x ∧ t = { s with mach := g s.mach x }) ∨ t = s := by
  obtain ⟨hl, hq, hx, -⟩ := hr
  by_cases ho : x.opcode = k
  · have hr : Runs s u q f k x := ⟨hl, hq, hx, ho⟩
    exact .inl ⟨hr, Host.Outcome.next.inj (h.symm.trans (exec_runs hr hok hi))⟩
  · have hne : ∀ y, s.mach.core.running? u q f = some y → y.opcode ≠ k := fun y hy => by
      obtain rfl : x = y := Option.some.inj (hx.symm.trans hy)
      exact ho
    rw [hi, hok, onlyIf_true, onMach_live hl, withCmd_idle hne] at h
    exact .inr (Host.Outcome.next.inj h).symm

/-- The row of a running command completes with the command's action, and leaves everything outside the machine. -/
theorem completes_runs {i : Instr} {s : State} {ok : Bool} {u q f op : Nat} {x : Cmd} {g : Mach → Cmd → Mach} {P : State → Prop}
    (hr : Runs s u q f op x) (hok : ok = true) (hi : exec i s = onlyIf ok (s.onMach (fun m => m.withCmd u q f op g)))
    (h : ∀ t, OutsideKept s t → t.mach = g s.mach x → P t) : Completes i s P :=
  ⟨_, exec_runs hr hok hi, h _ ⟨rfl, rfl, rfl, rfl⟩ rfl⟩

/-- What an action does to control state alone leaves every byte of memory. -/
theorem memKept_of_onCore {s t : State} {f : Core → Core} (h : t.mach = s.mach.onCore f) : MemKept s t := by
  rw [MemKept, h]; exact ⟨rfl, rfl, rfl⟩

theorem core_of_onCore {s t : State} {f : Core → Core} (h : t.mach = s.mach.onCore f) : t.mach.core = f s.mach.core := by
  rw [h]; rfl

/-! ## Queued commands -/

theorem runs_isQueue {s : State} {u q f op : Nat} {x : Cmd} (h : Runs s u q f op x) : isQueue u q = true := by
  obtain ⟨-, hq, -⟩ := h
  exact hq

/-- A running command is one of the queues' commands, of its unit and queue. -/
theorem runs_mem {s : State} {u q f op : Nat} {x : Cmd} (h : Runs s u q f op x) :
    x ∈ s.mach.core.queues.cmds ∧ x.unit = u ∧ x.q = q := by
  obtain ⟨-, -, hx, -⟩ := h
  obtain ⟨hm, hu, hq, -⟩ := running?_mem hx
  exact ⟨hm, hu, hq⟩

/-- What a change of every command makes of the commands of an identity, where it keeps identities. -/
theorem queued_of_map {t : State} {l : List Cmd} {g : Cmd → Cmd} {i : Nat × Nat} {P : Cmd → Prop}
    (ht : t.mach.core.queues.cmds = l.map g) (hid : ∀ y ∈ l, (g y).id = y.id) (hi : ∃ y ∈ l, y.id = i)
    (hP : ∀ y ∈ l, y.id = i → P (g y)) : Queued t i P := by
  obtain ⟨y, hy, rfl⟩ := hi
  refine ⟨⟨g y, ?_, hid y hy⟩, fun z hz hzi => ?_⟩
  · rw [ht]; exact List.mem_map_of_mem hy
  · rw [ht] at hz
    obtain ⟨w, hw, rfl⟩ := List.mem_map.mp hz
    exact hP w hw ((hid w hw).symm.trans hzi)

/-- A command put in place of those of its identity is what that identity now names. -/
theorem queued_of_put {t : State} {l : List Cmd} {y : Cmd} {i : Nat × Nat} {P : Cmd → Prop} (hy : y.id = i)
    (ht : t.mach.core.queues.cmds = l.map (fun z => if z.id = y.id then y else z)) (hi : ∃ z ∈ l, z.id = i) (hP : P y) :
    Queued t i P := by
  subst hy
  refine queued_of_map ht (fun z _ => ?_) hi (fun z _ hz => by rwa [if_pos hz])
  split
  · next h => exact h.symm
  · rfl

/-- A command given its outcome has it. -/
theorem finished_of_finishCmd {t : State} {c : Core} {x : Cmd} {st : Nat} (ht : t.mach.core = c.finishCmd x st)
    (hx : ∃ y ∈ c.queues.cmds, y.id = x.id) : Finished t x.id st := by
  refine queued_of_map (g := fun y => if y.id = x.id then y.finish st else y) (by rw [ht]; rfl) (fun y _ => ?_) hx
    (fun y _ hy => by rw [if_pos hy]; exact ⟨rfl, rfl⟩)
  split <;> rfl

/-! ## Registers -/

theorem regsKept_of_eq {s t : State} {c : Core} (ht : t.mach.core = c) (hc : c.creg = s.mach.core.creg)
    (hr : c.treg = s.mach.core.treg) : RegsKept s t := by
  subst ht; exact ⟨hc, hr⟩

theorem tword_congr {c d : Core} (h : d.treg = c.treg) (t off : Nat) : d.tword t off = c.tword t off := by unfold Core.tword; rw [h]

/-- Setting a tally writes the register of that tally, and no other. -/
theorem tallySet_tword (c : Core) (u n k : Nat) (fault ovf : Bool) (hn : n < 64) (t off : Nat) (ho : off < 0x4000)
    (h : ¬ (u < 960 ∧ t = u ∧ off = 0x400 + 8 * n)) : (c.tallySet u n k fault ovf).tword t off = c.tword t off := by
  show (c.tallyPut u n k fault ovf).tword t off = _
  unfold Core.tallyPut
  split
  · next hu => exact (Core.tword_setTword _ _ _ _ _ _ (by omega) ho).trans (if_neg fun hc => h ⟨hu, hc⟩)
  · rfl

theorem tallySet_cword (c : Core) (u n k : Nat) (fault ovf : Bool) (off : Nat)
    (h : ¬ (960 ≤ u ∧ off = 0x100000 + 0x800 * (u - 960) + 0x400 + 8 * n)) : (c.tallySet u n k fault ovf).cword off = c.cword off := by
  show (c.tallyPut u n k fault ovf).cword off = _
  unfold Core.tallyPut
  split
  · rfl
  · next hu => exact (Core.cword_setCword _ _ _ _).trans (if_neg fun hc => h ⟨Nat.le_of_not_lt hu, hc⟩)

/-- The commands that look at a tally keep their identities. -/
theorem tallySet_id_mem {c : Core} {x : Cmd} (u n k : Nat) (fault ovf : Bool) (h : x ∈ c.queues.cmds) :
    ∃ y ∈ (c.tallySet u n k fault ovf).queues.cmds, y.id = x.id := by
  obtain ⟨g, hg, he⟩ := tallySet_eq c u n k fault ovf
  have hq : (c.tallyPut u n k fault ovf).queues = c.queues := by unfold Core.tallyPut; dsimp only; split <;> rfl
  exact ⟨g x, by rw [he, Core.mapCmds_cmds, hq]; exact List.mem_map_of_mem h, hg x⟩

/-- What `tallySet` leaves in the tally it sets. -/
theorem tallySet_fields (c : Core) (u n k : Nat) (fault ovf : Bool) (hn : n < 64) :
    (c.tallySet u n k fault ovf).tallyCount u n = k % 2 ^ 20 ∧ (c.tallySet u n k fault ovf).tallyFault u n = fault
      ∧ (c.tallySet u n k fault ovf).tallyOvf u n = ovf := by
  rw [tallyCount_eq, tallyFault_eq, tallyOvf_eq, tallySet_word, tallyPut_word _ _ _ _ _ _ _ _ hn hn, if_pos ⟨rfl, rfl⟩]
  exact tallyBits_fields k fault ovf

/-- An increment sets its tally. -/
theorem tallyAdd_sets (c : Core) (u n k : Nat) (fault : Bool) :
    ∃ count f ovf, c.tallyAdd u n k fault = c.tallySet u n count f ovf := ⟨_, _, _, rfl⟩

/-- What `tallyAdd` leaves in the tally it adds to (R195). -/
theorem tallyAdd_fields (c : Core) (u n k : Nat) (fault : Bool) (hn : n < 64) :
    (c.tallyAdd u n k fault).tallyCount u n = min (c.tallyCount u n + k) 0xFFFFF
      ∧ (c.tallyAdd u n k fault).tallyFault u n = (c.tallyFault u n || fault || decide (0xFFFFF < c.tallyCount u n + k))
      ∧ (c.tallyAdd u n k fault).tallyOvf u n = (c.tallyOvf u n || decide (0xFFFFF < c.tallyCount u n + k)) := by
  obtain ⟨hcount, hfault, hovf⟩ := tallySet_fields c u n (min (c.tallyCount u n + k) 0xFFFFF) _ _ hn
  exact ⟨hcount.trans (Nat.mod_eq_of_lt (by omega)), hfault, hovf⟩

/-! ## NOP, TSET and TINC (R192, R204) -/

/-- A tally command sets one tally of its unit and completes with OK. -/
theorem tallyCommand_finished {s t : State} {u q f op : Nat} {x : Cmd} (hr : Runs s u q f op x) {n k : Nat} {fault ovf : Bool}
    (ht : t.mach.core = (s.mach.core.tallySet u n k fault ovf).finishCmd x stOK) : Finished t x.id stOK :=
  finished_of_finishCmd ht (tallySet_id_mem u n k fault ovf (runs_mem hr).1)

/-- A tally command changes no memory, nothing outside the logic, and no register but its tally. -/
theorem tallyCommand_frame {s t : State} {u n k : Nat} {fault ovf : Bool} {x : Cmd} (hn : n < 64)
    (ht : t = { s with mach := { s.mach with core := (s.mach.core.tallySet u n k fault ovf).finishCmd x stOK } }) :
    MemKept s t ∧ OutsideKept s t ∧ RegsOnly (fun t' off => u < 960 ∧ t' = u ∧ off = 0x400 + 8 * n)
      (fun off => 960 ≤ u ∧ off = 0x100000 + 0x800 * (u - 960) + 0x400 + 8 * n) s t := by
  subst ht
  exact ⟨⟨rfl, rfl, rfl⟩, ⟨rfl, rfl, rfl, rfl⟩, fun t' off ho h => tallySet_tword _ _ _ _ _ _ hn t' off ho h,
    fun off h => tallySet_cword _ _ _ _ _ _ off h⟩

/-- A step that changes nothing keeps everything. -/
theorem kept_refl (s : State) (tile : Nat → Nat → Prop) (chip : Nat → Prop) :
    MemKept s s ∧ OutsideKept s s ∧ RegsOnly tile chip s s :=
  ⟨⟨rfl, rfl, rfl⟩, ⟨rfl, rfl, rfl, rfl⟩, fun _ _ _ _ => rfl, fun _ _ => rfl⟩

/-- TSET sets the whole tally, by what its word says. -/
theorem tset_mach {m : Mach} {x : Cmd} {u : Nat} (hu : x.unit = u) : m.tset x =
    { m with core := (m.core.tallySet u (bits x.word 64 6) (bits x.word 70 20) (bit x.word 90) false).finishCmd x stOK } := by
  subst hu; rfl

/-- TINC sets the tally to its sum, saturated. -/
theorem tinc_mach {m : Mach} {x : Cmd} {u : Nat} (hu : x.unit = u) : m.tinc x =
    { m with core := (m.core.tallyAdd u (bits x.word 64 6) (bits x.word 70 20) (bit x.word 90)).finishCmd x stOK } := by subst hu; rfl

/-! ## A fetched command at the head (R185, R199) -/

/-- A command as its head-of-queue checks meet it: with its queue's base, bound and banks, and its number of parts. -/
def Mach.atHead (m : Mach) (x : Cmd) : Cmd := { x.asSeen m.core with p := m.partsNow (x.asSeen m.core) }

/-- A command that passed its head's checks: ended at once, ready, or waiting on its tally. -/
def Core.passHead (c : Core) (x : Cmd) : Cmd :=
  if x.opcode = 0x0B ∧ c.holding = true then x.finish (c.rd R.CH_BELLSTAT_HSTAT)
  else if x.waitN = 0 then { x with phase := .ready } else c.checkWait { x with phase := .waitTally }

/-- What a command becomes by the answer of its head's checks. -/
def Core.atAnswer (c : Core) (x : Cmd) : HeadAns → Cmd
  | .hold => x
  | .status st => x.finish st
  | .pass => c.passHead x

/-- What a fetched command that may reach the head meets there. -/
theorem toHead_eq {m : Mach} {x : Cmd} (hn : ((m.core.others x).filter Cmd.started).length < inflightLimit x.unit x.q)
    (hf : x.fence = true → m.core.others x = []) :
    m.toHead x = (m.headCheck (m.atHead x)).1.onCore (fun c => c.putCmd (c.atAnswer (m.atHead x) (m.headCheck (m.atHead x)).2)) := by
  have h : ¬ (inflightLimit x.unit x.q ≤ ((m.core.others x).filter Cmd.started).length ∨ (x.fence = true ∧ m.core.others x ≠ [])) :=
    fun h => h.elim (Nat.not_le.mpr hn) (fun h => h.2 (hf h.1))
  have he : m.toHead x = (match (m.headCheck (m.atHead x)).2 with
      | .hold => (m.headCheck (m.atHead x)).1.onCore (fun c => c.putCmd (m.atHead x))
      | .status st => (m.headCheck (m.atHead x)).1.onCore (fun c => c.putCmd ((m.atHead x).finish st))
      | .pass => (m.headCheck (m.atHead x)).1.onCore (fun c => c.putCmd (c.passHead (m.atHead x)))) := if_neg h
  rw [he]
  cases (m.headCheck (m.atHead x)).2 <;> rfl

/-- A TINC of nothing fails its head check (R204). -/
theorem headCheck_tinc_zero {m : Mach} {y : Cmd} (ho : y.opcode = 0x02) (hz : bits y.word 70 20 = 0) :
    m.headCheck y = (m, .status stFORMAT) := by
  unfold Mach.headCheck
  have hs : m.core.seqHead y = some stFORMAT := by simp [Core.seqHead, ho, hz]
  cases y.headerOk with
  | false => rfl
  | true => simp [ho, hs, HeadAns.ofOption]

/-- The waiting command of a queue is one of its commands, and waits. -/
theorem head?_mem {c : Core} {u q : Nat} {x : Cmd} (h : c.head? u q = some x) :
    x ∈ c.queues.cmds ∧ x.unit = u ∧ x.q = q ∧ x.waiting = true := by
  have hm := List.mem_of_find?_eq_some h
  simp only [Core.queueCmds, List.mem_filter, Bool.and_eq_true, decide_eq_true_eq] at hm
  obtain ⟨hm, hu, hq⟩ := hm
  exact ⟨hm, hu, hq, List.find?_some h⟩

/-- TALLY_WAIT of a queue acts on the command that waits at its head. -/
theorem exec_tallyWait {s : State} {u q : Nat} (hq : isQueue u q = true) :
    exec (.tallyWait u q) s = s.onMach (fun m => m.tallyWait u q) := by
  show onlyIf (isQueue u q) _ = _
  rw [hq, onlyIf_true]

theorem tincOfNothing_completes {s : State} {u q : Nat} {x : Cmd} (hl : s.live = true) (hq : isQueue u q = true)
    (hx : s.mach.core.head? u q = some x) (hp : x.phase = .fetched) (ho : x.opcode = 0x02) (hz : bits x.word 70 20 = 0)
    (hn : ((s.mach.core.others x).filter Cmd.started).length < inflightLimit x.unit x.q)
    (hf : x.fence = true → s.mach.core.others x = []) :
    Completes (.tallyWait u q) s (fun t => Finished t x.id stFORMAT ∧ RegsKept s t ∧ MemKept s t) := by
  refine completes_onMach (exec_tallyWait hq) hl fun t _ ht => ?_
  have ht : t.mach = s.mach.onCore (fun c => c.putCmd ((s.mach.atHead x).finish stFORMAT)) := by
    rw [ht, Mach.tallyWait, hx]
    dsimp only
    rw [if_pos hp, toHead_eq hn hf, headCheck_tinc_zero (y := s.mach.atHead x) ho hz]
    rfl
  refine ⟨queued_of_put (y := (s.mach.atHead x).finish stFORMAT) rfl (by rw [ht]; rfl) ⟨x, (head?_mem hx).1, rfl⟩ ⟨rfl, rfl⟩, ?_,
    memKept_of_onCore ht⟩
  exact regsKept_of_eq (core_of_onCore ht) rfl rfl

/-- Settles O3: NOP ends as it is, TSET and TINC write the one tally of their unit, and a TINC of nothing fails at the head. -/
theorem tallyCommandsActOnTheirTally : Obligations.TallyCommandsActOnTheirTally := by
  unfold Obligations.TallyCommandsActOnTheirTally
  have hn (w : Nat) : bits w 64 6 < 64 := bits_lt w 64 6
  have hk (w : Nat) : bits w 70 20 < 2 ^ 20 := bits_lt w 70 20
  refine ⟨fun s u q f x => ⟨fun hr => ?nop, fun hr => ?tset, fun hr => ?tinc, tincOfNothing_completes⟩,
    fun s t u q f op x hr => ?frame⟩
  case nop =>
    exact completes_runs (g := Mach.nop) hr (runs_isQueue hr) rfl
      fun t _ ht => finished_of_finishCmd (core_of_onCore ht) ⟨x, (runs_mem hr).1, rfl⟩
  case tset =>
    refine completes_runs (g := Mach.tset) hr (runs_isQueue hr) rfl fun t _ ht => ?_
    have ht := congrArg Mach.core (ht.trans (tset_mach (runs_mem hr).2.1))
    refine ⟨tallyCommand_finished hr ht, ?_⟩
    rw [ht]
    obtain ⟨hcount, hfault, hovf⟩ := tallySet_fields s.mach.core u _ (bits x.word 70 20) (bit x.word 90) false (hn x.word)
    exact ⟨hcount.trans (Nat.mod_eq_of_lt (hk _)), hfault, hovf⟩
  case tinc =>
    refine completes_runs (g := Mach.tinc) hr (runs_isQueue hr) rfl fun t _ ht => ?_
    have ht := congrArg Mach.core (ht.trans (tinc_mach (runs_mem hr).2.1))
    refine ⟨tallyCommand_finished hr ht, ?_⟩
    rw [ht]
    exact tallyAdd_fields s.mach.core u _ (bits x.word 70 20) (bit x.word 90) (hn x.word)
  case frame =>
    refine ⟨fun h => ?nop, fun h => ?tally⟩
    case nop =>
      obtain ⟨-, rfl⟩ | rfl := exec_runs_cases (g := Mach.nop) hr (runs_isQueue hr) rfl h
      · exact ⟨⟨rfl, rfl, rfl⟩, ⟨rfl, rfl, rfl, rfl⟩, rfl, rfl⟩
      · exact ⟨⟨rfl, rfl, rfl⟩, ⟨rfl, rfl, rfl, rfl⟩, rfl, rfl⟩
    case tally =>
      obtain h | h := h
      · obtain ⟨-, ht⟩ | rfl := exec_runs_cases (g := Mach.tset) hr (runs_isQueue hr) rfl h
        · exact tallyCommand_frame (hn _) (by rw [ht, tset_mach (runs_mem hr).2.1])
        · exact kept_refl _ _ _
      · obtain ⟨-, ht⟩ | rfl := exec_runs_cases (g := Mach.tinc) hr (runs_isQueue hr) rfl h
        · obtain ⟨k, fault, ovf, he⟩ := tallyAdd_sets s.mach.core u (bits x.word 64 6) (bits x.word 70 20) (bit x.word 90)
          exact tallyCommand_frame (hn _) (by rw [ht, tinc_mach (runs_mem hr).2.1, he])
        · exact kept_refl _ _ _

end Sys2Proof.Machine
end

section
/-! Queue registers read after a write, writes and reads of tile memory within one line, and BR, FLAGRD and SHCLR (R207 to R209). -/

namespace Sys2Proof.Machine

/-! ## Registers of a queue -/

/-- Fields of separate bits are apart, wherever their registers stand. -/
theorem apart_of_bits {f g : Fld} (h : f.lo + f.w ≤ g.lo ∨ g.lo + g.w ≤ f.lo) : f.apart g = true := by
  unfold Fld.apart
  obtain h | h := h <;> simp [h]

/-- The units that have queues, and how many (Table 9.1). -/
theorem isQueue_bounds {u q : Nat} (h : isQueue u q = true) : u < 1060 ∧ q < 32 ∧ (u < 960 → q < 8) := by
  rw [isQueue, Bool.and_eq_true, decide_eq_true_eq, decide_eq_true_eq, queuesOf] at h
  obtain ⟨hu, hq⟩ := h
  split at hq
  · omega
  · split at hq <;> omega

/-- A field of a queue's register reads as it was written, cut to its width. -/
theorem qget_qset_self (c : Core) (u q k : Nat) (f : Fld) (v : Nat) (hf : f.lo + f.w ≤ 64) (ho : 0x40 * k + 8 * q < 0x4000) :
    (c.qset u q k f v).qget u q k f = v % 2 ^ f.w := by
  unfold Core.qset Core.qget
  split
  · exact Core.trd_twr_self c u _ v hf ho
  · exact Core.rd_wr_self c _ v hf

/-- Another field of the register reads as before. -/
theorem qget_qset_apart (c : Core) (u q k : Nat) (f g : Fld) (v : Nat) (hf : f.lo + f.w ≤ 64) (ho : 0x40 * k + 8 * q < 0x4000)
    (h : f.lo + f.w ≤ g.lo ∨ g.lo + g.w ≤ f.lo) : (c.qset u q k f v).qget u q k g = c.qget u q k g := by
  unfold Core.qset Core.qget
  split
  · exact Core.trd_twr_apart c u u _ _ v hf ho ho (.inr (apart_of_bits h))
  · exact Core.rd_wr_apart c _ _ v hf (apart_of_bits h)

/-- A write of a tile queue's register leaves every other register of the tiles. -/
theorem qset_tword (c : Core) (u q k : Nat) (f : Fld) (v t off : Nat) (hk : 0x40 * k + 8 * q < 0x4000) (ho : off < 0x4000)
    (h : ¬ (t = u ∧ off = 0x40 * k + 8 * q)) : (c.qset u q k f v).tword t off = c.tword t off := by
  unfold Core.qset
  split
  · exact (Core.tword_setTword _ _ _ _ _ _ hk ho).trans (if_neg h)
  · rfl

/-- It leaves the chiplet's registers. -/
theorem qset_cword (c : Core) {u : Nat} (hu : u < 960) (q k : Nat) (f : Fld) (v off : Nat) :
    (c.qset u q k f v).cword off = c.cword off := by
  unfold Core.qset
  rw [if_pos hu]
  rfl

@[simp] theorem qset_queues (c : Core) (u q k : Nat) (f : Fld) (v : Nat) : (c.qset u q k f v).queues = c.queues := by
  unfold Core.qset
  split <;> rfl

/-- A queue's register reads by the words of its tile's or its group's bank. -/
theorem qget_congr {c d : Core} (hr : ∀ t off, off < 0x1000 → d.tword t off = c.tword t off)
    (hc : ∀ off, 0x100000 ≤ off → off < 0x200000 → d.cword off = c.cword off)
    {u q : Nat} (hq : isQueue u q = true) (k : Nat) (hk : k ≤ 2) (f : Fld) : d.qget u q k f = c.qget u q k f := by
  obtain ⟨hu', hq, -⟩ := isQueue_bounds hq
  unfold Core.qget
  split
  · unfold Core.trd
    rw [hr u _ (by dsimp only; omega)]
  · next hu =>
    unfold Core.rd
    rw [hc _ (by simp only [groupFld]; omega) (by simp only [groupFld]; omega)]

/-! ## Bytes within one line of tile memory -/

/-- Bytes that an aligned block holds touch one unit of any larger size. -/
theorem touched_aligned {k p n d : Nat} (hd : d ∣ 2 ^ k) (hp : d ∣ p) (h0 : 0 < n) (hn : n ≤ d) : touched k p n = [p / 2 ^ k] := by
  obtain ⟨b, hb⟩ := hd
  obtain ⟨a, rfl⟩ := hp
  have hd0 : 0 < d := by omega
  have h1 : (d * a + n - 1) / 2 ^ k = d * a / 2 ^ k := by
    rw [hb, ← Nat.div_div_eq_div_mul, ← Nat.div_div_eq_div_mul, Nat.add_sub_assoc h0, Nat.mul_add_div hd0,
      Nat.div_eq_of_lt (show n - 1 < d by omega), Nat.mul_div_cancel_left a hd0, Nat.add_zero]
  unfold touched
  rw [if_neg (by omega), h1, Nat.add_sub_cancel_left]
  rfl

theorem splice_within (old v : List Byte) (i : Nat) (h : i + v.length ≤ old.length) :
    splice (0 : Byte) old i v = old.take i ++ v ++ old.drop (i + v.length) := by
  unfold splice
  rw [Nat.sub_eq_zero_of_le h, List.replicate_zero, List.append_nil]

/-- A line rewritten with some of its bytes replaced differs from memory in those bytes alone. -/
theorem byteAt_write_splice (m : Mach) (base i : Nat) (v : List Byte) (h : i + v.length ≤ 64) (a : Nat) :
    (m.write base (splice 0 (m.read base 64) i v)).byteAt a = (m.write (base + i) v).byteAt a := by
  have hl : (splice (0 : Byte) (m.read base 64) i v).length = 64 := by
    rw [splice_length _ _ _ _ (by rwa [Mach.read_length]), Mach.read_length]
  by_cases ha : base ≤ a ∧ a < base + 64
  · obtain ⟨j, rfl⟩ := Nat.exists_eq_add_of_le ha.1
    have hj : j < (splice (0 : Byte) (m.read base 64) i v).length := by omega
    have hr : ∀ j (h : j < (m.read base 64).length), (m.read base 64)[j] = m.byteAt (base + j) := fun j h => by simp [Mach.read_eq]
    rw [Mach.byteAt_write_inside _ _ _ _ hj]
    simp only [splice_within _ _ _ (show i + v.length ≤ (m.read base 64).length by rwa [Mach.read_length])]
    by_cases hin : i ≤ j ∧ j < i + v.length
    · obtain ⟨k, rfl⟩ := Nat.exists_eq_add_of_le hin.1
      rw [← Nat.add_assoc, Mach.byteAt_write_inside _ _ _ k (by omega)]
      rw [List.getElem_append_left (by simp; omega), List.getElem_append_right (by simp)]
      simp [show min i 64 = i by omega]
    · rw [Mach.byteAt_write_outside _ _ _ _ (by omega)]
      by_cases hlt : j < i
      · rw [List.getElem_append_left (by simp; omega), List.getElem_append_left (by simp; omega), List.getElem_take, hr]
      · rw [List.getElem_append_right (by simp; omega), List.getElem_drop, hr]
        congr 2
        simp
        omega
  · rw [Mach.byteAt_write_outside _ _ _ _ (by omega), Mach.byteAt_write_outside _ _ _ _ (by omega)]

/-- Bytes written within one line in which no error stands land as they are, and nothing else of memory changes. -/
theorem tileWrite_oneLine {m : Mach} {t p : Nat} {bs : List Byte} (ht : touched 6 p bs.length = [p / 64])
    (hp : p % 64 + bs.length ≤ 64) (he : m.lineErrs (lineId t (p / 64)) = []) :
    ∃ m', m.tileWrite t p bs = (m', true) ∧ m'.core = m.core ∧ ∀ a, m'.byteAt a = (m.write (tileBase t + p) bs).byteAt a := by
  have hc : lineChunks p bs = [(p / 64, p % 64, bs)] := by
    have hmax : max p (64 * (p / 64)) = p := by omega
    have hmod : p - 64 * (p / 64) = p % 64 := by omega
    simp only [lineChunks, ht, List.map_cons, List.map_nil, hmax, hmod, Nat.sub_self, List.drop_zero]
    rw [List.take_of_length_le (by omega)]
  have hb : tileBase t + 64 * (p / 64) + p % 64 = tileBase t + p := by omega
  unfold Mach.tileWrite
  rw [hc]
  simp only [List.foldl_cons, List.foldl_nil, if_true]
  unfold Mach.writeLine
  split
  · next h64 =>
    refine ⟨_, rfl, rfl, fun a => ?_⟩
    have : tileBase t + 64 * (p / 64) = tileBase t + p := by omega
    rw [this]
    rfl
  · rw [Mach.readLine_clean _ _ _ _ _ _ he]
    refine ⟨_, rfl, rfl, fun a => ?_⟩
    rw [← hb]
    exact byteAt_write_splice m _ _ _ hp a

/-! ## A command's write (R165) -/

/-- Whether a region lets an access in depends on the banks and segments it touches. -/
theorem modeStatus_congr {c : Core} {t p n n' : Nat} (hb : touched 16 p n = touched 16 p n') (hs : touched 14 p n = touched 14 p n') :
    c.modeStatus t p n = c.modeStatus t p n' := by unfold Core.modeStatus; rw [hb, hs]

theorem bankHeld_congr {c : Core} {x : Cmd} {p n n' : Nat} (h : touched 16 p n = touched 16 p n') :
    c.bankHeld x p n = c.bankHeld x p n' := by unfold Core.bankHeld; rw [h]

/-- Whether a slot of a command's tile is tagged. -/
def Core.slotTagged (c : Core) (x : Cmd) (s : Nat) : Bool := (c.taggedRegion x.unit s).isSome

/-- A slot claimed by a command that writes it, where it is tagged. -/
def Mach.claimSlot (m : Mach) (x : Cmd) (s : Nat) : Mach :=
  if m.core.slotTagged x s then m.onCore (fun c => c.setTag x.unit s (.claimed x.owner)) else m

/-- The command that has claimed it. -/
def Core.claimer (c : Core) (x : Cmd) (s : Nat) : Cmd :=
  if c.slotTagged x s && !x.claims.contains s then { x with claims := x.claims ++ [s] } else x

/-- The bytes of a command written to its tile, its slot claimed before where it is tagged. -/
def Mach.writeClaimed (m : Mach) (x : Cmd) (tagged : Bool) (p : Nat) (bs : List Byte) : Ans Cmd :=
  match m.tileWrite x.unit p bs with
  | (m, true) => .ok m { x with
      committed := true, wrote := if tagged && !x.wrote.contains (p / 256) then x.wrote ++ [p / 256] else x.wrote }
  | (m, false) => .fail (m.onCore (fun c => c.putCmd x)) stUNCORR

/-- A write that its region, its bank and its slot let through claims the slot and is made. -/
theorem localWrite_eq {m : Mach} {x : Cmd} {p : Nat} {bs : List Byte} (hmode : m.core.modeStatus x.unit p bs.length = none)
    (hbank : m.core.bankHeld x p bs.length = false) (hclaim : m.core.claimable x.unit (p / 256) x.owner = true) :
    m.localWrite x p bs
      = (m.claimSlot x (p / 256)).writeClaimed (m.core.claimer x (p / 256)) (m.core.slotTagged x (p / 256)) p bs := by
  unfold Mach.localWrite
  rw [hmode]
  dsimp only
  rw [hbank, hclaim]
  rfl

/-- Claiming a slot changes a tag alone. -/
theorem claimSlot_keeps (m : Mach) (x : Cmd) (s : Nat) :
    (m.claimSlot x s).core.creg = m.core.creg ∧ (m.claimSlot x s).core.treg = m.core.treg
      ∧ (m.claimSlot x s).core.queues = m.core.queues ∧ (m.claimSlot x s).mem = m.mem ∧ (m.claimSlot x s).errs = m.errs := by
  unfold Mach.claimSlot
  split <;> exact ⟨rfl, rfl, rfl, rfl, rfl⟩

theorem claimer_keeps (c : Core) (x : Cmd) (s : Nat) : (c.claimer x s).id = x.id ∧ (c.claimer x s).unit = x.unit := by
  unfold Core.claimer
  split <;> exact ⟨rfl, rfl⟩

/-- A claimed write that lands leaves the machine that the bytes make. -/
theorem writeClaimed_lands {m m' : Mach} {x : Cmd} {tagged : Bool} {p : Nat} {bs : List Byte}
    (h : m.tileWrite x.unit p bs = (m', true)) : ∃ y, m.writeClaimed x tagged p bs = .ok m' y ∧ y.id = x.id := by
  unfold Mach.writeClaimed
  rw [h]
  exact ⟨_, rfl, rfl⟩

/-- Eight aligned bytes that nothing holds back land: registers and queues are as they were, and no other byte of memory
changes. -/
theorem localWrite_now {m : Mach} {x : Cmd} {p : Nat} {bs : List Byte} (hl : bs.length = 8) (hp : p % 8 = 0) (hw : m.WritesNow x p) :
    ∃ m' y, m.localWrite x p bs = .ok m' y ∧ y.id = x.id ∧ m'.core.creg = m.core.creg ∧ m'.core.treg = m.core.treg
      ∧ m'.core.queues = m.core.queues ∧ ∀ a, m'.byteAt a = (m.write (tileBase x.unit + p) bs).byteAt a := by
  obtain ⟨hmode, hbank, hclaim, herr⟩ := hw
  have h8 : 8 ∣ p := Nat.dvd_of_mod_eq_zero hp
  have h1 {k : Nat} (hd : 8 ∣ 2 ^ k) : touched k p bs.length = touched k p 1 := by
    rw [hl, touched_aligned hd h8 (by decide) (by decide), touched_aligned hd h8 (by decide) (by decide)]
  have hline : touched 6 p bs.length = [p / 64] := by rw [hl]; exact touched_aligned (by decide) h8 (by decide) (by decide)
  rw [← modeStatus_congr (h1 (by decide)) (h1 (by decide))] at hmode
  rw [← bankHeld_congr (h1 (by decide))] at hbank
  obtain ⟨hcreg, htreg, hqueues, hmem, herrs⟩ := claimSlot_keeps m x (p / 256)
  obtain ⟨hid, hunit⟩ := claimer_keeps m.core x (p / 256)
  obtain ⟨m', he, hcore, hbytes⟩ := tileWrite_oneLine (m := m.claimSlot x (p / 256)) (t := x.unit) hline (by omega)
    (by rw [Mach.lineErrs, herrs]; exact herr)
  obtain ⟨y, hy, hyid⟩ := writeClaimed_lands (x := m.core.claimer x (p / 256)) (tagged := m.core.slotTagged x (p / 256))
    (by rwa [hunit])
  refine ⟨m', y, (localWrite_eq hmode hbank hclaim).trans hy, hyid.trans hid, by rw [hcore, hcreg],
    by rw [hcore, htreg], by rw [hcore, hqueues], fun a => ?_⟩
  rw [hbytes a]
  simp only [Mach.byteAt, Mach.write_mem, hmem]

/-! ## BR (R207) -/

/-- A branch that was taken. -/
def Cmd.branched (x : Cmd) : Cmd := { x with aux := 1 }.finish stOK

theorem branched_fields (x : Cmd) : x.branched.id = x.id ∧ x.branched.phase = .done ∧ x.branched.status = stOK ∧ x.branched.aux = 1 :=
  ⟨rfl, rfl, rfl, rfl⟩

/-- A branch by its summary: FAILED where it is not valid, the next fetch from DISP on where its condition holds. -/
theorem br_core {m : Mach} {x : Cmd} {t : Nat} (hu : x.unit = t) :
    (m.br x).core =
      if m.core.trd t (R.CHN_SUMA_VALID (bits x.word 64 2)) = 0 then m.core.finishCmd x stFAILED
      else if m.core.branchTaken t (bits x.word 64 2) (bits x.word 66 4) (bits x.word 72 18) then
        (m.core.qset t 7 1 (R.SEQ_QSTAT_CI 0) ((x.idx + bits x.word 96 16) % 65536)).putCmd x.branched
      else m.core.finishCmd x stOK := by subst hu; rfl

theorem branch_completes {s : State} {t : Nat} {x : Cmd} (ht : t < 960) (hr : Runs s t 7 0 0x05 x) :
    let slot := bits x.word 64 2
    let taken := s.mach.core.branchTaken t slot (bits x.word 66 4) (bits x.word 72 18)
    let valid := s.mach.core.trd t (R.CHN_SUMA_VALID slot)
    (valid = 0 → Completes (.br t) s (fun s' => Finished s' x.id stFAILED ∧ RegsKept s s' ∧ MemKept s s')) ∧
    (valid ≠ 0 → taken = true → Completes (.br t) s (fun s' => Finished s' x.id stOK ∧ MemKept s s'
      ∧ s'.mach.core.ringCI t 7 = (x.idx + bits x.word 96 16) % 65536
      ∧ RegsOnly (fun t' off => t' = t ∧ off = 0x78) (fun _ => False) s s'
      ∧ Queued s' x.id (fun y => y.aux = 1))) ∧
    (valid ≠ 0 → taken = false → Completes (.br t) s (fun s' => Finished s' x.id stOK ∧ RegsKept s s' ∧ MemKept s s')) := by
  obtain ⟨hx, hu, -⟩ := runs_mem hr
  have hx : ∃ y ∈ s.mach.core.queues.cmds, y.id = x.id := ⟨x, hx, rfl⟩
  have hbr {P : State → Prop} (h : ∀ s', MemKept s s' → s'.mach.core = (s.mach.br x).core → P s') : Completes (.br t) s P :=
    completes_runs (g := Mach.br) hr (decide_eq_true ht) rfl fun s' _ hs =>
      h s' (by rw [MemKept, hs]; exact ⟨rfl, rfl, rfl⟩) (congrArg Mach.core hs)
  rw [br_core hu] at hbr
  refine ⟨fun hv => hbr fun s' hm hs => ?invalid, fun hv hc => hbr fun s' hm hs => ?taken,
    fun hv hc => hbr fun s' hm hs => ?untaken⟩
  case invalid =>
    rw [if_pos hv] at hs
    exact ⟨finished_of_finishCmd hs hx, regsKept_of_eq hs rfl rfl, hm⟩
  case taken =>
    rw [if_neg hv, if_pos hc] at hs
    obtain ⟨hid, hdone, hok, haux⟩ := branched_fields x
    have hput {P : Cmd → Prop} : P x.branched → Queued s' x.id P :=
      queued_of_put hid (by rw [hs, Core.putCmd_cmds, qset_queues]) hx
    refine ⟨hput ⟨hdone, hok⟩, hm, ?_, ⟨fun t' off ho hne => ?_, fun off _ => ?_⟩, hput haux⟩
    · rw [hs]
      exact (qget_qset_self _ _ _ _ _ _ (by decide) (by decide)).trans (Nat.mod_mod _ _)
    · rw [hs]
      exact qset_tword _ _ _ _ _ _ _ _ (by decide) ho hne
    · rw [hs]
      exact qset_cword _ ht _ _ _ _ _
  case untaken =>
    rw [if_neg hv, if_neg (by rw [hc]; decide)] at hs
    exact ⟨finished_of_finishCmd hs hx, regsKept_of_eq hs rfl rfl, hm⟩

/-! ## FLAGRD (R208) -/

/-- The flags a FLAGRD copied, cleared in its tile where its word says so. -/
def Core.clearCopied (c : Core) (x : Cmd) : Core :=
  if bit x.word 84 then
    c.setTword x.unit 0x200 (BitVec.ofNat 64 ((c.tword x.unit 0x200).toNat &&& ((2 ^ 64 - 1) ^^^ x.nflags))) else c

@[simp] theorem clearCopied_creg (c : Core) (x : Cmd) : (c.clearCopied x).creg = c.creg := by unfold Core.clearCopied; split <;> rfl
@[simp] theorem clearCopied_queues (c : Core) (x : Cmd) : (c.clearCopied x).queues = c.queues := by
  unfold Core.clearCopied; split <;> rfl

theorem clearCopied_tword (c : Core) (x : Cmd) (t off : Nat) (ho : off < 0x4000) :
    (c.clearCopied x).tword t off = if bit x.word 84 = true ∧ t = x.unit ∧ off = 0x200
      then BitVec.ofNat 64 ((c.tword t 0x200).toNat &&& ((2 ^ 64 - 1) ^^^ x.nflags)) else c.tword t off := by
  unfold Core.clearCopied
  split
  · next hb =>
    rw [Core.tword_setTword _ _ _ _ _ _ (by decide) ho]
    by_cases h : t = x.unit ∧ off = 0x200
    · rw [if_pos h, if_pos ⟨hb, h⟩, h.1]
    · rw [if_neg h, if_neg (fun hc => h hc.2)]
  · next hb => rw [if_neg (fun hc => hb hc.1)]

/-- A FLAGRD whose write lands copies the flags, clears them as asked, and ends with OK. -/
theorem flagrd_lands {m m' : Mach} {x y : Cmd}
    (h : m.localWrite x (x.phys (bits x.word 64 20)) (toBytes 8 x.nflags) = .ok m' y) :
    m.flagrd x = m'.onCore (fun c => (c.clearCopied x).putCmd (y.finish stOK)) := by
  unfold Mach.flagrd
  dsimp only
  rw [h]
  rfl

theorem flagrd_completes {s : State} {t : Nat} {x : Cmd} (ht : t < 960) (hr : Runs s t 7 0 0x07 x) :
    let p := x.phys (bits x.word 64 20)
    p % 8 = 0 → s.mach.WritesNow x p →
    Completes (.flagrd t) s (fun s' => Finished s' x.id stOK ∧ OutsideKept s s' ∧
      s'.mach.read (tileBase t + p) 8 = toBytes 8 x.nflags ∧
      (∀ a, a < tileBase t + p ∨ tileBase t + p + 8 ≤ a → s'.mach.byteAt a = s.mach.byteAt a) ∧
      RegsOnly (fun t' off => t' = t ∧ off = 0x200) (fun _ => False) s s' ∧
      s'.mach.core.tword t 0x200 = (if bit x.word 84 = true
        then BitVec.ofNat 64 ((s.mach.core.tword t 0x200).toNat &&& ((2 ^ 64 - 1) ^^^ x.nflags)) else s.mach.core.tword t 0x200)) := by
  intro p hp hw
  obtain ⟨hx, rfl, -⟩ := runs_mem hr
  have hl : (toBytes 8 x.nflags).length = 8 := toBytes_length _ _
  obtain ⟨m', y, he, hid, hcreg, htreg, hqueues, hbytes⟩ := localWrite_now hl hp hw
  refine completes_runs (g := Mach.flagrd) hr (decide_eq_true ht) rfl fun s' ho hs => ?_
  rw [flagrd_lands he] at hs
  have hb : ∀ a, s'.mach.byteAt a = (s.mach.write (tileBase x.unit + p) (toBytes 8 x.nflags)).byteAt a := fun a => by
    rw [hs]; exact hbytes a
  have hw : ∀ t' off, off < 0x4000 → s'.mach.core.tword t' off = (s.mach.core.clearCopied x).tword t' off := fun t' off h => by
    rw [hs, Mach.onCore_core, Core.putCmd_tword, clearCopied_tword _ _ _ _ h, clearCopied_tword _ _ _ _ h, tword_congr htreg,
      tword_congr htreg]
  have hc : s'.mach.core.queues.cmds = s.mach.core.queues.cmds.map (fun z =>
      if z.id = (y.finish stOK).id then y.finish stOK else z) := by
    rw [hs, Mach.onCore_core, Core.putCmd_cmds, clearCopied_queues, hqueues]
  refine ⟨queued_of_put (y := y.finish stOK) hid hc ⟨x, hx, rfl⟩ ⟨rfl, rfl⟩, ho, ?read, fun a ha => ?bytes,
    ⟨fun t' off h hne => ?tile, fun off _ => ?chip⟩, ?flags⟩
  case read =>
    refine (Mach.read_congr fun a _ _ => hb a).trans ?_
    have h := Mach.read_write_self s.mach (tileBase x.unit + p) (toBytes 8 x.nflags)
    rwa [hl] at h
  case bytes => rw [hb a, Mach.byteAt_write_outside _ _ _ _ (by rwa [hl])]
  case tile => rw [hw t' off h, clearCopied_tword _ _ _ _ h, if_neg (fun hc => hne hc.2)]
  case chip =>
    refine cword_congr ?_ off
    rw [hs, Mach.onCore_core, Core.putCmd_creg, clearCopied_creg, hcreg]
  case flags => rw [hw _ _ (by decide), clearCopied_tword _ _ _ _ (by decide)]; simp

/-! ## SHCLR (R209) -/

/-- The selected scale-history registers of a tile cleared. -/
def Core.clearHist (c : Core) (t mask : Nat) (l : List Nat) : Core :=
  l.foldl (fun c n => if bit mask n then c.setTword t (0x300 + 8 * n) 0 else c) c

theorem shclr_eq (m : Mach) (x : Cmd) :
    m.shclr x = m.onCore (fun c => (c.clearHist x.unit (bits x.word 64 16) (List.range 16)).finishCmd x stOK) := rfl

/-- Clearing scale histories writes the tile's registers alone. -/
theorem clearHist_keeps (c : Core) (t mask : Nat) (l : List Nat) :
    (c.clearHist t mask l).creg = c.creg ∧ (c.clearHist t mask l).queues = c.queues := by
  constructor
  · exact foldl_same (g := Core.creg) (fun c n => by split <;> rfl) l c
  · exact foldl_same (g := Core.queues) (fun c n => by split <;> rfl) l c

theorem clearHist_tword (c : Core) (t mask : Nat) {l : List Nat} (hl : ∀ n ∈ l, n < 16) (t' off : Nat) (ho : off < 0x4000) :
    (c.clearHist t mask l).tword t' off = if t' = t ∧ ∃ n ∈ l, bit mask n = true ∧ off = 0x300 + 8 * n then 0 else c.tword t' off := by
  induction l generalizing c with
  | nil => simp [Core.clearHist]
  | cons n l ih =>
    have hn : n < 16 := hl n List.mem_cons_self
    have he : c.clearHist t mask (n :: l) = (if bit mask n then c.setTword t (0x300 + 8 * n) 0 else c).clearHist t mask l := rfl
    rw [he, ih _ (fun k hk => hl k (List.mem_cons_of_mem n hk))]
    by_cases hb : bit mask n = true
    · rw [if_pos hb, Core.tword_setTword _ _ _ _ _ _ (by omega) ho]
      simp only [List.mem_cons, exists_eq_or_imp, hb, true_and]
      split <;> split <;> simp_all
    · rw [if_neg hb]
      simp [hb]

theorem shclr_completes {s : State} {t : Nat} {x : Cmd} (ht : t < 960) (hr : Runs s t 7 0 0x08 x) :
    Completes (.shclr t) s (fun s' => Finished s' x.id stOK ∧ MemKept s s' ∧ OutsideKept s s' ∧
      (∀ n < 16, s'.mach.core.tword t (0x300 + 8 * n) = if bit x.word (64 + n) then 0 else s.mach.core.tword t (0x300 + 8 * n)) ∧
      RegsOnly (fun t' off => t' = t ∧ ∃ n < 16, off = 0x300 + 8 * n) (fun _ => False) s s') := by
  obtain ⟨hx, rfl, -⟩ := runs_mem hr
  refine completes_runs (g := Mach.shclr) hr (decide_eq_true ht) rfl fun s' ho hs => ?_
  obtain ⟨hcreg, hqueues⟩ := clearHist_keeps s.mach.core x.unit (bits x.word 64 16) (List.range 16)
  have hc : s'.mach.core = (s.mach.core.clearHist x.unit (bits x.word 64 16) (List.range 16)).finishCmd x stOK :=
    core_of_onCore (hs.trans (shclr_eq _ _))
  have hw : ∀ t' off, off < 0x4000 → s'.mach.core.tword t' off
      = if t' = x.unit ∧ ∃ n ∈ List.range 16, bit (bits x.word 64 16) n = true ∧ off = 0x300 + 8 * n then 0
        else s.mach.core.tword t' off := fun t' off h => by
    rw [hc]; exact clearHist_tword _ _ _ (fun n hn => List.mem_range.mp hn) t' off h
  refine ⟨finished_of_finishCmd hc ⟨x, by rw [hqueues]; exact hx, rfl⟩, memKept_of_onCore (hs.trans (shclr_eq _ _)), ho,
    fun n hn => ?selected, fun t' off h hne => ?tile, fun off _ => ?chip⟩
  case selected =>
    have hb : bit (bits x.word 64 16) n = bit x.word (64 + n) := by
      rw [bit_eq_testBit, testBit_bits, decide_eq_true hn, Bool.true_and, bit_eq_testBit]
    have he : (x.unit = x.unit ∧ ∃ k ∈ List.range 16, bit (bits x.word 64 16) k = true ∧ 0x300 + 8 * n = 0x300 + 8 * k)
        ↔ bit x.word (64 + n) = true := by
      refine ⟨fun ⟨_, k, _, hk, h⟩ => ?_, fun h => ⟨rfl, n, List.mem_range.mpr hn, hb.trans h, rfl⟩⟩
      obtain rfl : n = k := by omega
      exact hb.symm.trans hk
    rw [hw _ _ (by omega)]
    exact if_congr he rfl rfl
  case tile =>
    rw [hw _ _ h, if_neg fun ⟨ht, n, hn, _, hoff⟩ => hne ⟨ht, n, List.mem_range.mp hn, hoff⟩]
  case chip => exact cword_congr (by rw [hc]; exact hcreg) off

/-- Settles O7: BR by its summary and condition, FLAGRD through a write that lands, SHCLR by the registers it selects. -/
theorem branchFlagAndHistoryCommandsAct : Obligations.BranchFlagAndHistoryCommandsAct :=
  ⟨fun _ _ _ ht hr => branch_completes ht hr, fun _ _ _ ht hr => flagrd_completes ht hr, fun _ _ _ ht hr => shclr_completes ht hr⟩

end Sys2Proof.Machine
end

section
/-! The streams of a holding unit (R288), and the TINC and SUBMIT packets (R194, R195, R275, R286). -/

namespace Sys2Proof.Machine

/-! ## Streams (R288) -/

/-- Whether an entry is that of a packet's stream at a unit. -/
def HStream.isOf (u : Nat) (p : Packet) (h : HStream) : Bool :=
  decide (h.unit = u) && decide (h.src = srcUnit p.src) && decide (h.dst = streamDst p.dst)

theorem hstream?_eq (c : Core) (u : Nat) (p : Packet) : c.hstream? u p = c.net.held.find? (HStream.isOf u p) := rfl

theorem isDup_of_hstream {c : Core} {u : Nat} {p : Packet} {h : HStream} (hh : c.hstream? u p = some h) : c.isDup u p = h.dup p.seq := by
  unfold Core.isDup; rw [hh]; rfl

/-- Whether a part is a duplicate depends on the entries alone. -/
theorem isDup_congr {c d : Core} (h : d.net.held = c.net.held) (u : Nat) (p : Packet) : d.isDup u p = c.isDup u p := by
  unfold Core.isDup Core.hstream?; rw [h]

/-- An entry put in place of a stream's is that stream's entry. -/
theorem find?_replace {l : List HStream} {u : Nat} {p : Packet} {h k : HStream} (hh : l.find? (HStream.isOf u p) = some h)
    (hk : k.isOf u p = true) : (l.map (fun x => if x = h then k else x)).find? (HStream.isOf u p) = some k := by
  have hp : h.isOf u p = true := List.find?_some hh
  have hf : (HStream.isOf u p ∘ fun x => if x = h then k else x) = HStream.isOf u p := by
    funext x
    by_cases hx : x = h
    · simp [hx, hk, hp]
    · simp [hx]
  rw [List.find?_map, hf, hh]
  simp

/-- A stream of its own 64 values before it has no part that is a duplicate. -/
theorem fresh_not_dup (u s d seq now : Nat) : (HStream.mk u s d ((seq + 65536 - 63) % 65536) [] now).dup seq = false := by
  unfold HStream.dup
  dsimp only
  rw [decide_eq_false (by omega)]
  rfl

/-- A part's traffic noted: its stream has an entry, which says of the part what was said before. -/
theorem hstream?_touchStream (c : Core) (u : Nat) (p : Packet) :
    ∃ h, (c.touchStream u p).hstream? u p = some h ∧ h.dup p.seq = c.isDup u p := by
  unfold Core.touchStream
  cases hh : c.hstream? u p with
  | some h => exact ⟨_, find?_replace (k := { h with last := c.now }) hh (List.find?_some hh :), (isDup_of_hstream hh).symm⟩
  | none =>
    refine ⟨⟨u, srcUnit p.src, streamDst p.dst, (p.seq + 65536 - 63) % 65536, [], c.now⟩, ?_,
      (fresh_not_dup _ _ _ _ _).trans (by unfold Core.isDup; rw [hh]; rfl)⟩
    rw [hstream?_eq, List.find?_append, ← hstream?_eq, hh, Option.none_or]
    simp [HStream.isOf]

/-- Noting traffic leaves what is a duplicate. -/
theorem isDup_touchStream (c : Core) (u : Nat) (p : Packet) : (c.touchStream u p).isDup u p = c.isDup u p := by
  obtain ⟨h, hh, hd⟩ := hstream?_touchStream c u p
  rw [isDup_of_hstream hh, hd]

/-- A part marked is a duplicate from then on. -/
theorem mark_dup {h : HStream} {seq : Nat} (hd : h.dup seq = false) : (h.mark seq).dup seq = true := by
  have hlt : ¬ 0x8000 ≤ (seq + 65536 - h.base) % 65536 := by
    intro hc
    rw [HStream.dup, decide_eq_true hc, Bool.true_or] at hd
    exact absurd hd (by decide)
  have hin : (seq + 65536 - if 63 < (seq + 65536 - h.base) % 65536 then (seq + 65536 - 63) % 65536 else h.base) % 65536 < 64 := by
    split <;> omega
  unfold HStream.mark
  rw [if_neg hlt]
  unfold HStream.dup
  rw [Bool.or_eq_true, List.contains_iff_mem, List.mem_filter]
  exact .inr ⟨List.mem_cons_self, decide_eq_true hin⟩

theorem mark_isOf (u : Nat) (p : Packet) (h : HStream) (seq : Nat) : (h.mark seq).isOf u p = h.isOf u p := by
  unfold HStream.mark
  dsimp only
  split <;> rfl

/-- A part whose stream has an entry and that was none before is a duplicate once it is marked. -/
theorem isDup_markStream {c : Core} {u : Nat} {p : Packet} {h : HStream} (hh : c.hstream? u p = some h) (hd : c.isDup u p = false) :
    (c.markStream u p).isDup u p = true := by
  have hk : (h.mark p.seq).isOf u p = true := (mark_isOf u p h p.seq).trans (List.find?_some hh)
  have hm : (c.markStream u p).hstream? u p = some (h.mark p.seq) := by
    unfold Core.markStream
    rw [hh]
    exact find?_replace hh hk
  rw [isDup_of_hstream hm]
  exact mark_dup ((isDup_of_hstream hh).symm.trans hd)

/-! What a stream's entries and an arrival's end leave of the registers. -/

theorem touchStream_regs (c : Core) (u : Nat) (p : Packet) : (c.touchStream u p).creg = c.creg ∧ (c.touchStream u p).treg = c.treg := by
  unfold Core.touchStream
  split <;> exact ⟨rfl, rfl⟩

theorem markStream_regs (c : Core) (u : Nat) (p : Packet) : (c.markStream u p).creg = c.creg ∧ (c.markStream u p).treg = c.treg := by
  unfold Core.markStream
  split <;> exact ⟨rfl, rfl⟩

/-- An arrival's end answers it: the registers outside the network's blocks, the tiles' and the streams are as they were. -/
theorem endArr_keeps (c : Core) (a : Arrival) (st : Nat) : (∀ off, off < 0x400000 → (c.endArr a st).cword off = c.cword off)
    ∧ (c.endArr a st).treg = c.treg ∧ (c.endArr a st).net.held = c.net.held := by
  have h := answer_spec (c.dropArr a) a.unit a.pkt st
  exact ⟨h.creg, h.treg, h.held⟩

/-! ## TINC (R194, R195, R286) -/

theorem tallyCount_congr {c d : Core} (h : d.treg = c.treg) {u : Nat} (hu : u < 960) (n : Nat) : d.tallyCount u n = c.tallyCount u n := by
  rw [tallyCount_eq, tallyCount_eq]
  unfold Core.tallyWord
  rw [if_pos hu, if_pos hu, tword_congr h]

/-- An increment adds to the tally it names, and to no other of its unit. -/
theorem tallyAdd_count (c : Core) (u n k : Nat) (fault : Bool) (hn : n < 64) {n' : Nat} (hn' : n' < 64) :
    (c.tallyAdd u n k fault).tallyCount u n' = if n' = n then min (c.tallyCount u n' + k) 0xFFFFF else c.tallyCount u n' := by
  split
  · next h => rw [h]; exact (tallyAdd_fields c u n k fault hn).1
  · next h =>
    obtain ⟨count, f, ovf, he⟩ := tallyAdd_sets c u n k fault
    rw [he, tallyCount_eq, tallyCount_eq, tallySet_word, tallyPut_word _ _ _ _ _ _ _ _ hn hn', if_neg fun hc => h hc.2]

theorem tallyAdd_net (c : Core) (u n k : Nat) (fault : Bool) : (c.tallyAdd u n k fault).net = c.net := by
  obtain ⟨count, f, ovf, he⟩ := tallyAdd_sets c u n k fault
  obtain ⟨g, -, hg⟩ := tallySet_eq c u n count f ovf
  rw [he, hg]
  show (c.tallyPut u n count f ovf).net = _
  unfold Core.tallyPut
  dsimp only
  split <;> rfl

/-- A present tile's parts of its own memory meet no refusal of the unit or of a window. -/
theorem tileStatus_none {c : Core} {a : Arrival} (hu : a.unit < 960) (hp : c.present a.unit = true) (hc : adClass a.pkt.dst = 0) :
    c.holderStatus a = none ∧ c.windowStatus a = none := by
  constructor
  · unfold Core.holderStatus
    rw [if_neg (by simp [hp]), if_neg (by omega)]
  · unfold Core.windowStatus
    dsimp only
    rw [if_pos (by omega)]

/-- The TINC of a tile that its unit takes and has taken before is discarded. -/
theorem tincAt_dup {c : Core} {a : Arrival} (hu : a.unit < 960) (hc : adClass a.pkt.dst = 0) (hr : c.holdRoom a.unit a.pkt = true)
    (hs : c.inService a = false) (hd : c.isDup a.unit a.pkt = true) : c.tincAt a = (c.touchStream a.unit a.pkt).discardDup a := by
  unfold Core.tincAt
  dsimp only
  rw [if_neg (by omega), if_neg (by simp [hr, hs]; omega), isDup_touchStream, if_pos hd]

/-- One that it takes for the first time adds to its tally, is marked, and is answered. -/
theorem tincAt_first {c : Core} {a : Arrival} (hu : a.unit < 960) (hc : adClass a.pkt.dst = 0) (hr : c.holdRoom a.unit a.pkt = true)
    (hs : c.inService a = false) (hd : c.isDup a.unit a.pkt = false) (hp : c.present a.unit = true) (hn : bits a.pkt.arg 0 20 ≠ 0) :
    c.tincAt a = ((((c.touchStream a.unit a.pkt).tallyAdd a.unit a.pkt.tally (bits a.pkt.arg 0 20) (bit a.pkt.arg 20)).markStream
      a.unit a.pkt).endArr a stOK) := by
  obtain ⟨hcreg, htreg⟩ := touchStream_regs c a.unit a.pkt
  have hp : (c.touchStream a.unit a.pkt).present a.unit = true := by
    unfold Core.present at hp ⊢
    rwa [rd_congr hcreg, rd_congr hcreg]
  obtain ⟨h1, h2⟩ := tileStatus_none hu hp hc
  unfold Core.tincAt
  dsimp only
  rw [if_neg (by omega), if_neg (by simp [hr, hs]; omega), isDup_touchStream, if_neg (by simp [hd]), h1, h2, if_neg (by omega)]
  exact if_neg hn

theorem tincPacket_completes {s : State} {i : Nat} {a : Arrival} (hl : s.live = true) (ha : s.mach.core.net.arr[i]? = some a)
    (ht : a.pkt.typ = 5) (hu : a.unit < 960) (hc : adClass a.pkt.dst = 0) (hn : a.pkt.tally < 64)
    (hr : s.mach.core.holdRoom a.unit a.pkt = true) (hs : s.mach.core.inService a = false) :
    let c := s.mach.core
    (c.isDup a.unit a.pkt = true → Completes (.tincPacket i) s (fun s' => MemKept s s' ∧ OutsideKept s s' ∧
      ∀ n < 64, s'.mach.core.tallyCount a.unit n = c.tallyCount a.unit n)) ∧
    (c.isDup a.unit a.pkt = false → c.present a.unit = true → bits a.pkt.arg 0 20 ≠ 0 → Completes (.tincPacket i) s (fun s' =>
      MemKept s s' ∧ OutsideKept s s' ∧ s'.mach.core.isDup a.unit a.pkt = true ∧
      ∀ n < 64, s'.mach.core.tallyCount a.unit n
        = if n = a.pkt.tally then min (c.tallyCount a.unit n + bits a.pkt.arg 0 20) 0xFFFFF else c.tallyCount a.unit n)) := by
  have hm : a.memory = false := by unfold Arrival.memory; rw [hc]; rfl
  have hrow {P : State → Prop} (h : ∀ s', MemKept s s' → OutsideKept s s' → s'.mach.core = s.mach.core.tincAt a → P s') :
      Completes (.tincPacket i) s P := by
    refine completes_onCore (f := fun c => match c.net.arr[i]? with
      | some a => if a.pkt.typ = 5 then (if a.memory then c.endArr a stDENIED else c.tincAt a) else c
      | none => c) rfl hl fun s' hk ho he => h s' hk ho ?_
    rw [he, ha]
    dsimp only
    rw [if_pos ht, if_neg (by rw [hm]; decide)]
  obtain ⟨-, htouch⟩ := touchStream_regs s.mach.core a.unit a.pkt
  refine ⟨fun hd => hrow fun s' hk ho he => ⟨hk, ho, fun n _ => ?dup⟩, fun hd hp hz => hrow fun s' hk ho he => ?fresh⟩
  case dup =>
    rw [tincAt_dup hu hc hr hs hd] at he
    rw [he, Core.discardDup]
    obtain ⟨-, hend, -⟩ := endArr_keeps ((s.mach.core.touchStream a.unit a.pkt).bump R.NET_E2E_DUPS 1) a stOK
    exact tallyCount_congr (hend.trans htouch) hu n
  case fresh =>
    rw [tincAt_first hu hc hr hs hd hp hz] at he
    generalize hadd : (s.mach.core.touchStream a.unit a.pkt).tallyAdd a.unit a.pkt.tally (bits a.pkt.arg 0 20) (bit a.pkt.arg 20) = c at he
    obtain ⟨-, hend, hheld⟩ := endArr_keeps (c.markStream a.unit a.pkt) a stOK
    obtain ⟨h, hh, hdup⟩ := hstream?_touchStream s.mach.core a.unit a.pkt
    have hnet : c.net.held = (s.mach.core.touchStream a.unit a.pkt).net.held := by rw [← hadd, tallyAdd_net]
    refine ⟨hk, ho, ?_, fun n hn' => ?_⟩
    · rw [he, isDup_congr hheld]
      refine isDup_markStream (h := h) ?_ ?_
      · rw [hstream?_eq, hnet, ← hstream?_eq, hh]
      · rw [isDup_congr hnet, isDup_touchStream, hd]
    · rw [he, tallyCount_congr (hend.trans (markStream_regs c a.unit a.pkt).2) hu, ← hadd, tallyAdd_count _ _ _ _ _ hn hn',
        tallyCount_congr htouch hu]

/-! ## SUBMIT (R186, R275) -/

/-- The queue a submission names is one of a group's. -/
theorem submitQueue_bounds {a u q : Nat} (h : submitQueue a = some (u, q)) : 960 ≤ u ∧ u < 1060 ∧ q < queuesOf u ∧ q < 32 := by
  unfold submitQueue at h
  dsimp only at h
  split at h
  · next hc =>
    obtain ⟨-, -, -, -, hg, hq⟩ := hc
    obtain ⟨rfl, rfl⟩ := Prod.mk.inj (Option.some.inj h)
    refine ⟨by omega, by omega, hq, ?_⟩
    have := Nat.mod_lt (adPageOff a) (show 0 < 0x800 by decide)
    omega
  · exact absurd h (by simp)

/-- Which submissions, units and rings a register file holds depends on it alone. -/
theorem submit_congr {c d : Core} (h : d.creg = c.creg) (ht : d.treg = c.treg) (port : Option Nat) (u q k : Nat) (f : Fld) :
    d.maySubmit port u = c.maySubmit port u ∧ d.qget u q k f = c.qget u q k f := by
  unfold Core.maySubmit Core.qget
  simp only [rd_congr h, trd_congr ht, and_self]

/-- A SUBMIT that its queue takes stands in the ring entry at PI, and PI advances. -/
theorem submitAt_taken {m : Mach} {a : Arrival} {u q : Nat} (hq : submitQueue a.pkt.dst = some (u, q))
    (hr : m.core.holdRoom unitSeam a.pkt = true) (hs : m.core.inService a = false) (hd : m.core.isDup unitSeam a.pkt = false)
    (hlen : a.pkt.payload.length = 64) (hz : leAt a.pkt.payload 40 24 = 0) (hm : m.core.maySubmit a.port u = true)
    (hu : m.core.unitThere u = true) (hc : countFrom (m.core.ringPI u q) (m.core.ringCI u q) < 64) :
    m.submitAt a = (m.write (storeBase (u - 960) q (m.core.ringPI u q % 64)) a.pkt.payload).onCore (fun c =>
      (((c.touchStream unitSeam a.pkt).qset u q 0 (R.SEQ_QRING_PI 0) (m.core.ringPI u q + 1)).markStream unitSeam a.pkt).endArr a stOK) := by
  have hpi : (m.core.touchStream unitSeam a.pkt).ringPI u q = m.core.ringPI u q := by
    obtain ⟨hcreg, htreg⟩ := touchStream_regs m.core unitSeam a.pkt
    exact (submit_congr hcreg htreg none _ _ _ _).2
  unfold Mach.submitAt
  dsimp only
  rw [hq]
  dsimp only
  rw [if_neg (by simp [hr, hs])]
  simp only [Mach.onCore_core, isDup_touchStream, hd, hlen, hz, hm, hu]
  rw [if_neg (by simp), if_neg (by simp), if_neg (by simp), if_neg (by simp), if_neg (by omega), ← hpi]
  rfl

theorem submit_completes {s : State} {i u q : Nat} {a : Arrival} (hl : s.live = true) (ha : s.mach.core.net.arr[i]? = some a)
    (ht : a.pkt.typ = 6) (hq : submitQueue a.pkt.dst = some (u, q)) (hr : s.mach.core.holdRoom unitSeam a.pkt = true)
    (hs : s.mach.core.inService a = false) (hd : s.mach.core.isDup unitSeam a.pkt = false) (hlen : a.pkt.payload.length = 64)
    (hz : leAt a.pkt.payload 40 24 = 0) (hm : s.mach.core.maySubmit a.port u = true) (hu : s.mach.core.unitThere u = true)
    (hc : countFrom (s.mach.core.ringPI u q) (s.mach.core.ringCI u q) < 64) :
    Completes (.submit i) s (fun s' => s'.mach.core.ringPI u q = (s.mach.core.ringPI u q + 1) % 65536 ∧ OutsideKept s s'
      ∧ s'.mach.read (storeBase (u - 960) q (s.mach.core.ringPI u q % 64)) 64 = a.pkt.payload
      ∧ ∀ k, (k < storeBase (u - 960) q (s.mach.core.ringPI u q % 64) ∨ storeBase (u - 960) q (s.mach.core.ringPI u q % 64) + 64 ≤ k) →
        s'.mach.byteAt k = s.mach.byteAt k) := by
  refine completes_onMach (f := fun m => match m.core.net.arr[i]? with
    | some a => if a.pkt.typ = 6 then m.submitAt a else m
    | none => m) rfl hl fun s' ho he => ?_
  rw [ha] at he
  dsimp only at he
  rw [if_pos ht, submitAt_taken hq hr hs hd hlen hz hm hu hc] at he
  obtain ⟨-, hhi, hqn, hq⟩ := submitQueue_bounds hq
  refine ⟨?pi, ho, ?bytes, fun k hk => ?rest⟩
  case pi =>
    rw [he, Mach.onCore_core, Mach.write_core]
    generalize s.mach.core.ringPI u q = pi
    generalize s.mach.core.touchStream unitSeam a.pkt = c
    have hset := qget_qset_self c u q 0 (R.SEQ_QRING_PI 0) (pi + 1) (by decide) (by omega)
    obtain ⟨hcreg, htreg⟩ := markStream_regs (c.qset u q 0 (R.SEQ_QRING_PI 0) (pi + 1)) unitSeam a.pkt
    obtain ⟨hend, hendt, -⟩ := endArr_keeps ((c.qset u q 0 (R.SEQ_QRING_PI 0) (pi + 1)).markStream unitSeam a.pkt) a stOK
    have hqueue : isQueue u q = true := by rw [isQueue, decide_eq_true hhi, decide_eq_true hqn]; rfl
    exact (qget_congr (fun t off _ => tword_congr (hendt.trans htreg) t off)
      (fun off _ h => (hend off (by omega)).trans (cword_congr hcreg off)) hqueue 0 (by decide) _).trans hset
  case bytes =>
    rw [he, Mach.onCore_read]
    have h := Mach.read_write_self s.mach (storeBase (u - 960) q (s.mach.core.ringPI u q % 64)) a.pkt.payload
    rwa [hlen] at h
  case rest =>
    rw [he]
    exact Mach.byteAt_write_outside _ _ _ _ (by rwa [hlen])

/-- Settles O17: a TINC is applied once, as its stream says, and a SUBMIT takes the ring entry at PI. -/
theorem tincAndSubmitPacketsAct : Obligations.TincAndSubmitPacketsAct :=
  ⟨fun _ _ _ hl ha ht hu hc hn hr hs => tincPacket_completes hl ha ht hu hc hn hr hs,
    fun _ _ _ _ _ hl ha ht hq hr hs hd hlen hz hm hu hc => submit_completes hl ha ht hq hr hs hd hlen hz hm hu hc⟩

end Sys2Proof.Machine
end

section
/-! A head that waits on its tally (R196), and admission (R200, R201). -/

namespace Sys2Proof.Machine

/-! ## Tally wait (R196) -/

/-- What a head waiting on its tally becomes when it looks. -/
theorem checkWait_eq {c : Core} {x : Cmd} (hp : x.phase = .waitTally) :
    c.checkWait x = if x.fok = false ∧ c.tallyFault x.unit x.waitT = true then x.finish stTALLY
      else if x.waitN ≤ c.tallyCount x.unit x.waitT then { x with phase := .ready } else x := by
  unfold Core.checkWait
  rw [if_pos hp]
  simp

theorem checkWait_id (c : Core) (x : Cmd) : (c.checkWait x).id = x.id := by
  unfold Core.checkWait
  split
  · split
    · rfl
    · split <;> rfl
  · rfl

theorem tallyWait_completes {s : State} {u q : Nat} {x : Cmd} (hl : s.live = true) (hq : isQueue u q = true)
    (hx : s.mach.core.head? u q = some x) (hp : x.phase = .waitTally) :
    let fault := s.mach.core.tallyFault u x.waitT
    let there := decide (x.waitN ≤ s.mach.core.tallyCount u x.waitT)
    Completes (.tallyWait u q) s (fun s' => RegsKept s s' ∧ MemKept s s' ∧ OutsideKept s s' ∧
      (x.fok = false → fault = true → Finished s' x.id stTALLY) ∧
      (x.fok = true ∨ fault = false → there = true → Queued s' x.id (fun y => y.phase = .ready)) ∧
      (x.fok = true ∨ fault = false → there = false → x ∈ s'.mach.core.queues.cmds)) := by
  obtain ⟨hmem, rfl, -, -⟩ := head?_mem hx
  refine completes_onMach (exec_tallyWait hq) hl fun s' ho hs => ?_
  have hs : s'.mach = s.mach.onCore (fun c => c.putCmd (c.checkWait x)) := by
    rw [hs, Mach.tallyWait, hx]
    exact if_neg (by rw [hp]; decide)
  have hput {P : Cmd → Prop} {y : Cmd} (hy : s.mach.core.checkWait x = y) : P y → Queued s' x.id P :=
    queued_of_put (by rw [← hy]; exact checkWait_id _ _) (by rw [hs, ← hy]; rfl) ⟨x, hmem, rfl⟩
  have hlook := checkWait_eq (c := s.mach.core) hp
  refine ⟨regsKept_of_eq (core_of_onCore hs) rfl rfl, memKept_of_onCore hs, ho, fun hf h => ?fault, fun hf h => ?ready, fun hf h => ?wait⟩
  case fault =>
    rw [if_pos ⟨hf, h⟩] at hlook
    exact hput hlook ⟨rfl, rfl⟩
  all_goals rw [if_neg (fun hc => by simp [hc.1, hc.2] at hf)] at hlook
  case ready =>
    rw [if_pos (of_decide_eq_true h)] at hlook
    exact hput hlook rfl
  case wait =>
    rw [if_neg (of_decide_eq_false h)] at hlook
    rw [hs, Mach.onCore_core, hlook, Core.putCmd_cmds]
    exact List.mem_map.mpr ⟨x, hmem, if_pos rfl⟩

/-! ## What a pass of admission can do (R200) -/

/-- What admission leaves of a unit's heads: a ready command is one of those ready before, of its word, and a command whose
identity none ready had stands. -/
structure Arbitrated (u : Nat) (c d : Core) : Prop where
  creg : d.creg = c.creg
  ready : ∀ y ∈ d.queues.cmds, y.phase = .ready → y.unit = u →
    ∃ z ∈ c.queues.cmds, z.phase = .ready ∧ z.unit = u ∧ z.id = y.id ∧ z.word = y.word
  rest : ∀ z ∈ c.queues.cmds, (∀ y ∈ c.queues.cmds, y.phase = .ready → y.unit = u → y.id ≠ z.id) → z ∈ d.queues.cmds

theorem Arbitrated.of_same {u : Nat} {c d : Core} (hr : d.creg = c.creg) (hc : d.queues.cmds = c.queues.cmds) : Arbitrated u c d :=
  ⟨hr, fun y hy hp hu => ⟨y, hc ▸ hy, hp, hu, rfl, rfl⟩, fun _ hz _ => hc ▸ hz⟩

theorem Arbitrated.trans {u : Nat} {c d e : Core} (h : Arbitrated u c d) (h' : Arbitrated u d e) : Arbitrated u c e := by
  refine ⟨h'.creg.trans h.creg, fun y hy hp hu => ?_, fun z hz hne => h'.rest z (h.rest z hz hne) fun y hy hp hu => ?_⟩
  · obtain ⟨z, hz, hzp, hzu, hid, hw⟩ := h'.ready y hy hp hu
    obtain ⟨w, hw', hwp, hwu, hid', hww⟩ := h.ready z hz hzp hzu
    exact ⟨w, hw', hwp, hwu, hid'.trans hid, hww.trans hw⟩
  · obtain ⟨w, hw, hwp, hwu, hid, -⟩ := h.ready y hy hp hu
    exact hid ▸ hne w hw hwp hwu

/-- A ready head put back with its word is arbitrated. -/
theorem Arbitrated.put {u : Nat} {c : Core} {h y : Cmd} (hc : h ∈ c.queues.cmds) (hp : h.phase = .ready) (hu : h.unit = u)
    (hid : y.id = h.id) (hw : y.word = h.word) : Arbitrated u c (c.putCmd y) := by
  refine ⟨rfl, fun _ hz hzp hzu => ?_, fun z hz hne => ?_⟩
  · obtain ⟨w, hw', rfl⟩ := List.mem_map.mp hz
    split at hzp
    · next he => exact ⟨h, hc, hp, hu, by rw [if_pos he, hid], by rw [if_pos he, hw]⟩
    · next he =>
      rw [if_neg he] at hzu
      exact ⟨w, hw', hzp, hzu, by rw [if_neg he], by rw [if_neg he]⟩
  · exact List.mem_map.mpr ⟨z, hz, if_neg fun he => hne h hc hp hu (hid.symm.trans he.symm)⟩

/-- The ready head of a queue is one of its unit's ready commands. -/
theorem readyHead_mem {c : Core} {u q : Nat} {h : Cmd} (hh : c.readyHead u q = some h) :
    h ∈ c.queues.cmds ∧ h.unit = u ∧ h.q = q ∧ h.phase = .ready := by
  have hm := List.mem_of_find?_eq_some hh
  simp only [Core.queueCmds, List.mem_filter, Bool.and_eq_true, decide_eq_true_eq] at hm
  obtain ⟨hm, hu, hq⟩ := hm
  exact ⟨hm, hu, hq, of_decide_eq_true (List.find?_some hh :)⟩

/-- A command as it starts. -/
def Core.asStarted (c : Core) (x : Cmd) : Cmd :=
  { x with
    phase := .run
    started := true
    slot := ((List.range 16).find? (fun k => !(((c.others x).filter Cmd.started).map Cmd.slot).contains k)).getD 0
    skips := 0
    skipped := false
    shist := if x.unit < 960 then (List.range 16).map (fun n => c.tword x.unit (0x300 + 8 * n)) else []
    nflags := if x.unit < 960 then bits (c.tword x.unit 0x200).toNat 0 25 else 0 }

theorem start_eq (c : Core) (x : Cmd) : c.start x = c.putCmd (c.asStarted x) := rfl

theorem asStarted_fields (c : Core) (x : Cmd) : (c.asStarted x).id = x.id ∧ (c.asStarted x).phase = .run ∧ (c.asStarted x).word = x.word :=
  ⟨rfl, rfl, rfl⟩

theorem setCredit_keeps (c : Core) (u v : Nat) : (c.setCredit u v).creg = c.creg ∧ (c.setCredit u v).queues.cmds = c.queues.cmds := by
  unfold Core.setCredit
  split <;> exact ⟨rfl, rfl⟩

theorem setResv_keeps (c : Core) (u : Nat) (r : Option Nat) :
    (c.setResv u r).creg = c.creg ∧ (c.setResv u r).queues.cmds = c.queues.cmds := by
  unfold Core.setResv
  split
  · split <;> exact ⟨rfl, rfl⟩
  · exact ⟨rfl, rfl⟩

/-- A ready head started at the price of its cost. -/
theorem arbitrated_start {u q v : Nat} {c : Core} {h : Cmd} (hh : c.readyHead u q = some h) :
    Arbitrated u c ((c.setCredit u v).start h) := by
  obtain ⟨hm, hu, -, hp⟩ := readyHead_mem hh
  obtain ⟨hr, hc⟩ := setCredit_keeps c u v
  obtain ⟨hid, -, hw⟩ := asStarted_fields (c.setCredit u v) h
  exact (Arbitrated.of_same hr hc).trans (Arbitrated.put (hc ▸ hm) hp hu hid hw)

theorem arbitrated_rotate (u : Nat) (c : Core) (l : List Nat) : Arbitrated u c (c.rotate u l) := by
  induction l generalizing c with
  | nil => exact .of_same rfl rfl
  | cons q qs ih =>
    unfold Core.rotate
    cases hh : c.readyHead u q with
    | none => exact ih c
    | some h =>
      obtain ⟨hm, hu, -, hp⟩ := readyHead_mem hh
      dsimp only
      split
      · exact (arbitrated_start hh).trans (.of_same rfl rfl)
      · exact (Arbitrated.put (y := { h with skipped := true }) hm hp hu rfl rfl).trans (ih _)

theorem arbitrated_startFree (u : Nat) (c : Core) : Arbitrated u c (c.startFree u) := by
  unfold Core.startFree
  split
  · next h hh =>
    obtain ⟨q, -, hq⟩ := List.exists_of_findSome?_eq_some hh
    obtain ⟨hm, hu, -, hp⟩ := readyHead_mem (Option.eq_some_of_filter_eq_some hq)
    obtain ⟨hid, -, hw⟩ := asStarted_fields c h
    exact Arbitrated.put hm hp hu hid hw
  · exact .of_same rfl rfl

/-- After the heads dearer than the ceiling have been denied, a pass arbitrates those that are left. -/
theorem arbitrated_admitHead (u : Nat) (c : Core) : Arbitrated u (c.denyDear u) (c.admitHead u) := by
  unfold Core.admitHead
  dsimp only
  generalize c.denyDear u = c
  split
  · next q _ =>
    split
    · next h hh =>
      split
      · obtain ⟨hr, hc⟩ := setResv_keeps ((c.setCredit u (c.credit u - c.cost h)).start h) u none
        exact ((arbitrated_start hh).trans (.of_same hr hc)).trans (.of_same rfl rfl)
      · exact arbitrated_startFree u c
    · exact arbitrated_startFree u c
  · exact arbitrated_rotate u c _

/-! ## Heads dearer than the ceiling (R201) -/

/-- A command that arbitration denies where it is a ready one of its unit and dearer than the ceiling. -/
def Core.unlessDear (c : Core) (u : Nat) (x : Cmd) : Cmd :=
  if x.unit = u ∧ x.phase = .ready ∧ c.creditCap < c.cost x then x.finish stDENIED else x

theorem denyDear_eq (c : Core) (u : Nat) : c.denyDear u = c.mapCmds (c.unlessDear u) := rfl

theorem mem_denyDear {c : Core} {u : Nat} {y : Cmd} : y ∈ (c.denyDear u).queues.cmds ↔ ∃ z ∈ c.queues.cmds, c.unlessDear u z = y :=
  List.mem_map

theorem unlessDear_keeps (c : Core) (u : Nat) (x : Cmd) :
    (c.unlessDear u x).id = x.id ∧ (c.unlessDear u x).unit = x.unit ∧ (c.unlessDear u x).q = x.q := by
  unfold Core.unlessDear
  split <;> exact ⟨rfl, rfl, rfl⟩

/-- What is still ready was not denied, and is no dearer than the ceiling where it is of the unit. -/
theorem unlessDear_ready {c : Core} {u : Nat} {x : Cmd} (h : (c.unlessDear u x).phase = .ready) :
    c.unlessDear u x = x ∧ (x.unit = u → c.cost x ≤ c.creditCap) := by
  unfold Core.unlessDear at *
  split at h
  · exact absurd (show CPhase.done = .ready from h) (by decide)
  · next hc => exact ⟨if_neg hc, fun hu => Nat.le_of_not_lt fun hd => hc ⟨hu, h, hd⟩⟩

theorem cost_congr {c d : Core} (hr : d.creg = c.creg) {x y : Cmd} (hw : y.word = x.word) : d.cost y = c.cost x := by
  unfold Core.cost Cmd.eclass
  rw [hw, rd_congr hr, rd_congr hr]

/-- A ready head dearer than the ceiling ends with DENIED, and no ready head of its unit that is dearer is left. -/
theorem admitHead_denies (c : Core) (u : Nat) :
    (∀ h, (∀ y ∈ c.queues.cmds, y.id = h.id → y = h) → h ∈ c.queues.cmds → h.unit = u → h.phase = .ready → c.creditCap < c.cost h →
      h.finish stDENIED ∈ (c.admitHead u).queues.cmds) ∧
    ∀ y ∈ (c.admitHead u).queues.cmds, y.unit = u → y.phase = .ready → c.cost y ≤ c.creditCap := by
  have ha := arbitrated_admitHead u c
  refine ⟨fun h hid hm hu hp hd => ?_, fun y hy hu hp => ?_⟩
  · have he : c.unlessDear u h = h.finish stDENIED := if_pos ⟨hu, hp, hd⟩
    refine ha.rest _ (mem_denyDear.mpr ⟨h, hm, he⟩) fun y hy hyp hyu hyi => ?_
    obtain ⟨z, hz, rfl⟩ := mem_denyDear.mp hy
    obtain rfl := hid z hz ((unlessDear_keeps c u z).1.symm.trans hyi)
    rw [he] at hyp
    exact absurd (show CPhase.done = .ready from hyp) (by decide)
  · obtain ⟨w, hw, hwp, hwu, -, hword⟩ := ha.ready y hy hp hu
    obtain ⟨z, hz, rfl⟩ := mem_denyDear.mp hw
    obtain ⟨he, hcost⟩ := unlessDear_ready hwp
    rw [he] at hwu hword
    rw [cost_congr rfl hword.symm]
    exact hcost hwu

/-! ## The only ready head (R200) -/

/-- A queue without a ready head has none after heads have been denied. -/
theorem denyDear_readyHead_none {c : Core} {u q : Nat} (h : c.readyHead u q = none) : (c.denyDear u).readyHead u q = none := by
  have hk (x : Cmd) := unlessDear_keeps c u x
  simp only [Core.readyHead, Core.queueCmds, List.find?_eq_none, List.mem_filter, denyDear_eq, Core.mapCmds_cmds] at h ⊢
  rintro y ⟨hy, hq⟩
  obtain ⟨z, hz, rfl⟩ := List.mem_map.mp hy
  rw [(hk z).2.1, (hk z).2.2] at hq
  intro hp
  rw [(unlessDear_ready (of_decide_eq_true hp)).1] at hp
  exact h z ⟨hz, hq⟩ hp

/-- A ready head no dearer than the ceiling stays its queue's ready head. -/
theorem denyDear_readyHead {c : Core} {u q : Nat} {h : Cmd} (hh : c.readyHead u q = some h) (hd : c.cost h ≤ c.creditCap) :
    (c.denyDear u).readyHead u q = some h := by
  have hq : (fun m : Cmd => decide (m.unit = u) && decide (m.q = q)) ∘ c.unlessDear u
      = fun m => decide (m.unit = u) && decide (m.q = q) := by
    funext x
    simp [unlessDear_keeps]
  have hs : c.unlessDear u h = h := if_neg fun hc => Nat.not_lt.mpr hd hc.2.2
  unfold Core.readyHead Core.queueCmds at hh ⊢
  rw [denyDear_eq, Core.mapCmds_cmds, List.filter_map, hq, List.find?_map, Option.map_eq_some_iff]
  obtain ⟨hp, as, bs, he, hn⟩ := List.find?_eq_some_iff_append.mp hh
  refine ⟨h, List.find?_eq_some_iff_append.mpr ⟨?_, as, bs, he, fun a ha => ?_⟩, hs⟩
  · rw [Function.comp_apply, hs, hp]
  · have := hn a ha
    simp only [Bool.not_eq_true', decide_eq_false_iff_not, Function.comp_apply] at this ⊢
    exact fun hc => this ((unlessDear_ready hc).1 ▸ hc)

/-- Where one queue alone has a ready head and it fits, the rotation starts it. -/
theorem rotate_only {c : Core} {u q : Nat} {h : Cmd} {l : List Nat} (hq : q ∈ l) (hh : c.readyHead u q = some h)
    (ho : ∀ q' ∈ l, q' ≠ q → c.readyHead u q' = none) (hf : c.cost h ≤ c.credit u) :
    c.rotate u l = ((c.setCredit u (c.credit u - c.cost h)).start h).setLast u q := by
  induction l with
  | nil => exact absurd hq List.not_mem_nil
  | cons q' qs ih =>
    unfold Core.rotate
    by_cases he : q' = q
    · subst he
      rw [hh]
      exact if_pos hf
    · rw [ho q' List.mem_cons_self he]
      exact ih ((List.mem_cons.mp hq).resolve_left (Ne.symm he)) fun p hp => ho p (List.mem_cons_of_mem _ hp)

/-- The rotation of a unit takes its queues, and no other. -/
theorem mem_rotation {c : Core} {u q : Nat} : q ∈ c.rotation u ↔ q < queuesOf u := by
  unfold Core.rotation
  simp only [List.mem_map, List.mem_range]
  generalize SMap.get 0 c.queues.last u = l
  constructor
  · rintro ⟨i, hi, rfl⟩
    exact Nat.mod_lt _ (by omega)
  · intro hq
    refine ⟨(q + (queuesOf u - (l + 1) % queuesOf u)) % queuesOf u, Nat.mod_lt _ (by omega), ?_⟩
    have hl := Nat.mod_lt (l + 1) (show 0 < queuesOf u by omega)
    rw [Nat.add_mod, Nat.mod_mod, ← Nat.add_mod, ← Nat.mod_add_mod]
    rw [show (l + 1) % queuesOf u + (q + (queuesOf u - (l + 1) % queuesOf u)) = q + queuesOf u by omega, Nat.add_mod_right,
      Nat.mod_eq_of_lt hq]

/-- The credit of a unit reads as it was set. -/
theorem setCredit_credit (c : Core) (u v : Nat) (hv : u < 960 → v < 2 ^ 32) : (c.setCredit u v).credit u = v := by
  unfold Core.setCredit Core.credit
  split
  · next hu => exact (Core.trd_twr_self c u R.SEQ_ALLOW_CREDIT v (by decide) (by decide)).trans (Nat.mod_eq_of_lt (hv hu))
  · exact SMap.get_set_self 0 v _ _

theorem credit_lt (c : Core) {u : Nat} (hu : u < 960) : c.credit u < 2 ^ 32 := by
  unfold Core.credit
  rw [if_pos hu]
  exact bits_lt _ _ _

/-- Starting a command and noting its queue leave the credit. -/
theorem started_credit (c : Core) (u q : Nat) (h : Cmd) : ((c.start h).setLast u q).credit u = c.credit u := rfl

/-- ADMISSION of a unit that has queues is a pass of arbitration. -/
theorem exec_admission {s : State} {u : Nat} (hu : u < 1060) : exec (.admission u) s = s.onCore (fun c => c.admitHead u) := by
  show onlyIf (decide (u < 1060)) _ = _
  rw [decide_eq_true hu, onlyIf_true]

/-- With no reservation held, the only ready head of a unit starts where it fits. -/
theorem admitHead_only {c : Core} {u q : Nat} {h : Cmd} (hq : q < queuesOf u) (hr : c.resv u = none) (hh : c.readyHead u q = some h)
    (ho : ∀ q' < queuesOf u, q' ≠ q → c.readyHead u q' = none) (hcap : c.cost h ≤ c.creditCap) (hf : c.cost h ≤ c.credit u) :
    c.admitHead u = (((c.denyDear u).setCredit u (c.credit u - c.cost h)).start h).setLast u q := by
  unfold Core.admitHead
  dsimp only
  rw [show (c.denyDear u).resv u = none from hr]
  exact rotate_only (mem_rotation.mpr hq) (denyDear_readyHead hh hcap)
    (fun q' hq' hne => denyDear_readyHead_none (ho q' (mem_rotation.mp hq') hne)) hf

theorem admission_completes {s : State} {u q : Nat} {h : Cmd} (hl : s.live = true) (hq : isQueue u q = true) :
    let c := s.mach.core
    (c.resv u = none → c.readyHead u q = some h → (∀ q' < queuesOf u, q' ≠ q → c.readyHead u q' = none) →
      c.cost h ≤ c.creditCap → c.cost h ≤ c.credit u → Completes (.admission u) s (fun s' =>
        s'.mach.core.credit u = c.credit u - c.cost h ∧ MemKept s s' ∧ OutsideKept s s' ∧
        (∃ y ∈ s'.mach.core.queues.cmds, y.id = h.id) ∧
        ∀ y ∈ s'.mach.core.queues.cmds, y.id = h.id → y.phase = .run ∧ y.word = h.word)) ∧
    Completes (.admission u) s (fun s' =>
      (c.readyHead u q = some h → (∀ y ∈ c.queues.cmds, y.id = h.id → y = h) → c.creditCap < c.cost h →
        ∃ y ∈ s'.mach.core.queues.cmds, y.id = h.id ∧ y.phase = .done ∧ y.status = stDENIED) ∧
      ∀ y ∈ s'.mach.core.queues.cmds, y.unit = u → y.phase = .ready → c.cost y ≤ c.creditCap) := by
  intro c
  obtain ⟨hu, -, -⟩ := isQueue_bounds hq
  rw [isQueue, Bool.and_eq_true, decide_eq_true_eq, decide_eq_true_eq] at hq
  refine ⟨fun hr hh ho hcap hf => ?starts, ?denies⟩
  case starts =>
    refine completes_onCore (exec_admission hu) hl fun s' hm hk hs => ?_
    rw [admitHead_only hq.2 hr hh ho hcap hf] at hs
    obtain ⟨hid, hrun, hword⟩ := asStarted_fields ((c.denyDear u).setCredit u (c.credit u - c.cost h)) h
    have hcmds : s'.mach.core.queues.cmds = (c.denyDear u).queues.cmds.map (fun z =>
        if z.id = (((c.denyDear u).setCredit u (c.credit u - c.cost h)).asStarted h).id
        then ((c.denyDear u).setCredit u (c.credit u - c.cost h)).asStarted h else z) := by
      rw [← (setCredit_keeps (c.denyDear u) u (c.credit u - c.cost h)).2, hs]
      rfl
    have hin : ∃ z ∈ (c.denyDear u).queues.cmds, z.id = h.id :=
      ⟨_, mem_denyDear.mpr ⟨h, (readyHead_mem hh).1, rfl⟩, (unlessDear_keeps c u h).1⟩
    obtain ⟨hex, hall⟩ : Queued s' h.id (fun y => y.phase = .run ∧ y.word = h.word) := queued_of_put hid hcmds hin ⟨hrun, hword⟩
    refine ⟨?_, hm, hk, hex, hall⟩
    rw [hs, started_credit]
    exact setCredit_credit _ _ _ fun hu => Nat.lt_of_le_of_lt (Nat.sub_le _ _) (credit_lt c hu)
  case denies =>
    refine completes_onCore (exec_admission hu) hl fun s' _ _ hs => ?_
    obtain ⟨hdenied, hleft⟩ := admitHead_denies c u
    rw [hs]
    refine ⟨fun hh hid hd => ?_, hleft⟩
    obtain ⟨hm, hhu, -, hp⟩ := readyHead_mem hh
    exact ⟨h.finish stDENIED, hdenied h hid hm hhu hp hd, rfl, rfl, rfl⟩

end Sys2Proof.Machine
end

section
/-! What reads of tile memory leave, fetch (R187, R188), and the waits and admission that follow it (R196, R200, R201). -/

namespace Sys2Proof.Machine

/-! ## What a read leaves -/

/-- What a read of tile memory, its errors counted and its corrections noted, leaves: the queue and tally registers of every
unit, and the commands. -/
structure ReadKeeps (c d : Core) : Prop where
  tile : ∀ t off, off < 0x1000 → d.tword t off = c.tword t off
  group : ∀ off, 0x100000 ≤ off → off < 0x200000 → d.cword off = c.cword off
  cmds : d.queues.cmds = c.queues.cmds

theorem ReadKeeps.refl (c : Core) : ReadKeeps c c := ⟨fun _ _ _ => rfl, fun _ _ _ => rfl, rfl⟩

theorem ReadKeeps.trans {c d e : Core} (h : ReadKeeps c d) (h' : ReadKeeps d e) : ReadKeeps c e :=
  ⟨fun t off ho => (h'.tile t off ho).trans (h.tile t off ho), fun off hl hh => (h'.group off hl hh).trans (h.group off hl hh),
    h'.cmds.trans h.cmds⟩

theorem ReadKeeps.of_same {c d : Core} (hr : d.creg = c.creg) (ht : d.treg = c.treg) (hc : d.queues.cmds = c.queues.cmds) : ReadKeeps c d :=
  ⟨fun t off _ => tword_congr ht t off, fun off _ _ => cword_congr hr off, hc⟩

/-- A write of one of a tile's memory registers. -/
theorem ReadKeeps.twr (c : Core) (t : Nat) {f : Fld} (v : Nat) (hlo : 0x1000 ≤ f.off) (hhi : f.off < 0x4000) : ReadKeeps c (c.twr t f v) :=
  ⟨fun t' off ho => (Core.tword_setTword _ _ _ _ _ _ hhi (by omega)).trans (if_neg (by omega)), fun _ _ _ => rfl, rfl⟩

/-- A field of a queue's register reads as before. -/
theorem ReadKeeps.qget {c d : Core} (h : ReadKeeps c d) {u q : Nat} (hq : isQueue u q = true) (k : Nat) (hk : k ≤ 2) (f : Fld) :
    d.qget u q k f = c.qget u q k f := qget_congr h.tile h.group hq k hk f

theorem countCorrected_keeps (c : Core) (t k : Nat) : ReadKeeps c (c.countCorrected t k) := by
  unfold Core.countCorrected
  split
  · exact .twr c t _ (by decide) (by decide)
  · split
    · exact .twr c t _ (by decide) (by decide)
    · exact .refl c

theorem callRow_keeps (c : Core) (u line : Nat) : ReadKeeps c (c.callRow u line) := by
  unfold Core.callRow
  dsimp only
  split
  · exact .refl c
  · exact .of_same rfl rfl rfl

theorem noteFixed_keeps (c : Core) (u line : Nat) (ps : List Nat) : ReadKeeps c (c.noteFixed u line ps) := by
  unfold Core.noteFixed
  dsimp only
  split
  · exact .of_same rfl rfl rfl
  · exact .of_same rfl rfl rfl
  · refine .trans ?_ (callRow_keeps _ _ _)
    exact .of_same rfl rfl rfl

/-- A record and its notice leave what a read leaves. -/
theorem corrected_keeps (c : Core) (code kind unit info : Nat) : ReadKeeps c (c.corrected code kind unit info) := by
  obtain ⟨-, hcreg, htreg, hqueues, -⟩ := record_spec c 0 (eventSource code) unit 0 code info
  have hrecord : ReadKeeps c (c.record 0 (eventSource code) unit 0 code info) :=
    ⟨fun t off _ => tword_congr htreg t off, fun off hlo _ => hcreg off (by simp only [R.LDG_FLOG_WI]; omega), by rw [hqueues]⟩
  unfold Core.corrected
  exact hrecord.trans (.of_same (notify_creg _ _ _ _) (notify_treg _ _ _ _) (by rw [notify_queues]))

theorem foundUncorrectable_keeps (c : Core) (t line : Nat) : ReadKeeps c (c.foundUncorrectable t line) := by
  unfold Core.foundUncorrectable
  dsimp only
  refine .trans (d := c.tbump t R.MEM_ERRCNT_UNCORR 1) (.twr c t _ (by decide) (by decide)) (.trans ?_ (corrected_keeps _ _ _ _ _))
  split
  · exact (ReadKeeps.twr _ _ _ (by decide) (by decide)).trans (.twr _ _ _ (by decide) (by decide))
  · exact .refl _

theorem readLine_keeps (m : Mach) (t i base line : Nat) (w : Bool) : ReadKeeps m.core (m.readLine t i base line w).1.core := by
  unfold Mach.readLine
  dsimp only
  split
  · exact .refl _
  · split
    · next l k _ =>
      refine (countCorrected_keeps m.core t k).trans ?_
      dsimp only
      split
      · exact noteFixed_keeps _ _ _ _
      · exact .refl _
    · refine (foundUncorrectable_keeps m.core t line).trans ?_
      dsimp only
      split
      · exact callRow_keeps _ _ _
      · exact .refl _

theorem readInOrder_keeps {f : Mach → Nat → Mach × Option (List Byte)} (h : ∀ m line, ReadKeeps m.core (f m line).1.core) (m : Mach)
    (ls : List Nat) : ReadKeeps m.core (readInOrder f m ls).1.core := by
  induction ls generalizing m with
  | nil => exact .refl _
  | cons line rest ih =>
    have e := h m line
    unfold readInOrder
    split
    · next heq => rw [heq] at e; exact e
    · next heq => rw [heq] at e; exact e.trans (ih _)

theorem tileRead_keeps (m : Mach) (t p n : Nat) : ReadKeeps m.core (m.tileRead t p n).1.core :=
  readInOrder_keeps (fun m _ => readLine_keeps m _ _ _ _ _) m _

theorem readSlot_keeps (m : Mach) (x : Cmd) (p n : Nat) : (m.readSlot x p n).All (fun m' => ReadKeeps m.core m'.core) := by
  unfold Mach.readSlot
  split
  · exact .refl _
  · split
    · exact .refl _
    · exact .refl _
    · have e := tileRead_keeps m x.unit p n
      split <;> next heq => rw [heq] at e; exact e

theorem noteSeen_keeps (c : Core) (x : Cmd) (p : Nat) (bs : List Byte) : ReadKeeps c (c.noteSeen x p bs) := by
  unfold Core.noteSeen
  split
  · exact .refl c
  · exact .of_same rfl rfl rfl

theorem readChunks_keeps (m : Mach) (x : Cmd) (rs : List (Nat × Nat)) : (m.readChunks x rs).All (fun m' => ReadKeeps m.core m'.core) := by
  induction rs generalizing m with
  | nil => exact .refl _
  | cons r rs ih =>
    refine (readSlot_keeps m x r.1 r.2).bind fun m1 bs h1 => ?_
    have e := ih m1
    cases hr : m1.readChunks x rs with
    | wait m2 s => rw [hr] at e; exact h1.trans (e.trans (noteSeen_keeps _ _ _ _))
    | ok m2 v => rw [hr] at e; exact h1.trans e
    | held => trivial
    | fail m2 st => rw [hr] at e; exact h1.trans e

theorem localRead_keeps (m : Mach) (x : Cmd) (cls off n : Nat) : (m.localRead x cls off n).All (fun m' => ReadKeeps m.core m'.core) := by
  unfold Mach.localRead
  split
  · exact .refl _
  · dsimp only
    split
    · trivial
    · split
      · exact .refl _
      · refine (readChunks_keeps m x _).bind fun m1 bs h1 => ?_
        show ReadKeeps m.core (Mach.core (if _ then _ else _))
        split
        · exact h1
        · exact h1.trans (.of_same rfl rfl rfl)

/-- The head checks that read leave what their reads leave. -/
theorem chainHead_keeps (m : Mach) (x : Cmd) : ReadKeeps m.core (m.chainHead x).1.core := by
  unfold Mach.chainHead
  split
  · exact .refl _
  · have e := localRead_keeps m x clsChain (chSptr x.word) (16 * chNS x.word)
    cases hr : m.localRead x clsChain (chSptr x.word) (16 * chNS x.word) with
    | fail m1 st => rw [hr] at e; exact e
    | wait m1 s => rw [hr] at e; exact e
    | held => exact .refl _
    | ok m1 bs =>
      rw [hr] at e
      dsimp only
      split <;> exact e

theorem gatherHead_keeps (m : Mach) (x : Cmd) : ReadKeeps m.core (m.gatherHead x).1.core := by
  unfold Mach.gatherHead
  split
  · exact .refl _
  · have e := localRead_keeps m x clsMover (gaList x.word) (16 * gaCount x.word)
    cases hr : m.localRead x clsMover (gaList x.word) (16 * gaCount x.word) with
    | fail m1 st => rw [hr] at e; exact e
    | wait m1 s => rw [hr] at e; exact e
    | held => exact .refl _
    | ok m1 bs => rw [hr] at e; exact e

/-- PSUM's head check leaves the machine as it was. -/
theorem psumHead_mach (m : Mach) (x : Cmd) : (m.psumHead x).1 = m := by
  unfold Mach.psumHead
  simp only [apply_ite Prod.fst, ite_self]

/-- The check of a command at the head by its engine. -/
def Mach.engineHead (m : Mach) (x : Cmd) : Mach × HeadAns :=
  if x.opcode < 0x10 then (m, HeadAns.ofOption (m.core.seqHead x))
  else if x.opcode = 0x10 then (m, .ofOption (m.core.mmaHead x))
  else if x.opcode = 0x20 then m.chainHead x
  else if x.opcode = 0x21 then m.psumHead x
  else if x.opcode = 0x32 then m.gatherHead x
  else (m, .ofOption (m.core.moverHead x))

theorem engineHead_keeps (m : Mach) (x : Cmd) : ReadKeeps m.core (m.engineHead x).1.core := by
  unfold Mach.engineHead
  split
  · exact .refl _
  split
  · exact .refl _
  split
  · exact chainHead_keeps m x
  split
  · rw [psumHead_mach]; exact .refl _
  split
  · exact gatherHead_keeps m x
  · exact .refl _

/-- The machine after a head check is the one its engine's check leaves. -/
theorem headCheck_mach (m : Mach) (x : Cmd) : (m.headCheck x).1 = m ∨ (m.headCheck x).1 = (m.engineHead x).1 := by
  have he : m.headCheck x = if !x.headerOk then (m, .status stFORMAT) else
      match (m.engineHead x).2 with
      | .pass => if (m.engineHead x).1.core.serving then m.engineHead x else ((m.engineHead x).1, .status stDENIED)
      | _ => m.engineHead x := rfl
  rw [he]
  split
  · exact .inl rfl
  · right
    split
    · split <;> rfl
    · rfl

theorem headCheck_keeps (m : Mach) (x : Cmd) : ReadKeeps m.core (m.headCheck x).1.core := by
  obtain h | h := headCheck_mach m x <;> rw [h]
  · exact .refl _
  · exact engineHead_keeps m x

/-! ## A command on its way to the head -/

/-- What a command keeps from its fetch on: its unit, queue, count and word. -/
def Cmd.sameEntry (x y : Cmd) : Prop := y.unit = x.unit ∧ y.q = x.q ∧ y.idx = x.idx ∧ y.word = x.word

theorem Cmd.sameEntry.id {x y : Cmd} (h : x.sameEntry y) : y.id = x.id := by
  obtain ⟨hu, hq, hi, -⟩ := h
  unfold Cmd.id
  rw [hu, hq, hi]

theorem checkWait_sameEntry (c : Core) (x : Cmd) : x.sameEntry (c.checkWait x) := by
  unfold Core.checkWait
  split
  · split
    · exact ⟨rfl, rfl, rfl, rfl⟩
    · split <;> exact ⟨rfl, rfl, rfl, rfl⟩
  · exact ⟨rfl, rfl, rfl, rfl⟩

theorem atAnswer_sameEntry (c : Core) (x : Cmd) (a : HeadAns) : x.sameEntry (c.atAnswer x a) := by
  cases a with
  | hold => exact ⟨rfl, rfl, rfl, rfl⟩
  | status st => exact ⟨rfl, rfl, rfl, rfl⟩
  | pass =>
    show x.sameEntry (c.passHead x)
    unfold Core.passHead
    split
    · exact ⟨rfl, rfl, rfl, rfl⟩
    · split
      · exact ⟨rfl, rfl, rfl, rfl⟩
      · exact checkWait_sameEntry c { x with phase := .waitTally }

/-- A fetched command that tries to reach the head stands in its queue, with its word, and the queue's registers are kept. -/
theorem toHead_keeps {m : Mach} {x : Cmd} (hx : x ∈ m.core.queues.cmds) :
    (∃ y ∈ (m.toHead x).core.queues.cmds, x.sameEntry y) ∧
      ∀ u q, isQueue u q = true → ∀ k ≤ 2, ∀ f, (m.toHead x).core.qget u q k f = m.core.qget u q k f := by
  by_cases hs : inflightLimit x.unit x.q ≤ ((m.core.others x).filter Cmd.started).length ∨ (x.fence = true ∧ m.core.others x ≠ [])
  · rw [show m.toHead x = m from if_pos hs]
    exact ⟨⟨x, hx, rfl, rfl, rfl, rfl⟩, fun _ _ _ _ _ _ => rfl⟩
  · obtain ⟨hn, hf⟩ := not_or.mp hs
    have hk := headCheck_keeps m (m.atHead x)
    rw [toHead_eq (Nat.lt_of_not_le hn) (fun h => Classical.byContradiction fun hne => hf ⟨h, hne⟩)]
    generalize m.headCheck (m.atHead x) = r at hk
    have hsame := atAnswer_sameEntry r.1.core (m.atHead x) r.2
    refine ⟨⟨r.1.core.atAnswer (m.atHead x) r.2, ?_, hsame⟩, fun u q hq k hk' f => ?_⟩
    · rw [Mach.onCore_core, Core.putCmd_cmds, hk.cmds]
      exact List.mem_map.mpr ⟨x, hx, if_pos hsame.id.symm⟩
    · exact hk.qget hq k hk' f

/-! ## Fetch (R187, R188) -/

/-- Some of the bytes of a read are those of a shorter one. -/
theorem read_drop_take (m : Mach) (a i n k : Nat) (h : i + n ≤ k) : ((m.read a k).drop i).take n = m.read (a + i) n := by
  refine List.ext_getElem (by simp; omega) fun j h1 h2 => ?_
  simp [Mach.read_eq, Nat.add_assoc]

/-- A read of tile memory within one line in which no error stands gives its bytes and changes nothing. -/
theorem tileRead_oneLine {m : Mach} {t p n : Nat} (ht : touched 6 p n = [p / 64]) (hp : p % 64 + n ≤ 64)
    (he : m.lineErrs (lineId t (p / 64)) = []) : m.tileRead t p n = (m, some (m.read (tileBase t + p) n)) := by
  have hb : tileBase t + 64 * (p / 64) + p % 64 = tileBase t + p := by omega
  unfold Mach.tileRead readSpan
  rw [ht, readInOrder_clean (g := fun l => m.read (tileBase t + 64 * l) 64)
    (fun l hl => by rw [List.mem_singleton.mp hl]; exact Mach.readLine_clean _ _ _ _ _ _ he)]
  rw [List.flatMap_singleton, ← hb, ← read_drop_take m _ _ _ 64 hp]
  rfl

/-- A chunk whose tagged slots are all FULL can be read. -/
theorem readTags_go {c : Core} {t p n : Nat} (h : ∀ k ∈ c.taggedSlots t p n, c.tag t k = .full) : c.readTags t p n = .go := by
  have hfailed : (c.taggedSlots t p n).any (fun s => decide (c.tag t s = .failed)) = false :=
    List.any_eq_false.mpr fun k hk => by rw [h k hk]; decide
  have hfull : (c.taggedSlots t p n).find? (fun s => decide (c.tag t s ≠ .full)) = none :=
    List.find?_eq_none.mpr fun k hk => by rw [h k hk]; decide
  show (if (c.taggedSlots t p n).any _ then TagAns.fail else match (c.taggedSlots t p n).find? _ with
    | some s => .wait s
    | none => .go) = _
  rw [hfailed, hfull]
  rfl

/-- A read of 32 aligned bytes that nothing holds back, where no command's read has waited, gives them and changes nothing. -/
theorem localRead_now {m : Mach} {x : Cmd} {cls off : Nat} (hp : 32 ∣ x.phys off) (hs : m.core.queues.seen = [])
    (hr : m.ReadsNow x cls off 32) : m.localRead x cls off 32 = .ok m (m.bytesAt x off 32) := by
  obtain ⟨hstatus, hbank, htags, herr⟩ := hr
  have hline : touched 6 (x.phys off) 32 = [x.phys off / 64] := touched_aligned (by decide) hp (by decide) (by decide)
  have hslot : touched 8 (x.phys off) 32 = [x.phys off / 256] := touched_aligned (by decide) hp (by decide) (by decide)
  obtain ⟨a, ha⟩ := hp
  have hchunks : slotChunks (x.phys off) 32 = [(x.phys off, 32)] := by
    unfold slotChunks
    rw [hslot, List.map_singleton, show max (x.phys off) (256 * (x.phys off / 256)) = x.phys off by omega,
      show min (x.phys off + 32) (256 * (x.phys off / 256 + 1)) - x.phys off = 32 by omega]
  have hseen : m.core.seenAt x (x.phys off) 32 = none := by unfold Core.seenAt; rw [hs]; rfl
  have hgo := readTags_go htags
  have hread := tileRead_oneLine hline (by omega) (herr _ (by rw [hline]; exact List.mem_singleton_self _))
  have hone : m.readSlot x (x.phys off) 32 = .ok m (m.bytesAt x off 32) := by
    unfold Mach.readSlot
    rw [hseen, hgo]
    dsimp only
    rw [hread]
    rfl
  unfold Mach.localRead
  rw [hstatus]
  dsimp only
  rw [hbank, if_neg (by decide), if_neg ?_, hchunks]
  · show (Ans.bind ((m.readSlot x (x.phys off) 32).bind _) _) = _
    rw [hone]
    show Ans.ok (if m.core.queues.seen = [] then m else _) (m.bytesAt x off 32 ++ []) = _
    rw [if_pos hs, List.append_nil]
  · unfold Core.meetsFailed
    rw [hchunks]
    simp [hgo]

/-- Whether nothing holds a queue's next fetch back (R185, R187). -/
def Core.mayFetch (c : Core) (u q : Nat) : Prop :=
  ¬ (c.halted u q ∨ !c.unitFetches u ∨ c.toFetch u q = 0 ∨ (c.queueCmds u q).any (fun x => !x.started)
    ∨ ((c.markOn u q (c.ringCI u q)).isNone ∧ inflightLimit u q ≤ ((c.queueCmds u q).filter Cmd.started).length))

theorem mayFetch_of {c : Core} {u q : Nat} (hh : c.halted u q = false) (hf : c.unitFetches u = true) (ht : c.toFetch u q ≠ 0)
    (hs : ∀ y ∈ c.queueCmds u q, y.started = true) (hl : (c.queueCmds u q).length < inflightLimit u q) : c.mayFetch u q := by
  have hany : (c.queueCmds u q).any (fun x => !x.started) = false := List.any_eq_false.mpr fun y hy => by rw [hs y hy]; decide
  have hlim : ¬ inflightLimit u q ≤ ((c.queueCmds u q).filter Cmd.started).length :=
    Nat.not_le.mpr (Nat.lt_of_le_of_lt (List.length_filter_le _ _) hl)
  unfold Core.mayFetch
  simp only [hh, hf, ht, hany, hlim]
  simp

/-- A queue that may fetch takes the entry that it reads. -/
theorem commandFetch_takes {m m' : Mach} {u q : Nat} {bs : List Byte} (h : m.core.mayFetch u q)
    (hr : m.fetchBytes u q (m.core.ringCI u q) = .ok m' bs) : m.commandFetch u q = m'.takeEntry u q (m.core.ringCI u q) bs := by
  refine (if_neg h).trans ?_
  rw [hr]

/-- It halts where the read fails. -/
theorem commandFetch_halts {m m' : Mach} {u q st : Nat} (h : m.core.mayFetch u q)
    (hr : m.fetchBytes u q (m.core.ringCI u q) = .fail m' st) : m.commandFetch u q = m'.onCore (fun c => c.haltQueue u q st) := by
  refine (if_neg h).trans ?_
  rw [hr]

/-- What the command of a ring entry is, as it is fetched. -/
def Core.entryCmd (c : Core) (u q ci : Nat) (bs : List Byte) : Cmd :=
  let x := ({ unit := u, q := q, idx := ci, word := leAt bs 0 32, recAddr := leAt bs 32 8 } : Cmd).asSeen c
  { x with p := c.partsOfCmd x }

/-- Commands with one more at their end. -/
def Core.addCmd (c : Core) (y : Cmd) : Core := { c with queues := { c.queues with cmds := c.queues.cmds ++ [y] } }

/-- A queue's count past the entry it fetched, and the slot it consumed. -/
def Core.advanceCI (c : Core) (u q ci : Nat) : Core := (c.fetchConsumes u q ci).qset u q 1 (R.SEQ_QSTAT_CI 0) (ci + 1)

theorem takeEntry_eq (m : Mach) (u q ci : Nat) (bs : List Byte) :
    m.takeEntry u q ci bs = match (m.core.advanceCI u q ci).markOn u q ci with
      | some a => m.onCore (fun _ => (((m.core.advanceCI u q ci).passMark a ci).addCmd
          ((m.core.entryCmd u q ci bs).finish stABORTED)).abortedPost (m.core.entryCmd u q ci bs))
      | none => (m.onCore (fun _ => (m.core.advanceCI u q ci).addCmd (m.core.entryCmd u q ci bs))).toHead
          (m.core.entryCmd u q ci bs) := rfl

theorem entryCmd_fields (c : Core) (u q ci : Nat) (bs : List Byte) : (c.entryCmd u q ci bs).unit = u ∧ (c.entryCmd u q ci bs).q = q
    ∧ (c.entryCmd u q ci bs).idx = ci ∧ (c.entryCmd u q ci bs).word = leAt bs 0 32 := ⟨rfl, rfl, rfl, rfl⟩

theorem abortedPost_spec (c : Core) (x : Cmd) : NetOnly c (c.abortedPost x) := by
  unfold Core.abortedPost
  split
  · exact (inject_spec _ _ _).1
  · exact .refl c

/-- Traffic in the mesh leaves a queue's registers. -/
theorem netOnly_qget {c d : Core} (h : NetOnly c d) {u q : Nat} (hq : isQueue u q = true) (k : Nat) (hk : k ≤ 2) (f : Fld) :
    d.qget u q k f = c.qget u q k f :=
  qget_congr (fun t off _ => tword_congr h.treg t off) (fun off _ hhi => h.creg off (by omega)) hq k hk f

/-- The count of a queue reads as it was advanced. -/
theorem advanceCI_ringCI (c : Core) {u q : Nat} (hq : isQueue u q = true) (ci : Nat) :
    (c.advanceCI u q ci).ringCI u q = (ci + 1) % 65536 := by
  obtain ⟨-, hq, -⟩ := isQueue_bounds hq
  exact qget_qset_self _ u q 1 (R.SEQ_QSTAT_CI 0) (ci + 1) (by decide) (by omega)

/-- An entry taken: its command stands in its queue, and the queue's count has advanced. -/
theorem takeEntry_takes (m : Mach) {u q : Nat} (hq : isQueue u q = true) (ci : Nat) (bs : List Byte) :
    (m.takeEntry u q ci bs).core.ringCI u q = (ci + 1) % 65536 ∧ ∃ y ∈ (m.takeEntry u q ci bs).core.queues.cmds,
      y.unit = u ∧ y.q = q ∧ y.idx = ci ∧ y.word = leAt bs 0 32 := by
  have hci := advanceCI_ringCI m.core hq ci
  rw [takeEntry_eq]
  generalize m.core.advanceCI u q ci = c at hci
  generalize hx : m.core.entryCmd u q ci bs = x
  have hfields := entryCmd_fields m.core u q ci bs
  rw [hx] at hfields
  split
  · next a _ =>
    have hnet := abortedPost_spec ((c.passMark a ci).addCmd (x.finish stABORTED)) x
    refine ⟨(netOnly_qget hnet hq 1 (by decide) _).trans hci, x.finish stABORTED, ?_, hfields⟩
    rw [Mach.onCore_core, hnet.queues]
    exact List.mem_append_right _ (List.mem_singleton_self _)
  · have hin : x ∈ (c.addCmd x).queues.cmds := List.mem_append_right _ (List.mem_singleton_self x)
    obtain ⟨⟨y, hy, hu, hq', hi, hw⟩, hkeep⟩ := toHead_keeps (m := m.onCore (fun _ => c.addCmd x)) hin
    obtain ⟨hxu, hxq, hxi, hxw⟩ := hfields
    exact ⟨(hkeep u q hq 1 (by decide) _).trans hci, y, hy, hu.trans hxu, hq'.trans hxq, hi.trans hxi, hw.trans hxw⟩

/-- A job-fatal event raises its alert, and leaves the tiles' registers. -/
theorem jobFatal_spec (c : Core) (code unit : Nat) (info : Nat) :
    (c.jobFatal code unit info).rd R.LDG_ALERT_JOBF = 1 ∧ (c.jobFatal code unit info).treg = c.treg := by
  obtain ⟨-, -, htreg, -⟩ := record_spec c 2 (eventSource code) unit 0 code info
  unfold Core.jobFatal
  dsimp only
  generalize c.record 2 (eventSource code) unit 0 code info = d at htreg
  have hraised : (((d.wr R.LDG_ALERT_JOBF 1).bump R.LDG_ALERT_JOBCNT 1).notify 2 2 code).rd R.LDG_ALERT_JOBF = 1 := by
    rw [rd_congr (notify_creg _ _ _ _)]
    exact (Core.rd_wr_apart _ R.LDG_ALERT_JOBCNT R.LDG_ALERT_JOBF _ (by decide) (by decide)).trans
      (Core.rd_wr_self d R.LDG_ALERT_JOBF 1 (by decide))
  unfold Core.joinStep
  split
  · exact ⟨(Core.rd_wr_apart _ R.CH_BELLSTAT_JSTAT R.LDG_ALERT_JOBF _ (by decide) (by decide)).trans hraised, htreg⟩
  · exact ⟨hraised, htreg⟩

/-- A tile's queue halted: its state is HALTED, FERR holds the status, and the alert is up. -/
theorem haltQueue_halts (c : Core) {u q : Nat} (hu : u < 960) (hq : isQueue u q = true) (st : Nat) :
    (c.haltQueue u q st).halted u q = true ∧ (c.haltQueue u q st).qget u q 1 (R.SEQ_QSTAT_FERR 0) = st % 2 ^ (R.SEQ_QSTAT_FERR 0).w
      ∧ (c.haltQueue u q st).rd R.LDG_ALERT_JOBF = 1 := by
  obtain ⟨-, hq, -⟩ := isQueue_bounds hq
  have ho : 0x40 * 1 + 8 * q < 0x4000 := by omega
  obtain ⟨halert, htreg⟩ := jobFatal_spec ((c.qset u q 1 (R.SEQ_QSTAT_STATE 0) 4).qset u q 1 (R.SEQ_QSTAT_FERR 0) st) 0x01 (faultUnit u) 0
  have hkeep (f : Fld) : (c.haltQueue u q st).qget u q 1 f
      = ((c.qset u q 1 (R.SEQ_QSTAT_STATE 0) 4).qset u q 1 (R.SEQ_QSTAT_FERR 0) st).qget u q 1 f := by
    unfold Core.qget
    rw [if_pos hu, if_pos hu]
    exact trd_congr htreg u _
  refine ⟨decide_eq_true ?_, (hkeep _).trans (qget_qset_self _ u q 1 _ st (by decide) ho), halert⟩
  rw [hkeep, qget_qset_apart _ u q 1 (R.SEQ_QSTAT_FERR 0) (R.SEQ_QSTAT_STATE 0) st (by decide) ho (by decide)]
  exact qget_qset_self c u q 1 (R.SEQ_QSTAT_STATE 0) 4 (by decide) ho

theorem fetchBytes_now {m : Mach} {u q ci : Nat}
    (h : u < 960 → m.core.queues.seen = [] ∧ m.ReadsNow (m.core.fetchView u q ci) clsSeq (m.core.ringOff u q (ci % m.core.ringLen u q)) 32) :
    m.fetchBytes u q ci = .ok m (if u < 960 then m.bytesAt (m.core.fetchView u q ci) (m.core.ringOff u q (ci % m.core.ringLen u q)) 32
      else m.read (storeBase (u - 960) q (ci % 64)) 64) := by
  unfold Mach.fetchBytes
  split
  · next hu =>
    obtain ⟨hs, hr⟩ := h hu
    refine localRead_now ?_ hs hr
    unfold Cmd.phys Core.ringOff
    omega
  · rfl

/-- A fetch that fails is one of a tile's. -/
theorem fetchBytes_fail {m m' : Mach} {u q ci st : Nat} (h : m.fetchBytes u q ci = .fail m' st) : u < 960 := by
  by_contra hu
  unfold Mach.fetchBytes at h
  rw [if_neg hu] at h
  exact absurd h (by simp)

/-- COMMAND_FETCH of a queue that is there fetches for it. -/
theorem exec_commandFetch {s : State} {u q : Nat} (hq : isQueue u q = true) :
    exec (.commandFetch u q) s = s.onMach (fun m => m.commandFetch u q) := by
  show onlyIf (isQueue u q) _ = _
  rw [hq, onlyIf_true]

/-- Settles O9: an entry read is taken, a failed fetch halts its queue, a waiting head looks at its tally, and a pass of
arbitration starts or denies the ready heads. -/
theorem fetchWaitAndAdmission : Obligations.FetchWaitAndAdmission := by
  refine ⟨fun s u q hl hq => ?fetch, fun _ _ _ _ hl hq hx hp => tallyWait_completes hl hq hx hp,
    fun _ _ _ _ hl hq => admission_completes hl hq⟩
  intro c ci x off bs hh hf ht hs hlim
  have hmay := mayFetch_of hh hf ht hs hlim
  refine ⟨fun hnow => completes_onMach (exec_commandFetch hq) hl fun s' ho he => ?takes,
    fun m st hfail => completes_onMach (exec_commandFetch hq) hl fun s' _ he => ?halts⟩
  case takes =>
    rw [commandFetch_takes hmay (fetchBytes_now hnow)] at he
    obtain ⟨hci, hy⟩ := takeEntry_takes s.mach hq ci bs
    rw [he]
    exact ⟨hci, ho, hy⟩
  case halts =>
    rw [commandFetch_halts hmay hfail] at he
    rw [he]
    exact haltQueue_halts m.core (fetchBytes_fail hfail) hq st

end Sys2Proof.Machine
end

section
/-! What answering mailbox requests leaves, and the response of a row that ends (R330, R331). -/

namespace Sys2Proof.Machine

/-! ## What answers leave -/

/-- What answering mailbox requests leaves: the queues, the states of the ports and what is in flight; of requests it adds none. -/
structure AnswersOnly (c d : Core) : Prop where
  queues : d.queues = c.queues
  reqs : ∀ x ∈ d.mb.reqs, x ∈ c.mb.reqs
  fly : ∀ g ∈ c.net.fly, g ∈ d.net.fly
  ports : ∀ p < 6, d.rd (R.PRT_STATE_STATE p) = c.rd (R.PRT_STATE_STATE p)

theorem AnswersOnly.refl (c : Core) : AnswersOnly c c := ⟨rfl, fun _ h => h, fun _ h => h, fun _ _ => rfl⟩

theorem AnswersOnly.trans {c d e : Core} (h : AnswersOnly c d) (h' : AnswersOnly d e) : AnswersOnly c e :=
  ⟨h'.queues.trans h.queues, fun x hx => h.reqs x (h'.reqs x hx), fun g hg => h'.fly g (h.fly g hg),
    fun p hp => (h'.ports p hp).trans (h.ports p hp)⟩

/-- A write past the registers of the ports. -/
theorem AnswersOnly.wr (c : Core) {f : Fld} (v : Nat) (hf : 0x60000 ≤ f.off) : AnswersOnly c (c.wr f v) := by
  refine ⟨rfl, fun _ h => h, fun _ h => h, fun p hp => ?_⟩
  have hoff : (R.PRT_STATE_STATE p).off ≠ f.off := by simp only [R.PRT_STATE_STATE]; omega
  unfold Core.rd
  rw [cword_wr_apart _ _ _ _ hoff]

/-- A packet sent towards a port. -/
theorem AnswersOnly.injectTo (c : Core) (pkt : Packet) (u p : Nat) : AnswersOnly c (c.injectTo pkt u p) := by
  obtain ⟨hnet, g, hg, -⟩ := injectTo_spec c pkt u p
  refine ⟨hnet.queues, fun x hx => by rwa [hnet.mb] at hx, fun x hx => by rw [hg]; exact List.mem_append_left _ hx, fun p hp => ?_⟩
  exact hnet.rd _ (by simp only [R.PRT_STATE_STATE]; omega)

theorem mbSend_only (c : Core) (p : Nat) (pkt : Packet) : AnswersOnly c (c.mbSend p pkt false) := by
  unfold Core.mbSend
  split
  · exact .wr c _ (by simp only [R.CH_MBSTAT_NORESP]; omega)
  · exact .injectTo c pkt unitSeam p

theorem mbClose_only (c : Core) (r : MbReq) (pkt : Packet) : AnswersOnly c (c.mbClose r pkt) := by
  refine .trans (d := c.wr (R.CH_MBSTAT_BUSY r.port) (setBit (c.rd (R.CH_MBSTAT_BUSY r.port)) r.slot false))
    (.wr c _ (by simp only [R.CH_MBSTAT_BUSY]; omega)) ?_
  exact ⟨rfl, fun x hx => (List.mem_filter.mp hx).1, fun g hg => hg, fun _ _ => rfl⟩

theorem mbAnswer_only (c : Core) (r : MbReq) (st detail : Nat) (body : List Byte) : AnswersOnly c (c.mbAnswer r st detail body) := by
  rw [mbAnswer_eq]
  exact (mbClose_only _ _ _).trans (mbSend_only _ _ _)

/-- Answering the requests that come to their turn and are not carried out. -/
theorem mbDrain_only (n : Nat) (c : Core) : AnswersOnly c (Core.mbDrain n c) := by
  induction n generalizing c with
  | zero => exact .refl c
  | succ n ih =>
    unfold Core.mbDrain
    split
    · exact .refl c
    · split
      · exact .refl c
      · exact (mbAnswer_only _ _ _ _ _).trans (ih _)

theorem mbFinish_only (c : Core) (r : MbReq) (st detail : Nat) (body : List Byte) : AnswersOnly c (c.mbFinish r st detail body) :=
  (mbAnswer_only _ _ _ _ _).trans (mbDrain_only _ _)

/-! ## The response -/

/-- The status, DETAIL and body of a response's payload (Table 15.3). -/
theorem mbPayload_fields (c : Core) (r : MbReq) {st detail : Nat} (body : List Byte) (hs : st < 256) (hd : detail < 2 ^ 32) :
    leAt (c.mbPayload r st detail body) 2 1 = st ∧ leAt (c.mbPayload r st detail body) 12 4 = detail
      ∧ (c.mbPayload r st detail body).drop 32 = body := by
  unfold Core.mbPayload
  dsimp only
  refine ⟨?status, ?detail, ?body⟩
  case status =>
    simp only [List.append_assoc]
    rw [leAt_append_right _ _ _ _ (by simp), leAt_append_left _ _ _ _ (by simp)]
    simp only [toBytes_length, Nat.sub_self, leAt_toBytes]
    omega
  case detail =>
    rw [leAt_append_left _ _ _ _ (by simp), leAt_append_left _ _ _ _ (by simp), leAt_append_left _ _ _ _ (by simp),
      leAt_append_right _ _ _ _ (by simp)]
    simp only [List.length_append, toBytes_length, Nat.reduceAdd, Nat.sub_self, leAt_toBytes]
    omega
  case body => exact List.drop_left' (by simp)

/-- A request answered has left its slot; by an ACTIVE port its response is in flight. -/
theorem mbAnswer_sends {c : Core} {r : MbReq} {st detail : Nat} {body : List Byte} :
    (∀ x ∈ (c.mbAnswer r st detail body).mb.reqs, ¬ (x.port = r.port ∧ x.slot = r.slot)) ∧
      (c.rd (R.PRT_STATE_STATE r.port) = 2 → ∃ g ∈ (c.mbAnswer r st detail body).net.fly, g.pkt.typ = 8 ∧ g.pkt.dst = r.resp
        ∧ g.pkt.payload = c.mbPayload r st detail body) := by
  rw [mbAnswer_eq]
  refine ⟨fun x hx => ?_, fun hp => ?_⟩
  · have hx : x ∈ (c.mbClose r (c.mbPacket r st detail body)).mb.reqs := (mbSend_only _ _ _).reqs x hx
    rintro ⟨hport, hslot⟩
    have := (List.mem_filter.mp hx).2
    simp [hport, hslot] at this
  · rw [← mbClose_portState c r (c.mbPacket r st detail body)] at hp
    obtain ⟨-, g, hg, -, htyp, hdst, hpay⟩ := injectTo_spec (c.mbClose r (c.mbPacket r st detail body)) (c.mbPacket r st detail body)
      unitSeam r.port
    unfold Core.mbSend
    rw [if_neg (not_not.mpr hp), if_neg (by decide)]
    exact ⟨g, by rw [hg]; exact List.mem_append_right _ (List.mem_singleton_self g), htyp, hdst, hpay⟩

/-- A row that ends its request responds to it. -/
theorem mbFinish_responds {t : State} {c : Core} {r : MbReq} {st detail : Nat} {body : List Byte} (hr : r.port < 6) (hs : st < 256)
    (hd : detail < 2 ^ 32) (ht : t.mach.core = c.mbFinish r st detail body) : Responds t r st detail body := by
  obtain ⟨hgone, hsent⟩ := mbAnswer_sends (c := c) (r := r) (st := st) (detail := detail) (body := body)
  have hdrain := mbDrain_only c.mb.reqs.length (c.mbAnswer r st detail body)
  obtain ⟨hstatus, hdetail, hbody⟩ := mbPayload_fields c r body hs hd
  refine ⟨fun x hx => hgone x (hdrain.reqs x (by rw [ht] at hx; exact hx)), fun hp => ?_⟩
  rw [ht, (mbFinish_only c r st detail body).ports _ hr] at hp
  obtain ⟨g, hg, htyp, hdst, hpay⟩ := hsent hp
  refine ⟨g, by rw [ht]; exact hdrain.fly g hg, htyp, hdst, ?_⟩
  rw [hpay]
  exact ⟨hstatus, hdetail, hbody⟩

end Sys2Proof.Machine
end

section
/-! Aborts (R212, Table 9.7): what they make of the commands of their queues, and of those of other queues. -/

namespace Sys2Proof.Machine

/-! ## One command -/

/-- A command an abort ended before it started. -/
def Cmd.isAborted (x : Cmd) : Prop := x.phase = .done ∧ x.status = stABORTED

/-- Settling a split command keeps its identity, as every outcome of an abort does. -/
theorem settle_id (x : Cmd) : x.settle.id = x.id := by
  unfold Cmd.settle
  split <;> rfl

theorem abort_id (x : Cmd) : x.abort.1.id = x.id := by
  unfold Cmd.abort
  split
  · rfl
  · split
    · split
      · rfl
      · split
        · exact settle_id _
        · rfl
    · split <;> rfl
  · rfl

/-- An abort ends a command that waits. -/
theorem abort_waiting {x : Cmd} (h : x.waiting = true) : x.abort.1.isAborted := by
  unfold Cmd.waiting at h
  unfold Cmd.abort
  cases hp : x.phase <;> simp [hp] at h <;> exact ⟨rfl, rfl⟩

/-- It leaves a command that has ended. -/
theorem abort_done {x : Cmd} (h : x.phase = .done) : x.abort.1 = x := by
  unfold Cmd.abort; rw [h]

/-! ## One queue -/

/-- Targets put back one after another as an abort makes them: what becomes of a command. -/
def abortPut (l : List Cmd) (z : Cmd) : Cmd := l.foldl (fun z x => if z.id = x.id then x.abort.1 else z) z

theorem abortPut_id (l : List Cmd) (z : Cmd) : (abortPut l z).id = z.id := by
  refine foldl_keeps (P := fun y : Cmd => y.id = z.id) (fun y x hy => ?_) l z rfl
  split
  · next h => rw [abort_id, ← h, hy]
  · exact hy

theorem abortPut_absent {l : List Cmd} {z : Cmd} (h : ∀ x ∈ l, x.id ≠ z.id) : abortPut l z = z := by
  induction l with
  | nil => rfl
  | cons x l ih =>
    show abortPut l (if z.id = x.id then x.abort.1 else z) = z
    rw [if_neg (Ne.symm (h x List.mem_cons_self)), ih fun y hy => h y (List.mem_cons_of_mem x hy)]

/-- A command becomes what the abort makes of a target of its identity, where there is one. -/
theorem abortPut_mem {l : List Cmd} {x z : Cmd} (hx : x ∈ l) (hid : x.id = z.id) : ∃ w ∈ l, w.id = z.id ∧ abortPut l z = w.abort.1 := by
  induction l generalizing x z with
  | nil => exact absurd hx List.not_mem_nil
  | cons y l ih =>
    have hstep : abortPut (y :: l) z = abortPut l (if z.id = y.id then y.abort.1 else z) := rfl
    by_cases hl : ∃ w ∈ l, w.id = z.id
    · obtain ⟨w, hw, hwid⟩ := hl
      have hz : (if z.id = y.id then y.abort.1 else z).id = z.id := by
        split
        · next h => rw [abort_id, h]
        · rfl
      obtain ⟨v, hv, hvid, he⟩ := ih hw (hwid.trans hz.symm)
      exact ⟨v, List.mem_cons_of_mem y hv, hvid.trans hz, hstep.trans he⟩
    · have hxy : x = y := (List.mem_cons.mp hx).resolve_right fun hx => hl ⟨x, hx, hid⟩
      subst hxy
      refine ⟨x, List.mem_cons_self, hid, ?_⟩
      rw [hstep, if_pos hid.symm, abortPut_absent fun w hw hwid => hl ⟨w, hw, hwid.trans ((abort_id x).trans hid)⟩]

/-- Whether a command lies in an abort's range of counts. -/
def Cmd.inRange (range : Option (Nat × Nat)) (x : Cmd) : Prop :=
  match range with
  | none => True
  | some (lo, n) => (x.idx + 65536 - lo) % 65536 < n

theorem mem_abortTargets {c : Core} {u q : Nat} {range : Option (Nat × Nat)} {x : Cmd} :
    x ∈ (c.abortTargets u q range).live ↔ x ∈ c.queues.cmds ∧ x.unit = u ∧ x.q = q ∧ x.inRange range := by
  cases range with
  | none => simp [Core.abortTargets, Core.queueCmds, Cmd.inRange]
  | some r => simp [Core.abortTargets, Core.queueCmds, Cmd.inRange, and_comm, and_left_comm, and_assoc]

/-- One queue's targets taken: each command becomes what the abort makes of it. -/
theorem abortQueue_cmds (c : Core) (u q : Nat) (range : Option (Nat × Nat)) :
    (c.abortQueue u q range).1.queues.cmds = c.queues.cmds.map (abortPut (c.abortTargets u q range).live) := by
  have hfold (l : List Cmd) (c : Core) :
      (l.foldl (fun c x => (if x.abort.2 then c.abortedPost x else c).putCmd x.abort.1) c).queues.cmds
        = c.queues.cmds.map (abortPut l) := by
    induction l generalizing c with
    | nil => exact (List.map_id _).symm
    | cons x l ih =>
      have hq : (if x.abort.2 then c.abortedPost x else c).queues = c.queues := by
        split
        · exact (abortedPost_spec c x).queues
        · rfl
      rw [List.foldl_cons, ih, Core.putCmd_cmds, hq, List.map_map]
      refine List.map_congr_left fun z _ => ?_
      show abortPut l (if z.id = x.abort.1.id then x.abort.1 else z) = abortPut l (if z.id = x.id then x.abort.1 else z)
      rw [abort_id]
  exact hfold _ c

/-- What a command left by taking a queue's targets was: a target, or one of no target's identity. -/
theorem mem_abortQueue {c : Core} {u q : Nat} {range : Option (Nat × Nat)} {z : Cmd}
    (hz : z ∈ (c.abortQueue u q range).1.queues.cmds) : ∃ w ∈ c.queues.cmds, w.id = z.id
      ∧ ((z = w.abort.1 ∧ w ∈ (c.abortTargets u q range).live) ∨ (z = w ∧ ∀ x ∈ (c.abortTargets u q range).live, x.id ≠ w.id)) := by
  rw [abortQueue_cmds] at hz
  obtain ⟨y, hy, rfl⟩ := List.mem_map.mp hz
  by_cases ht : ∃ x ∈ (c.abortTargets u q range).live, x.id = y.id
  · obtain ⟨x, hx, hid⟩ := ht
    obtain ⟨w, hw, hwid, he⟩ := abortPut_mem hx hid
    exact ⟨w, (mem_abortTargets.mp hw).1, hwid.trans (abortPut_id _ y).symm, .inl ⟨he, hw⟩⟩
  · have hn : ∀ x ∈ (c.abortTargets u q range).live, x.id ≠ y.id := fun x hx hid => ht ⟨x, hx, hid⟩
    exact ⟨y, hy, (abortPut_id _ y).symm, .inr ⟨abortPut_absent hn, hn⟩⟩

/-- Commands of an identity in a core all meet a predicate. -/
def Core.allOf (c : Core) (i : Nat × Nat) (P : Cmd → Prop) : Prop := ∀ y ∈ c.queues.cmds, y.id = i → P y

/-- Whether a command waits in a queue and lies in an abort's range. -/
def Cmd.hitIn (u q : Nat) (range : Option (Nat × Nat)) (x : Cmd) : Prop := x.unit = u ∧ x.q = q ∧ x.inRange range ∧ x.waiting = true

/-- What an abort has ended stays ended as it was. -/
theorem abortQueue_keeps_aborted {c : Core} {i : Nat × Nat} (u q : Nat) (range : Option (Nat × Nat)) (h : c.allOf i Cmd.isAborted) :
    (c.abortQueue u q range).1.allOf i Cmd.isAborted := by
  intro z hz hid
  obtain ⟨w, hw, hwid, ⟨rfl, -⟩ | ⟨rfl, -⟩⟩ := mem_abortQueue hz
  · have hwa := h w hw (hwid.trans hid)
    rwa [abort_done hwa.1]
  · exact h z hw hid

/-- The waiting commands of the queue and its range are ended. -/
theorem abortQueue_takes {c : Core} {i : Nat × Nat} {u q : Nat} {range : Option (Nat × Nat)} (h : c.allOf i (Cmd.hitIn u q range)) :
    (c.abortQueue u q range).1.allOf i Cmd.isAborted := by
  intro z hz hid
  obtain ⟨w, hw, hwid, hcase⟩ := mem_abortQueue hz
  obtain ⟨hu, hq, hr, hwait⟩ := h w hw (hwid.trans hid)
  obtain ⟨rfl, -⟩ | ⟨-, hn⟩ := hcase
  · exact abort_waiting hwait
  · exact absurd rfl (hn w (mem_abortTargets.mpr ⟨hw, hu, hq, hr⟩))

/-- Those of another queue are left. -/
theorem abortQueue_leaves {c : Core} {i : Nat × Nat} {u q q' : Nat} {range : Option (Nat × Nat)} (hne : q' ≠ q)
    (h : c.allOf i (Cmd.hitIn u q range)) : (c.abortQueue u q' range).1.allOf i (Cmd.hitIn u q range) := by
  intro z hz hid
  obtain ⟨w, hw, hwid, hcase⟩ := mem_abortQueue hz
  have hhit := h w hw (hwid.trans hid)
  obtain ⟨-, hlive⟩ | ⟨rfl, -⟩ := hcase
  · exact absurd ((mem_abortTargets.mp hlive).2.2.1.symm.trans hhit.2.1) hne
  · exact hhit

/-- A queue without commands and with none to fetch has no targets. -/
theorem abortQueue_empty {c : Core} {u q : Nat} (range : Option (Nat × Nat)) (hc : c.queueCmds u q = []) (hf : c.toFetch u q = 0) :
    ∃ gone, c.abortQueue u q range = (c, 0, gone, []) ∧ (range = none → gone = 0) := by
  cases range with
  | none =>
    have ht : c.abortTargets u q none = ⟨[], c.ringCI u q, 0, 0⟩ := by unfold Core.abortTargets; simp only [hc, hf]
    refine ⟨0, ?_, fun _ => rfl⟩
    unfold Core.abortQueue
    rw [ht]
    simp
  | some r =>
    obtain ⟨lo, n⟩ := r
    have ht : ∃ a g, c.abortTargets u q (some (lo, n)) = ⟨[], a, 0, g⟩ := by
      unfold Core.abortTargets
      simp only [hc, hf]
      exact ⟨_, _, (AbortSet.mk.injEq ..).mpr ⟨rfl, rfl, by omega, rfl⟩⟩
    obtain ⟨a, g, ht⟩ := ht
    refine ⟨g, ?_, fun h => absurd h (by simp)⟩
    unfold Core.abortQueue
    rw [ht]
    simp

/-! ## The queues of a mask -/

/-- The core after the queues of a mask have been taken. -/
theorem abortQueues_core (c : Core) (u : Nat) (qs : List Nat) (range : Option (Nat × Nat)) :
    (c.abortQueues u qs range).1 = qs.foldl (fun c q => (c.abortQueue u q range).1) c := by
  suffices h : ∀ acc : Core × Nat × Nat × List Nat, (qs.foldl (fun acc q =>
      let r := acc.1.abortQueue u q range
      (r.1, acc.2.1 + r.2.1, acc.2.2.1 + r.2.2.1, acc.2.2.2 ++ r.2.2.2)) acc).1
        = qs.foldl (fun c q => (c.abortQueue u q range).1) acc.1 from h _
  intro acc
  induction qs generalizing acc with
  | nil => rfl
  | cons q qs ih => exact ih _

/-- Commands keep their identities. -/
theorem abortQueues_ids (c : Core) (u : Nat) (qs : List Nat) (range : Option (Nat × Nat)) {y : Cmd} (hy : y ∈ c.queues.cmds) :
    ∃ z ∈ (c.abortQueues u qs range).1.queues.cmds, z.id = y.id := by
  rw [abortQueues_core]
  refine foldl_keeps (P := fun d : Core => ∃ z ∈ d.queues.cmds, z.id = y.id) (fun d q hd => ?_) qs c ⟨y, hy, rfl⟩
  obtain ⟨z, hz, hid⟩ := hd
  rw [abortQueue_cmds]
  exact ⟨_, List.mem_map_of_mem hz, (abortPut_id _ z).trans hid⟩

/-- Identities name the queue where it is one of 32. -/
theorem id_queue {x y : Cmd} (h : x.id = y.id) (hx : x.q < 32) (hy : y.q < 32) : x.unit = y.unit ∧ x.q = y.q := by
  have := congrArg Prod.fst h
  simp only [Cmd.id] at this
  omega

/-- A command of another queue is as it was. -/
theorem abortQueues_others (c : Core) {u : Nat} {qs : List Nat} (range : Option (Nat × Nat)) (hqs : ∀ q ∈ qs, q < 32) {y : Cmd}
    (hy : y ∈ c.queues.cmds) (hq : y.q < 32) (ho : y.unit ≠ u ∨ y.q ∉ qs) : y ∈ (c.abortQueues u qs range).1.queues.cmds := by
  rw [abortQueues_core]
  refine List.foldlRecOn (motive := fun d : Core => y ∈ d.queues.cmds) qs _ hy fun d hd q hmem => ?_
  have habsent : ∀ x ∈ (d.abortTargets u q range).live, x.id ≠ y.id := fun x hx hid => by
    obtain ⟨-, hxu, hxq, -⟩ := mem_abortTargets.mp hx
    obtain ⟨hu, hqq⟩ := id_queue hid (hxq ▸ hqs q hmem) hq
    exact ho.elim (fun h => h (hu.symm.trans hxu)) (fun h => h ((hqq.symm.trans hxq) ▸ hmem))
  rw [abortQueue_cmds]
  exact List.mem_map.mpr ⟨y, hd, abortPut_absent habsent⟩

/-- The commands of an identity that all wait in the queues and their range are ended. -/
theorem abortQueues_takes {c : Core} {u : Nat} {qs : List Nat} {range : Option (Nat × Nat)} {i : Nat × Nat} (hqs : ∀ q ∈ qs, q < 32)
    (h : c.allOf i (fun y => y.unit = u ∧ y.q ∈ qs ∧ y.inRange range ∧ y.waiting = true)) :
    (c.abortQueues u qs range).1.allOf i Cmd.isAborted := by
  have hfold {q : Nat} (l : List Nat) (d : Core) (hd : d.allOf i Cmd.isAborted ∨ (q ∈ l ∧ d.allOf i (Cmd.hitIn u q range))) :
      (l.foldl (fun c q => (c.abortQueue u q range).1) d).allOf i Cmd.isAborted := by
    induction l generalizing d with
    | nil => exact hd.resolve_right fun h => List.not_mem_nil h.1
    | cons p l ih =>
      refine ih _ ?_
      obtain hd | ⟨hq, hd⟩ := hd
      · exact .inl (abortQueue_keeps_aborted u p range hd)
      · by_cases hp : p = q
        · exact .inl (abortQueue_takes (hp ▸ hd))
        · exact .inr ⟨(List.mem_cons.mp hq).resolve_left (Ne.symm hp), abortQueue_leaves hp hd⟩
  rw [abortQueues_core]
  by_cases hex : ∃ y ∈ c.queues.cmds, y.id = i
  · obtain ⟨y, hy, rfl⟩ := hex
    have hyq := (h y hy rfl).2.1
    refine hfold (q := y.q) qs c (.inr ⟨hyq, fun z hz hid => ?_⟩)
    obtain ⟨hu, hq, hr, hw⟩ := h z hz hid
    exact ⟨hu, (id_queue hid (hqs _ hq) (hqs _ hyq)).2, hr, hw⟩
  · exact hfold (q := 0) qs c (.inl fun y hy hid => absurd ⟨y, hy, hid⟩ hex)

/-- Queues without commands and with none to fetch have no targets. -/
theorem abortQueues_empty {c : Core} {u : Nat} {qs : List Nat} (range : Option (Nat × Nat))
    (h : ∀ q ∈ qs, c.queueCmds u q = [] ∧ c.toFetch u q = 0) :
    ∃ gone, c.abortQueues u qs range = (c, 0, gone, []) ∧ (range = none → gone = 0) := by
  unfold Core.abortQueues
  refine List.foldlRecOn (motive := fun acc : Core × Nat × Nat × List Nat => ∃ gone, acc = (c, 0, gone, []) ∧ (range = none → gone = 0))
    qs _ ⟨0, rfl, fun _ => rfl⟩ fun acc hacc q hq => ?_
  obtain ⟨gone, rfl, hgone⟩ := hacc
  obtain ⟨g, hg, hg0⟩ := abortQueue_empty range (h q hq).1 (h q hq).2
  exact ⟨gone + g, by simp only [hg]; simp, fun hr => by rw [hgone hr, hg0 hr]⟩

/-- Without targets and marks on its queues, no target of an abort lacks its outcome. -/
theorem abortOpen_empty {c : Core} {u : Nat} {qs : List Nat} (h : ∀ a ∈ c.queues.aborts, a.unit = u → a.q ∉ qs) :
    c.abortOpen u qs [] = false := by
  unfold Core.abortOpen
  rw [Bool.or_eq_false_iff]
  refine ⟨List.any_eq_false.mpr fun y _ => by simp, List.any_eq_false.mpr fun a ha hc => ?_⟩
  simp only [Bool.and_eq_true, decide_eq_true_eq, List.contains_iff_mem] at hc
  exact h a ha hc.1.1 hc.1.2

end Sys2Proof.Machine
end

section
/-! ABORT and MB_ABORT (R212). -/

namespace Sys2Proof.Machine

/-! ## ABORT -/

/-- The queues of an ABORT's mask, and its range where it has one. -/
def Cmd.abortMask (x : Cmd) : List Nat := (List.range 7).filter (bit (bits x.word 64 7))
def Cmd.abortRange (x : Cmd) : Option (Nat × Nat) :=
  if bit x.word 71 then some (bits x.word 72 16, (bits x.word 88 16 + 65536 - bits x.word 72 16) % 65536 + 1) else none

theorem mem_abortMask {x : Cmd} {q : Nat} : q ∈ x.abortMask ↔ q < 7 ∧ bit x.word (64 + q) = true := by
  unfold Cmd.abortMask
  rw [List.mem_filter, List.mem_range]
  refine and_congr_right fun hq => ?_
  rw [bit_eq_testBit, testBit_bits, decide_eq_true hq, Bool.true_and, bit_eq_testBit]

theorem inRange_abortRange {x y : Cmd} : y.inRange x.abortRange ↔ (bit x.word 71 = true →
    (y.idx + 65536 - bits x.word 72 16) % 65536 < (bits x.word 88 16 + 65536 - bits x.word 72 16) % 65536 + 1) := by
  unfold Cmd.abortRange
  by_cases hb : bit x.word 71 = true
  · rw [if_pos hb]
    exact ⟨fun h _ => h, fun h => h hb⟩
  · rw [if_neg hb]
    exact ⟨fun _ h => absurd h hb, fun _ => trivial⟩

/-- An ABORT that has taken its targets, with both its counts whole in AUX. -/
def Cmd.tookTargets (x : Cmd) (r : Core × Nat × Nat × List Nat) : Cmd :=
  { x with committed := true, aux := r.2.1 + 2 ^ 32 * r.2.2.1, gather := r.2.2.2 }

/-- An ABORT that ends: AUX holds its counts, without the targets that were lost. -/
def Cmd.endAbort (x : Cmd) (lost : Nat) : Cmd :=
  { x with aux := (x.aux % 2 ^ 32 - lost) % 65536 + 65536 * (x.aux / 2 ^ 32 % 65536) }.finish stOK

/-- Its first run takes its targets; it waits where one of them lacks its outcome, else it ends. -/
theorem abort_first {m : Mach} {x : Cmd} {r : Core × Nat × Nat × List Nat} (hc : x.committed = false)
    (hr : m.core.abortQueues x.unit x.abortMask x.abortRange = r) :
    m.abort x = m.onCore (fun _ => if r.1.abortOpen x.unit x.abortMask r.2.2.2 then r.1.putCmd (x.tookTargets r)
      else (r.1.dropMarks x.unit x.abortMask).putCmd ((x.tookTargets r).endAbort (r.1.abortLost x.unit x.abortMask))) := by
  subst hr
  unfold Mach.abort
  simp only [hc]
  rfl

/-- What is left after a first run: the queues' targets taken, and the command itself changed. -/
theorem abort_cmds {m : Mach} {x : Cmd} (hc : x.committed = false) : ∃ y, y.id = x.id ∧ (m.abort x).core.queues.cmds
    = (m.core.abortQueues x.unit x.abortMask x.abortRange).1.queues.cmds.map (fun z => if z.id = y.id then y else z) := by
  rw [abort_first hc rfl, Mach.onCore_core]
  generalize m.core.abortQueues x.unit x.abortMask x.abortRange = r
  split
  · exact ⟨x.tookTargets r, rfl, rfl⟩
  · exact ⟨(x.tookTargets r).endAbort (r.1.abortLost x.unit x.abortMask), rfl, rfl⟩

/-- An ABORT without targets ends with both counts zero. -/
theorem endAbort_empty (c : Core) (x : Cmd) (lost : Nat) : ((x.tookTargets (c, 0, 0, [])).endAbort lost).aux = 0 := by
  show (0 % 2 ^ 32 - lost) % 65536 + 65536 * (0 / 2 ^ 32 % 65536) = 0
  simp

theorem abort_completes {s : State} {t : Nat} {x : Cmd} (ht : t < 960) (hr : Runs s t 7 0 0x09 x) (hc : x.committed = false) :
    let lo := bits x.word 72 16
    let n := (bits x.word 88 16 + 65536 - lo) % 65536 + 1
    let hit := fun (y : Cmd) => y.unit = t ∧ y.q < 7 ∧ bit x.word (64 + y.q) = true ∧ y.waiting = true
      ∧ (bit x.word 71 = true → (y.idx + 65536 - lo) % 65536 < n)
    Completes (.abort t) s (fun s' => MemKept s s' ∧ OutsideKept s s' ∧
      (∀ i, (∀ y ∈ s.mach.core.queues.cmds, y.id = i → hit y) →
        ∀ y ∈ s'.mach.core.queues.cmds, y.id = i → y.phase = .done ∧ y.status = stABORTED) ∧
      (∀ y ∈ s.mach.core.queues.cmds, ∃ z ∈ s'.mach.core.queues.cmds, z.id = y.id) ∧
      (∀ y ∈ s.mach.core.queues.cmds, isQueue y.unit y.q = true → y.unit ≠ t ∨ bit (bits x.word 64 7) y.q = false →
        y.id ≠ x.id → y ∈ s'.mach.core.queues.cmds) ∧
      ((∀ q < 7, bit x.word (64 + q) = true → s.mach.core.queueCmds t q = [] ∧ s.mach.core.toFetch t q = 0) →
        (∀ a ∈ s.mach.core.queues.aborts, a.unit = t → bit (bits x.word 64 7) a.q = false) →
        Finished s' x.id stOK ∧ (bit x.word 71 = false → Queued s' x.id (fun y => y.aux = 0)))) := by
  intro lo n hit
  obtain ⟨hx, hu, -⟩ := runs_mem hr
  have hrun : x.phase = .run := by obtain ⟨-, -, hx, -⟩ := hr; exact (running?_mem hx).2.2.2.1
  have hmask : ∀ q ∈ x.abortMask, q < 32 := fun q hq => by have := (mem_abortMask.mp hq).1; omega
  have hnot {q : Nat} (h : bit (bits x.word 64 7) q = false) : q ∉ x.abortMask := fun hq => by
    rw [(List.mem_filter.mp hq).2] at h
    exact absurd h (by decide)
  refine completes_runs (g := Mach.abort) hr (decide_eq_true ht) rfl fun s' ho hs => ?_
  obtain ⟨y, hyid, hcmds⟩ := abort_cmds (m := s.mach) hc
  rw [← hs] at hcmds
  refine ⟨memKept_of_onCore (hs.trans (abort_first hc rfl)), ho, fun i hi z hz hzi => ?hits, fun z hz => ?ids,
    fun z hz hq ho hne => ?others, fun hnone hmarks => ?none⟩
  case hits =>
    have htaken := abortQueues_takes (c := s.mach.core) (range := x.abortRange) (i := i) hmask fun w hw hwi => by
      obtain ⟨hwu, hwq, hwb, hww, hwr⟩ := hi w hw hwi
      exact ⟨hwu.trans hu.symm, mem_abortMask.mpr ⟨hwq, hwb⟩, inRange_abortRange.mpr hwr, hww⟩
    rw [hcmds] at hz
    obtain ⟨w, hw, rfl⟩ := List.mem_map.mp hz
    have hxi : x.id ≠ i := fun he => by
      have := (hi x hx he).2.2.2.1
      simp [Cmd.waiting, hrun] at this
    by_cases hwy : w.id = y.id
    · rw [if_pos hwy] at hzi
      exact absurd (hyid.symm.trans hzi) hxi
    · rw [if_neg hwy] at hzi ⊢
      exact htaken w hw hzi
  case ids =>
    obtain ⟨w, hw, hid⟩ := abortQueues_ids s.mach.core x.unit x.abortMask x.abortRange hz
    rw [hcmds]
    refine ⟨_, List.mem_map_of_mem hw, ?_⟩
    split
    · next h => exact h.symm.trans hid
    · exact hid
  case others =>
    obtain ⟨-, hq, -⟩ := isQueue_bounds hq
    rw [hcmds]
    refine List.mem_map.mpr ⟨z, abortQueues_others _ _ hmask hz hq (ho.imp (fun h hzu => h (hzu.trans hu)) hnot), if_neg fun h => ?_⟩
    exact hne (h.trans hyid)
  case none =>
    obtain ⟨gone, hempty, hgone⟩ := abortQueues_empty (c := s.mach.core) (u := x.unit) (qs := x.abortMask) x.abortRange fun q hq =>
      hu ▸ hnone q (mem_abortMask.mp hq).1 (mem_abortMask.mp hq).2
    have hopen : s.mach.core.abortOpen x.unit x.abortMask [] = false :=
      abortOpen_empty fun a ha hau => hnot (hmarks a ha (hau.trans hu))
    have hs := congrArg Mach.core (hs.trans (abort_first hc hempty))
    rw [Mach.onCore_core, hopen, if_neg (by decide)] at hs
    have hput {P : Cmd → Prop} : P ((x.tookTargets (s.mach.core, 0, gone, [])).endAbort (s.mach.core.abortLost x.unit x.abortMask)) →
        Queued s' x.id P := queued_of_put rfl (by rw [hs]; rfl) ⟨x, hx, rfl⟩
    refine ⟨hput ⟨rfl, rfl⟩, fun hb => hput ?_⟩
    rw [hgone (by unfold Cmd.abortRange; rw [hb]; rfl)]
    exact endAbort_empty _ _ _

/-! ## A row whose turn has come -/

/-- A request as it starts. -/
def MbReq.begun (r : MbReq) (now : Nat) : MbReq := { r with started := true, since := now }

/-- The row whose turn it is runs its request, and leaves everything outside the machine. -/
theorem completes_turn {i : Instr} {s : State} {mine : MbReq → Bool} {f : Mach → MbReq → MbAns} {r : MbReq} {P : State → Prop}
    (ht : Turn s mine r) (hi : exec i s = s.onMach (fun m => m.mbRow mine f))
    (h : r.port < 6 → ∀ t, t.mach = (s.mach.onCore (fun c => c.putReq (r.begun s.mach.core.now))).mbRun f (r.begun s.mach.core.now)
      → P t) : Completes i s P := by
  obtain ⟨hl, hh, hm, hp, hf, h0, hslots⟩ := ht
  refine completes_onMach hi hl fun t _ he => h (hslots r (List.mem_of_find?_eq_some hh)).1 t (he.trans ?_)
  exact mbRow_turn h0 hh hm hp hf

/-- A run that answers ends its request. -/
theorem mbRun_done {m m' : Mach} {f : Mach → MbReq → MbAns} {r : MbReq} {st d : Nat} {b : List Byte} (h : f m r = .done m' st d b) :
    m.mbRun f r = m'.onCore (fun c => c.mbFinish r st d b) := by unfold Mach.mbRun; rw [h]

theorem mbRun_wait {m m' : Mach} {f : Mach → MbReq → MbAns} {r : MbReq} {n : List Nat} (h : f m r = .wait m' n) :
    m.mbRun f r = m'.onCore (fun c => c.putReq { r with note := n }) := by unfold Mach.mbRun; rw [h]

/-! ## MB_ABORT -/

/-- What MB_ABORT makes of its request. -/
def abortRow (m : Mach) (r : MbReq) : MbAns :=
  match (if r.note = [] then m.core.abortCheck r else none) with
  | some (st, d) => .done m st d []
  | none =>
    match (m.core.mbAbort r).2.1 with
    | some aux => .done { m with core := (m.core.mbAbort r).1 } stOK 0 (toBytes 4 aux)
    | none => .wait { m with core := (m.core.mbAbort r).1 } (m.core.mbAbort r).2.2

theorem exec_mbAbort (s : State) : exec .mbAbort s = s.onMach (fun m => m.mbRow (mbIs 0x34) abortRow) := rfl

/-- One that names a unit not there is refused. -/
theorem abortRow_refused {m : Mach} {r : MbReq} {st d : Nat} (hn : r.note = []) (h : m.core.abortCheck r = some (st, d)) :
    abortRow m r = .done m st d [] := by
  unfold abortRow
  rw [if_pos hn, h]

/-- That refusal is TARGET_LOST. -/
theorem abortCheck_lost {c : Core} {r : MbReq} {st d : Nat} (h : c.abortCheck r = some (st, d)) : st = stLOST ∧ d = 0 := by
  unfold Core.abortCheck at h
  split at h
  · cases h; exact ⟨rfl, rfl⟩
  · exact absurd h (by simp)

/-- An abort's first run without a range takes the targets of its queues, and waits or ends. -/
theorem mbAbort_first {c : Core} {r : MbReq} {a : Core × Nat × Nat × List Nat} (hn : r.note = []) (h4 : r.byte 4 ≠ 1)
    (ha : c.abortQueues r.abortUnit r.abortQueues none = a) :
    c.mbAbort r = if a.1.abortOpen r.abortUnit r.abortQueues a.2.2.2
      then (a.1, none, (a.2.1 % 65536 + 65536 * a.2.2.1) :: a.2.2.2)
      else (a.1.dropMarks r.abortUnit r.abortQueues,
        some (a.2.1 % 65536 + 65536 * a.2.2.1 - a.1.abortLost r.abortUnit r.abortQueues), []) := by
  subst ha
  unfold Core.mbAbort
  simp only [hn, h4]
  rfl

/-- It leaves the commands as their targets were taken. -/
theorem abortRow_takes {m : Mach} {r : MbReq} (hn : r.note = []) (h4 : r.byte 4 ≠ 1) (hc : m.core.abortCheck r = none) :
    ∃ d : Core, d.queues.cmds = (m.core.abortQueues r.abortUnit r.abortQueues none).1.queues.cmds ∧
      ((∃ aux, abortRow m r = .done { m with core := d } stOK 0 (toBytes 4 aux))
        ∨ ∃ note, abortRow m r = .wait { m with core := d } note) := by
  unfold abortRow
  rw [if_pos hn, hc]
  dsimp only
  rw [mbAbort_first hn h4 rfl]
  generalize m.core.abortQueues r.abortUnit r.abortQueues none = a
  by_cases ho : a.1.abortOpen r.abortUnit r.abortQueues a.2.2.2 = true
  · rw [if_pos ho]
    exact ⟨a.1, rfl, .inr ⟨_, rfl⟩⟩
  · rw [if_neg ho]
    exact ⟨a.1.dropMarks r.abortUnit r.abortQueues, rfl, .inl ⟨_, rfl⟩⟩

/-- Of queues without targets it ends at once, with none aborted. -/
theorem abortRow_empty {m : Mach} {r : MbReq} (hn : r.note = []) (h4 : r.byte 4 ≠ 1) (hc : m.core.abortCheck r = none)
    (hq : ∀ q ∈ r.abortQueues, m.core.queueCmds r.abortUnit q = [] ∧ m.core.toFetch r.abortUnit q = 0)
    (hm : ∀ a ∈ m.core.queues.aborts, a.unit = r.abortUnit → a.q ∉ r.abortQueues) :
    abortRow m r = .done { m with core := m.core.dropMarks r.abortUnit r.abortQueues } stOK 0 (toBytes 4 0) := by
  obtain ⟨gone, ha, hgone⟩ := abortQueues_empty none hq
  rw [hgone rfl] at ha
  unfold abortRow
  rw [if_pos hn, hc]
  dsimp only
  rw [mbAbort_first hn h4 ha, abortOpen_empty hm, if_neg (by decide)]
  dsimp only
  rw [Nat.zero_mod, Nat.mul_zero, Nat.zero_sub]

/-- The queues an abort names are among 32. -/
theorem abortQueues_lt {r : MbReq} {q : Nat} (h : q ∈ r.abortQueues) : q < 32 := by
  unfold MbReq.abortQueues at h
  split at h
  · have := List.mem_range.mp (List.mem_filter.mp h).1
    omega
  · have := List.mem_range.mp h
    unfold queuesOf at this
    split at this
    · omega
    · split at this <;> omega

theorem mbAbort_refused {s : State} {r : MbReq} {st d : Nat} (ht : Turn s (mbIs 0x34) r) (hn : r.note = [])
    (h : s.mach.core.abortCheck r = some (st, d)) :
    Completes .mbAbort s (fun s' => MemKept s s' ∧ s'.mach.core.queues = s.mach.core.queues ∧ Responds s' r st d []) := by
  refine completes_turn ht (exec_mbAbort s) fun hport s' he => ?_
  obtain ⟨rfl, rfl⟩ := abortCheck_lost h
  rw [mbRun_done (abortRow_refused (m := s.mach.onCore (fun c => c.putReq (r.begun s.mach.core.now))) (r := r.begun s.mach.core.now)
    hn h)] at he
  exact ⟨by rw [MemKept, he]; exact ⟨rfl, rfl, rfl⟩, by rw [he]; exact (mbFinish_only _ _ _ _ _).queues,
    mbFinish_responds (r := r.begun s.mach.core.now) hport (by decide) (by decide) (by rw [he]; rfl)⟩

/-- A first run without a range leaves the commands as their targets were taken. -/
theorem mbAbort_leaves {s : State} {r : MbReq} {P : State → Prop} (ht : Turn s (mbIs 0x34) r) (hn : r.note = [])
    (hc : s.mach.core.abortCheck r = none) (h4 : r.byte 4 ≠ 1)
    (h : ∀ s', MemKept s s' → s'.mach.core.queues.cmds
      = ((s.mach.core.putReq (r.begun s.mach.core.now)).abortQueues r.abortUnit r.abortQueues none).1.queues.cmds → P s') :
    Completes .mbAbort s P := by
  refine completes_turn ht (exec_mbAbort s) fun _ s' he => ?_
  obtain ⟨d, hd, ⟨aux, hrow⟩ | ⟨note, hrow⟩⟩ := abortRow_takes
    (m := s.mach.onCore (fun c => c.putReq (r.begun s.mach.core.now))) (r := r.begun s.mach.core.now) hn h4 hc
  · rw [mbRun_done hrow] at he
    refine h s' (by rw [MemKept, he]; exact ⟨rfl, rfl, rfl⟩) (Eq.trans ?_ hd)
    rw [he]
    exact congrArg QueueSt.cmds (mbFinish_only d _ _ _ _).queues
  · rw [mbRun_wait hrow] at he
    refine h s' (by rw [MemKept, he]; exact ⟨rfl, rfl, rfl⟩) (Eq.trans ?_ hd)
    rw [he]
    rfl

theorem mbAbort_takes {s : State} {r : MbReq} (ht : Turn s (mbIs 0x34) r) (hn : r.note = [])
    (hc : s.mach.core.abortCheck r = none) (h4 : r.byte 4 ≠ 1) :
    Completes .mbAbort s (fun s' => MemKept s s' ∧
      (∀ y ∈ s.mach.core.queues.cmds, ∃ z ∈ s'.mach.core.queues.cmds, z.id = y.id) ∧
      ∀ i, (∀ y ∈ s.mach.core.queues.cmds, y.id = i → y.unit = r.abortUnit ∧ y.q ∈ r.abortQueues ∧ y.waiting = true) →
        ∀ y ∈ s'.mach.core.queues.cmds, y.id = i → y.phase = .done ∧ y.status = stABORTED) := by
  refine mbAbort_leaves ht hn hc h4 fun s' hm he => ⟨hm, fun y hy => ?ids, fun i hi => ?hits⟩
  case ids =>
    rw [he]
    exact abortQueues_ids (s.mach.core.putReq (r.begun s.mach.core.now)) _ _ _ hy
  case hits =>
    rw [he]
    refine abortQueues_takes (c := s.mach.core.putReq (r.begun s.mach.core.now)) (fun q hq => abortQueues_lt hq) fun y hy hid => ?_
    obtain ⟨hu, hq, hw⟩ := hi y hy hid
    exact ⟨hu, hq, trivial, hw⟩

theorem mbAbort_empty {s : State} {r : MbReq} (ht : Turn s (mbIs 0x34) r) (hn : r.note = [])
    (hc : s.mach.core.abortCheck r = none) (h4 : r.byte 4 ≠ 1)
    (hq : ∀ q ∈ r.abortQueues, s.mach.core.queueCmds r.abortUnit q = [] ∧ s.mach.core.toFetch r.abortUnit q = 0)
    (hm : ∀ a ∈ s.mach.core.queues.aborts, a.unit = r.abortUnit → a.q ∉ r.abortQueues) :
    Completes .mbAbort s (fun s' => MemKept s s' ∧ s'.mach.core.queues.cmds = s.mach.core.queues.cmds
      ∧ Responds s' r stOK 0 (toBytes 4 0)) := by
  refine completes_turn ht (exec_mbAbort s) fun hport s' he => ?_
  rw [mbRun_done (abortRow_empty (m := s.mach.onCore (fun c => c.putReq (r.begun s.mach.core.now))) (r := r.begun s.mach.core.now)
    hn h4 hc hq hm)] at he
  refine ⟨by rw [MemKept, he]; exact ⟨rfl, rfl, rfl⟩, ?_,
    mbFinish_responds (r := r.begun s.mach.core.now) hport (by decide) (by decide) (by rw [he]; rfl)⟩
  rw [he]
  have hkept := (mbFinish_only ((s.mach.core.putReq (r.begun s.mach.core.now)).dropMarks r.abortUnit r.abortQueues)
    (r.begun s.mach.core.now) stOK 0 (toBytes 4 0)).queues
  exact (congrArg QueueSt.cmds hkept).trans rfl

/-- Settles O8: an abort puts each target back as Table 9.7 says, and what it puts back has the target's identity. -/
theorem abortsTakeTheirTargets : Obligations.AbortsTakeTheirTargets :=
  ⟨fun _ _ _ ht hr hc => abort_completes ht hr hc, fun _ _ ht hn => ⟨fun _ _ h => mbAbort_refused ht hn h,
    fun hc h4 => mbAbort_takes ht hn hc h4, fun hc h4 hq hm => mbAbort_empty ht hn hc h4 hq hm⟩⟩

end Sys2Proof.Machine
end

section
/-! What a packet put into the mesh carries, and which registers the mesh's own traffic leaves as they were (R217, R220, R239). -/

namespace Sys2Proof.Machine

/-! ## Reading by registers -/

/-- What looks at the chiplet's registers alone is alike where they are. -/
theorem eq_of_registers {α : Type} {g : Core → α} (hg : ∀ c : Core, g c = g { creg := c.creg }) {c d : Core} (h : d.creg = c.creg) :
    g d = g c := by rw [hg d, hg c, h]

/-- A field before the network's registers is alike where those registers are. -/
theorem rd_congr_below {c d : Core} (h : ∀ off, off < 0x400000 → d.cword off = c.cword off) (f : Fld) (hf : f.off < 0x400000) :
    d.rd f = c.rd f := by unfold Core.rd; rw [h _ hf]

/-! ## Registers that traffic does not write -/

/-- An offset at which no input's NET_QDEPTH stands. -/
def noDepth (off : Nat) : Prop := ∀ n k p, off ≠ (R.NET_QDEPTH_DEPTH n k p).off

theorem noDepth_of_lt {off : Nat} (h : off < 0x500000) : noDepth off := fun n k p => by simp only [R.NET_QDEPTH_DEPTH]; omega

/-- A link's register stands beside its input's NET_QDEPTH (Table 10.9). -/
theorem noDepth_link (n k p : Nat) : noDepth (R.NET_LINK_STATE n k p).off := fun n' k' p' => by
  simp only [R.NET_LINK_STATE, R.NET_QDEPTH_DEPTH]; omega

theorem enterInput_cword (c : Core) (n k p x : Nat) {off : Nat} (h : noDepth off) : (c.enterInput n k p x).cword off = c.cword off := by
  unfold Core.enterInput Core.bump
  exact (cword_wr_apart _ (R.NET_QDEPTH_MAXD n k p) _ _ (h n k p)).trans (cword_wr_apart _ _ _ _ (h n k p))

theorem leaveInput_cword (c : Core) (n k p x : Nat) {off : Nat} (h : noDepth off) : (c.leaveInput n k p x).cword off = c.cword off :=
  cword_wr_apart _ _ _ _ (h n k p)

/-- A channel's signal is no register. -/
@[simp] theorem signal_creg (c : Core) (n k p v : Nat) : (c.signal n k p v).creg = c.creg := rfl
@[simp] theorem signal_fly (c : Core) (n k p v : Nat) : (c.signal n k p v).net.fly = c.net.fly := rfl
@[simp] theorem signal_arr (c : Core) (n k p v : Nat) : (c.signal n k p v).net.arr = c.net.arr := rfl
@[simp] theorem leaveInput_net (c : Core) (n k p x : Nat) : (c.leaveInput n k p x).net = c.net := rfl
@[simp] theorem setFly_fly (c : Core) (l : List Flying) : (c.setFly l).net.fly = l := rfl
@[simp] theorem setFly_arr (c : Core) (l : List Flying) : (c.setFly l).net.arr = c.net.arr := rfl
@[simp] theorem setFly_creg (c : Core) (l : List Flying) : (c.setFly l).creg = c.creg := rfl

/-- A packet's entry counts it in its epoch and its flits in its input. -/
theorem entered_cword (c : Core) (f : Flying) {off : Nat} (hd : noDepth off) (he : off ≠ (R.NET_EPCNT_COUNT f.pkt.epoch).off) :
    (c.entered f).cword off = c.cword off := by
  unfold Core.entered
  rw [cword_congr (signal_creg _ _ _ _ _), enterInput_cword _ _ _ _ _ hd]
  exact cword_wr_apart _ _ _ _ he

/-! ## A packet put into the mesh -/

/-- A packet's fields that its source sets and the mesh leaves. -/
theorem onMesh_keeps (c : Core) (p : Packet) : (c.onMesh p).1.typ = p.typ ∧ (c.onMesh p).1.arg = p.arg ∧ (c.onMesh p).1.src = p.src
    ∧ (c.onMesh p).1.dst = p.dst ∧ (c.onMesh p).1.epoch = p.epoch ∧ (c.onMesh p).2.creg = c.creg := by
  unfold Core.onMesh
  split <;> exact ⟨rfl, rfl, rfl, rfl, rfl, rfl⟩

/-- What is in flight after a packet entered: one more, which carries what its source set, and came in by `via`. -/
theorem enterMesh_sends (c : Core) (p : Packet) (u here inp dest unit : Nat) (port via : Option Nat) :
    ∃ x : Flying, (c.enterMesh p u here inp dest unit port via).net.fly = c.net.fly ++ [x] ∧ x.via = via ∧ x.pkt.typ = p.typ
      ∧ x.pkt.arg = p.arg ∧ x.pkt.src = p.src ∧ x.pkt.dst = p.dst := by
  obtain ⟨htyp, harg, hsrc, hdst, -, -⟩ := onMesh_keeps c p
  obtain ⟨⟨n, hn⟩, -⟩ := onMesh_spec c p
  unfold Core.enterMesh
  simp only [hn]
  split
  · exact ⟨_, (entered_spec _ _).2, rfl, htyp, harg, hsrc, hdst⟩
  · exact ⟨_, rfl, rfl, htyp, harg, hsrc, hdst⟩

theorem enterMesh_cword (c : Core) (p : Packet) (u here inp dest unit : Nat) (port via : Option Nat) {off : Nat} (hd : noDepth off)
    (he : off ≠ (R.NET_EPCNT_COUNT p.epoch).off) : (c.enterMesh p u here inp dest unit port via).cword off = c.cword off := by
  obtain ⟨-, -, -, -, hep, hcreg⟩ := onMesh_keeps c p
  unfold Core.enterMesh
  dsimp only
  split
  · refine (entered_cword _ _ hd ?_).trans (cword_congr hcreg off)
    rwa [hep]
  · exact cword_congr hcreg off

/-- The count of the ACTIVE epoch stands in one of two registers. -/
theorem ne_activeCount (c : Core) {off : Nat} (h : 0x400018 ≤ off) : off ≠ (R.NET_EPCNT_COUNT (c.rd R.NET_RTCTL_ACTIVE)).off := by
  have := active_lt c
  simp only [R.NET_EPCNT_COUNT]
  omega

/-- What a unit injects enters the mesh where a way leads to its address. -/
theorem inject_sends (c : Core) {p : Packet} {u : Nat} (h : (c.route p.dst (c.unitRouter u)).isSome = true) :
    ∃ x : Flying, (c.inject p u).net.fly = c.net.fly ++ [x] ∧ x.pkt.typ = p.typ ∧ x.pkt.arg = p.arg ∧ x.pkt.src = p.src
      ∧ x.pkt.dst = p.dst := by
  obtain ⟨⟨dest, unit, port⟩, hr⟩ := Option.isSome_iff_exists.mp h
  obtain ⟨x, hx, -, hkept⟩ := enterMesh_sends c { p with epoch := c.rd R.NET_RTCTL_ACTIVE } u (c.unitRouter u) (c.unitSide u) dest unit
    port none
  unfold Core.inject
  simp only [hr]
  exact ⟨x, hx, hkept⟩

theorem inject_cword (c : Core) (p : Packet) (u : Nat) {off : Nat} (hd : noDepth off) (h : 0x400018 ≤ off) :
    (c.inject p u).cword off = c.cword off := by
  unfold Core.inject
  dsimp only
  split
  · exact enterMesh_cword _ _ _ _ _ _ _ _ _ hd (ne_activeCount c h)
  · rfl

end Sys2Proof.Machine
end

section
/-! Link notices, health notices and the epoch timeout (R232, R240, R388). -/

namespace Sys2Proof.Machine

/-! ## Ways off the die rest on the registers alone -/

theorem route_congr {c d : Core} (h : d.creg = c.creg) (a r : Nat) : d.route a r = c.route a r :=
  eq_of_registers (g := fun c => c.route a r) (fun _ => rfl) h

theorem unitRouter_congr {c d : Core} (h : d.creg = c.creg) (u : Nat) : d.unitRouter u = c.unitRouter u :=
  eq_of_registers (g := fun c => c.unitRouter u) (fun _ => rfl) h

theorem hubActive_congr {c d : Core} (h : d.creg = c.creg) : d.hubActive = c.hubActive :=
  eq_of_registers (g := fun c => c.hubActive) (fun _ => rfl) h

/-! ## The ledger's entries (R380) -/

/-- An entry put in its place is in the list. -/
theorem mem_putEntry (e : LEntry) (l : List LEntry) : e ∈ putEntry e l := by
  induction l with
  | nil => exact List.mem_singleton_self e
  | cons x l ih =>
    unfold putEntry
    split
    · exact List.mem_cons_self
    · exact List.mem_cons_of_mem x ih

/-- An entry there is room for is in the ledger. -/
theorem ledgerAdd_mem {c : Core} {e : LEntry} (h : c.ledgerFull e = false) : e ∈ (c.ledgerAdd e).led.entries := by
  unfold Core.ledgerAdd
  rw [if_neg (by simp [h])]
  exact mem_putEntry e _

@[simp] theorem ledgerAdd_creg (c : Core) (e : LEntry) : (c.ledgerAdd e).creg = c.creg := by unfold Core.ledgerAdd; split <;> rfl
@[simp] theorem ledgerAdd_net (c : Core) (e : LEntry) : (c.ledgerAdd e).net = c.net := by unfold Core.ledgerAdd; split <;> rfl

/-- A wear record and a snapshot write registers of the ledger's page alone. -/
theorem wear_cword (c : Core) (unit : Nat) {off : Nat} (h : off ≠ R.LDG_FLOG_WI.off) : (c.wear unit).cword off = c.cword off := by
  obtain ⟨-, hkept, -⟩ := record_spec c 0 (eventSource 0x42) unit 0 0x42 0
  exact (cword_congr (notify_creg _ 4 0 0x42) off).trans (hkept off h)

theorem snapshot_cword (c : Core) {off : Nat} (h : off ≠ R.LDG_STATUS_LGEN.off) : c.snapshot.cword off = c.cword off :=
  (cword_wr_apart _ R.LDG_STATUS_NENT _ _ h).trans (cword_wr_apart _ _ _ _ h)

@[simp] theorem wear_led (c : Core) (unit : Nat) : (c.wear unit).led = c.led := rfl
@[simp] theorem wear_net (c : Core) (unit : Nat) : (c.wear unit).net = c.net := rfl
@[simp] theorem snapshot_entries (c : Core) : c.snapshot.led.entries = c.led.entries := rfl
@[simp] theorem snapshot_net (c : Core) : c.snapshot.net = c.net := rfl

/-! ## LINK_NOTICE (R232) -/

@[simp] theorem setEpoch_led (c : Core) (e v : Nat) : (c.setEpoch e v).led = c.led := by unfold Core.setEpoch; split <;> rfl

theorem freeOwn_led (c : Core) : c.freeOwn.led = c.led := by
  obtain h | ⟨-, h⟩ := freeOwn_cases c
  · rw [h]
  · rw [h]; exact setEpoch_led c _ 0

/-- The counting-house's own epoch change leaves the ledger. -/
theorem ownTables_led (c : Core) : c.ownTables.led = c.led := by
  unfold Core.ownTables
  dsimp only
  split
  · rw [freeOwn_led]
    exact (setEpoch_led _ _ 3).trans (setEpoch_led c _ 2)
  · split
    · split
      · exact setEpoch_led _ _ 1
      · exact freeOwn_led c
    · exact freeOwn_led c

theorem newTables_led (c : Core) (hs : List Nat) : (c.newTables hs).led = c.led := ownTables_led _

/-- Where no change is under way and the other epoch is INVALID, new tables are LOADING in it. -/
theorem newTables_loading {c : Core} (hs : List Nat) (ho : c.net.own = false) (he : c.epochState (1 - c.rd R.NET_RTCTL_ACTIVE) = 0) :
    (c.newTables hs).epochState (1 - c.rd R.NET_RTCTL_ACTIVE) = 1 := by
  have h := ownTables_makes_loading
    (c := { c with net := { c.net with want := some (((c.net.want.getD []) ++ hs).dedup) } }) ho rfl he
  exact h.1

theorem epochState_congr {c d : Core} (h : d.cword R.NET_RTCTL_ACTIVE.off = c.cword R.NET_RTCTL_ACTIVE.off) (e : Nat) :
    d.epochState e = c.epochState e ∧ d.rd R.NET_RTCTL_ACTIVE = c.rd R.NET_RTCTL_ACTIVE := by
  have hrd (f : Fld) (hf : f.off = R.NET_RTCTL_ACTIVE.off) : d.rd f = c.rd f := by unfold Core.rd; rw [hf, h]
  unfold Core.epochState
  rw [hrd R.NET_RTCTL_STATE0 rfl, hrd R.NET_RTCTL_STATE1 rfl]
  exact ⟨rfl, hrd _ rfl⟩

/-- The retirement on record, before new tables are wanted. -/
def Core.recordLink (c : Core) (a : Arrival) (e : LEntry) : Core := (((c.dropArr a).ledgerAdd e).wear e.unit).snapshot

theorem linkNotice_eq (c : Core) (a : Arrival) :
    c.linkNotice a
      = (c.recordLink a ⟨8, meshUnit (linkOf a.pkt.src).1 (linkOf a.pkt.src).2.1 (linkOf a.pkt.src).2.2, 0, 0⟩).newTables := rfl

/-- The record is an entry of the ledger, and neither the epochs nor the record of the tables change. -/
theorem recordLink_spec {c : Core} (a : Arrival) {e : LEntry} (h : c.ledgerFull e = false) : e ∈ (c.recordLink a e).led.entries
    ∧ (c.recordLink a e).net.own = c.net.own
    ∧ (c.recordLink a e).cword R.NET_RTCTL_ACTIVE.off = c.cword R.NET_RTCTL_ACTIVE.off := by
  have hmem : e ∈ ((c.dropArr a).ledgerAdd e).led.entries := ledgerAdd_mem h
  unfold Core.recordLink
  refine ⟨by simpa using hmem, by simp [Core.dropArr], ?_⟩
  rw [snapshot_cword _ (by decide), wear_cword _ _ (by decide)]
  exact cword_congr (ledgerAdd_creg _ _) _

theorem linkNotice_completes {s : State} {i : Nat} {a : Arrival} (hl : s.live = true) (ha : s.mach.core.arrOf i 9 unitSeam = some a)
    (hn : a.linkNotice = true) {e : LEntry}
    (he : e = ⟨8, meshUnit (linkOf a.pkt.src).1 (linkOf a.pkt.src).2.1 (linkOf a.pkt.src).2.2, 0, 0⟩)
    (hf : s.mach.core.ledgerFull e = false) :
    Completes (.linkNotice i) s (fun s' => MemKept s s' ∧ OutsideKept s s' ∧ e ∈ s'.mach.core.led.entries ∧
      (s.mach.core.net.own = false → s.mach.core.epochState (1 - s.mach.core.rd R.NET_RTCTL_ACTIVE) = 0 →
        s'.mach.core.epochState (1 - s.mach.core.rd R.NET_RTCTL_ACTIVE) = 1)) := by
  refine completes_onCore (f := fun c => match c.arrOf i 9 unitSeam with
    | some a => if a.linkNotice then c.linkNotice a else c
    | none => c) rfl hl fun s' hm hout ht => ?_
  obtain ⟨hmem, hown, hrt⟩ := recordLink_spec a hf
  rw [ha] at ht
  dsimp only at ht
  rw [if_pos hn, linkNotice_eq, ← he] at ht
  rw [ht]
  refine ⟨hm, hout, by rwa [newTables_led], fun ho h0 => ?_⟩
  obtain ⟨hstate, hact⟩ := epochState_congr hrt (1 - s.mach.core.rd R.NET_RTCTL_ACTIVE)
  rw [← hact] at h0 hstate ⊢
  exact newTables_loading [] (hown.trans ho) (hstate.trans h0)

/-! ## Health notices (R388) -/

/-- A way out for health notices: a hub is ACTIVE, LDG_NOTIFY names an address, and a way leads there. -/
def Core.healthWay (c : Core) : Prop :=
  c.hubActive = true ∧ c.rd R.LDG_NOTIFY_ADDR ≠ 0 ∧ (c.route (c.rd R.LDG_NOTIFY_ADDR) (c.unitRouter unitSeam)).isSome = true

theorem healthWay_congr {c d : Core} (h : d.creg = c.creg) : d.healthWay ↔ c.healthWay := by
  unfold Core.healthWay
  rw [hubActive_congr h, rd_congr h, route_congr h, unitRouter_congr h]

/-- A HEALTH packet with a way out is in flight towards LDG_NOTIFY. -/
theorem sendHealth_sends {c : Core} (h : c.healthWay) (p : Packet) : NetOnly c (c.sendHealth p) ∧
    ∃ x : Flying, (c.sendHealth p).net.fly = c.net.fly ++ [x] ∧ x.pkt.typ = p.typ ∧ x.pkt.arg = p.arg ∧ x.pkt.src = p.src
      ∧ x.pkt.dst = c.rd R.LDG_NOTIFY_ADDR := by
  obtain ⟨hhub, -, hroute⟩ := h
  unfold Core.sendHealth
  rw [if_pos hhub]
  exact ⟨(inject_spec _ _ _).1, inject_sends c hroute⟩

theorem healthForward_completes {s : State} {i : Nat} {a : Arrival} (hl : s.live = true)
    (ha : s.mach.core.arrOf i 9 unitSeam = some a) (hf : s.mach.core.forwarded a = true) (hw : s.mach.core.healthWay) :
    Completes (.healthForward i) s (fun s' => MemKept s s' ∧
      Sent s s' (fun p => p.typ = 9 ∧ p.arg = a.pkt.arg ∧ p.src = a.pkt.src ∧ p.dst = s.mach.core.rd R.LDG_NOTIFY_ADDR)) := by
  refine completes_onCore (f := fun c => match c.arrOf i 9 unitSeam with
    | some a => if c.forwarded a then c.healthForward a else c
    | none => c) rfl hl fun s' hm _ ht => ⟨hm, ?_⟩
  have hw' : (s.mach.core.dropArr a).healthWay := (healthWay_congr (c := s.mach.core) (by rfl)).mpr hw
  obtain ⟨-, x, hx, htyp, harg, hsrc, hdst⟩ := sendHealth_sends hw' { typ := 9, arg := a.pkt.arg, dst := 0, src := a.pkt.src }
  rw [ha] at ht
  dsimp only at ht
  rw [if_pos hf, Core.healthForward, if_neg hw'.2.1] at ht
  exact ⟨x, by rw [ht]; exact hx, htyp, harg, hsrc, hdst⟩

/-- The notices of a core after one has left at the present tick. -/
def Core.noticeLeft (c : Core) (rest : List Notice) : Core := { c with log := { c.log with due := rest, lastNotice := some c.now } }

/-- The first notice that is due leaves, where none left in the last 1,000 ticks. -/
theorem healthNotice_sends {c : Core} {n : Notice} {rest : List Notice} (hd : c.log.due = n :: rest)
    (hs : ∀ t, c.log.lastNotice = some t → 1000 ≤ c.now - t) (hw : c.healthWay) :
    c.healthNotice = (c.noticeLeft rest).sendHealth { typ := 9, arg := n.arg, dst := 0, src := c.pageAddr 0 } := by
  have hsoon : c.noticeSoon = false := by
    unfold Core.noticeSoon
    cases hlast : c.log.lastNotice with
    | none => rfl
    | some t => exact decide_eq_false (Nat.not_lt.mpr (hs t hlast))
  obtain ⟨hhub, haddr, -⟩ := hw
  unfold Core.healthNotice
  rw [hd]
  dsimp only
  rw [if_neg haddr, if_neg (by simp [hsoon, hhub])]
  rfl

theorem healthNotice_completes {s : State} {n : Notice} {rest : List Notice} (hl : s.live = true)
    (hd : s.mach.core.log.due = n :: rest) (hs : ∀ t, s.mach.core.log.lastNotice = some t → 1000 ≤ s.mach.core.now - t)
    (hw : s.mach.core.healthWay) :
    Completes .healthNotice s (fun s' => MemKept s s' ∧ s'.mach.core.log.due = rest
      ∧ s'.mach.core.log.lastNotice = some s.mach.core.now ∧
      Sent s s' (fun p => p.typ = 9 ∧ p.arg = n.arg ∧ p.dst = s.mach.core.rd R.LDG_NOTIFY_ADDR)) := by
  refine completes_onCore rfl hl fun s' hm _ ht => ⟨hm, ?_⟩
  have hw' : (s.mach.core.noticeLeft rest).healthWay := (healthWay_congr (c := s.mach.core) (by rfl)).mpr hw
  obtain ⟨hnet, x, hx, htyp, harg, -, hdst⟩ := sendHealth_sends hw'
    { typ := 9, arg := n.arg, dst := 0, src := s.mach.core.pageAddr 0 }
  rw [healthNotice_sends hd hs hw] at ht
  rw [ht, hnet.log]
  exact ⟨rfl, rfl, x, by rw [ht]; exact hx, htyp, harg, hdst⟩

/-! ## EPOCHTMO_EXPIRY (R240) -/

theorem jobFatal_net (c : Core) (code unit info : Nat) : (c.jobFatal code unit info).net = c.net := by
  unfold Core.jobFatal Core.joinStep
  dsimp only
  split <;> rfl

theorem epochtmo_completes {s : State} {t0 : Nat} (hl : s.live = true) (hd : s.mach.core.net.draining = some t0)
    (ht : s.mach.core.rd R.NET_TIMERS_EPOCHTMO ≤ s.mach.core.now - t0) :
    Completes .epochtmoExpiry s (fun s' => MemKept s s' ∧ OutsideKept s s' ∧ s'.mach.core.rd R.LDG_ALERT_JOBF = 1
      ∧ s'.mach.core.net.draining = none) := by
  refine completes_onCore (f := Core.epochTmo) rfl hl fun s' hm ho he => ⟨hm, ho, ?_⟩
  unfold Core.epochTmo at he
  rw [hd] at he
  dsimp only at he
  rw [if_pos ht] at he
  rw [he]
  exact ⟨(jobFatal_spec _ _ _ _).1, by rw [jobFatal_net]⟩

/-- Settles O20, notice by notice. That a router's notice names its link by the address in SRC is the model's reading (log
entry 25). -/
theorem noticesAreRecordedAndSent : Obligations.NoticesAreRecordedAndSent :=
  fun _ _ _ hl => ⟨fun ha hn hf => linkNotice_completes hl ha hn rfl hf, fun ha hf hw => healthForward_completes hl ha hf hw,
    fun _ _ hd hs hw => healthNotice_completes hl hd hs hw, fun _ hd ht => epochtmo_completes hl hd ht⟩

end Sys2Proof.Machine
end

section
/-! What the ports' outbound logic leaves, and packets that arrive at a port: entry, refusal and relay (R220, R241, R242, R263). -/

namespace Sys2Proof.Machine

/-! ## Outbound logic (R252, R254) -/

theorem emit_keeps (c : Core) (p s : Nat) (f : Frame) :
    (c.emit p s f).net = c.net ∧ (c.emit p s f).ports.rx = c.ports.rx ∧ (c.emit p s f).ports.held = c.ports.held := by
  unfold Core.emit
  split <;> exact ⟨rfl, rfl, rfl⟩

theorem transmit_keeps (c : Core) (h : Held) (s lseq : Nat) :
    (c.transmit h s lseq).1.net = c.net ∧ (c.transmit h s lseq).1.ports.rx = c.ports.rx := by
  unfold Core.transmit
  dsimp only
  exact ⟨foldl_same (g := Core.net) (fun c f => (emit_keeps c h.port s f).1) _ _,
    foldl_same (g := fun c : Core => c.ports.rx) (fun c f => (emit_keeps c h.port s f).2.1) _ _⟩

/-- Two records of one held packet: the same port, packet and relay mark. -/
def Held.same (h k : Held) : Prop := k.port = h.port ∧ k.pkt = h.pkt ∧ k.relay = h.relay

theorem transmit_same (c : Core) (h : Held) (s lseq : Nat) : h.same (c.transmit h s lseq).2 := ⟨rfl, rfl, rfl⟩

/-- A held packet looked at: it stays the packet it was, and the mesh and the receive buffers are left. -/
theorem pumpOne_keeps (c : Core) (p : Nat) (h : Held) :
    (c.pumpOne p h).1.net = c.net ∧ (c.pumpOne p h).1.ports.rx = c.ports.rx ∧ h.same (c.pumpOne p h).2 := by
  have left : c.net = c.net ∧ c.ports.rx = c.ports.rx ∧ h.same h := ⟨rfl, rfl, rfl, rfl, rfl⟩
  unfold Core.pumpOne
  split
  · exact left
  · split
    · exact left
    · split
      · split
        · next s _ _ =>
          obtain ⟨hnet, hrx⟩ := transmit_keeps c h s h.lseq
          exact ⟨hnet, hrx, transmit_same c h s h.lseq⟩
        · exact left
      · split
        · exact left
        · next s _ =>
          dsimp only
          obtain ⟨hnet, hrx⟩ := transmit_keeps (c.putLink p s { c.link p s with nextLseq := ((c.link p s).nextLseq + 1) % 4096 }) h s
            (c.link p s).nextLseq
          exact ⟨hnet, hrx, transmit_same _ h s _⟩

/-- The held packets of a port looked at one after another. -/
theorem pumpAll_keeps (p : Nat) (l : List Held) (acc : Core × List Held) :
    let r := l.foldl (fun (acc : Core × List Held) h => ((acc.1.pumpOne p h).1, acc.2 ++ [(acc.1.pumpOne p h).2])) acc
    r.1.net = acc.1.net ∧ r.1.ports.rx = acc.1.ports.rx ∧ (∀ h ∈ acc.2, h ∈ r.2) ∧ ∀ h ∈ l, ∃ k ∈ r.2, h.same k := by
  induction l generalizing acc with
  | nil => exact ⟨rfl, rfl, fun _ h => h, fun _ h => absurd h List.not_mem_nil⟩
  | cons x l ih =>
    obtain ⟨hnet, hrx, hsame⟩ := pumpOne_keeps acc.1 p x
    obtain ⟨inet, irx, iacc, il⟩ := ih ((acc.1.pumpOne p x).1, acc.2 ++ [(acc.1.pumpOne p x).2])
    refine ⟨inet.trans hnet, irx.trans hrx, fun h hh => iacc h (List.mem_append_left _ hh), fun h hh => ?_⟩
    obtain rfl | hh := List.mem_cons.mp hh
    · exact ⟨_, iacc _ (List.mem_append_right _ (List.mem_singleton_self _)), hsame⟩
    · exact il h hh

/-- A packet put into a port's outbound logic is held there; no register, no packet of the mesh and no receive buffer changes. -/
theorem sendOut_spec (c : Core) (p : Nat) (pkt : Packet) (relay : Bool) :
    (c.sendOut p pkt relay).net = c.net ∧ (c.sendOut p pkt relay).ports.rx = c.ports.rx
      ∧ ∃ h ∈ (c.sendOut p pkt relay).ports.held, h.port = p ∧ h.pkt = pkt ∧ h.relay = relay := by
  obtain ⟨hnet, hrx, -, hheld⟩ := pumpAll_keeps p (c.ports.held ++ [{ port := p, pkt := pkt, lvc := lvcOf pkt, relay := relay }])
    ({ c with ports := { c.ports with held := c.ports.held ++ [{ port := p, pkt := pkt, lvc := lvcOf pkt, relay := relay }] } }, [])
  obtain ⟨k, hk, hsame⟩ := hheld _ (List.mem_append_right _ (List.mem_singleton_self _))
  exact ⟨hnet, hrx, k, hk, hsame⟩

/-! ## A packet taken from a receive buffer (R251) -/

theorem takeRx_creg (c : Core) (x : Rx) : (c.takeRx x).creg = c.creg := by
  unfold Core.takeRx Core.giveCredit
  split
  · rfl
  · exact emit_creg _ _ _ _

theorem takeRx_keeps (c : Core) (x : Rx) : (c.takeRx x).net = c.net ∧ (c.takeRx x).ports.rx = c.ports.rx.erase x := by
  unfold Core.takeRx Core.giveCredit
  split
  · exact ⟨rfl, rfl⟩
  · obtain ⟨hnet, hrx, -⟩ := emit_keeps { c with ports := { c.ports with rx := c.ports.rx.erase x } } x.port x.strand
      { credit := some (x.lvc, x.blocks) }
    exact ⟨hnet, hrx⟩

/-! ## Entry (R241, R242) -/

/-- The entry checks look at registers alone. -/
theorem entryStatus_congr {c d : Core} (h : d.creg = c.creg) (p : Nat) (pkt : Packet) : d.entryStatus p pkt = c.entryStatus p pkt :=
  eq_of_registers (g := fun c => c.entryStatus p pkt) (fun _ => rfl) h

theorem entryOf_congr {c d : Core} (h : d.creg = c.creg) (p s : Nat) : d.entryOf p s = c.entryOf p s :=
  eq_of_registers (g := fun c => c.entryOf p s) (fun _ => rfl) h

theorem srcValid_congr {c d : Core} (h : d.creg = c.creg) (a : Nat) : d.srcValid a = c.srcValid a :=
  eq_of_registers (g := fun c => c.srcValid a) (fun _ => rfl) h

/-- The first packet at a hub port enters, unless it waits for room. -/
theorem portArrival_enters {c : Core} {p : Nat} {x : Rx} (hp : p < 4)
    (hx : c.ports.rx.find? (fun x => decide (x.port = p) && (decide (p < 4) || decide (c.ringWay x.pkt ≠ .relay))) = some x)
    (hw : c.entryWaits p x.strand x.pkt = false) : c.portArrival p = (c.takeRx x).entry p x.strand x.pkt := by
  unfold Core.portArrival
  rw [hx]
  dsimp only
  rw [if_neg (by omega), if_neg (by simp [hw])]

theorem entry_passes {c : Core} {p s : Nat} {pkt : Packet} (hst : c.rd (R.PRT_STATE_STATE p) = 2)
    (he : c.entryStatus p pkt = none) : c.entry p s pkt = c.letIn p s pkt := by
  unfold Core.entry
  dsimp only
  rw [he, hst, if_neg (by decide)]
  exact if_neg (by decide)

theorem entry_fails {c : Core} {p s e : Nat} {pkt : Packet} (hst : c.rd (R.PRT_STATE_STATE p) = 2)
    (he : c.entryStatus p pkt = some e) : c.entry p s pkt = c.portRefuse p pkt e := by
  unfold Core.entry
  dsimp only
  rw [he, hst, if_neg (by decide)]
  exact if_neg (by decide)

/-- An ACTIVE port's packet that passes its checks, and whose address a way leads to, enters the mesh at its entry router. -/
theorem entry_letsIn {c : Core} {p s : Nat} {pkt : Packet} {r : Nat × Nat × Option Nat} (hst : c.rd (R.PRT_STATE_STATE p) = 2)
    (he : c.entryStatus p pkt = none) (hr : c.route pkt.dst (c.entryOf p s) = some r) :
    c.entry p s pkt = c.enterMesh pkt (unitPort p) (c.entryOf p s) 5 r.1 r.2.1 r.2.2 (some p) := by
  rw [entry_passes hst he]
  unfold Core.letIn
  dsimp only
  rw [hr]

/-- A request with a valid SRC that fails a check is answered with that check's status. -/
theorem entry_refuses {c : Core} {p s e : Nat} {pkt : Packet} (hst : c.rd (R.PRT_STATE_STATE p) = 2)
    (he : c.entryStatus p pkt = some e) (hq : pkt.isRequest = true) (hv : c.srcValid pkt.src = true) :
    c.entry p s pkt = c.portAck p pkt e :=
  (entry_fails hst he).trans ((if_pos hq).trans (if_pos hv))

section
variable {s : State} {p : Nat} {x : Rx} (hl : s.live = true) (hp : p < 4)
  (hx : s.mach.core.ports.rx.find? (fun x => decide (x.port = p)
    && (decide (p < 4) || decide (s.mach.core.ringWay x.pkt ≠ .relay))) = some x)
  (hst : s.mach.core.rd (R.PRT_STATE_STATE p) = 2)
include hl hp hx

/-- PORT_ARRIVAL at a hub port where the first packet does not wait for room. -/
theorem portArrival_completes {P : State → Prop} (hw : s.mach.core.entryWaits p x.strand x.pkt = false)
    (h : ∀ s', MemKept s s' → OutsideKept s s' → s'.mach.core = (s.mach.core.takeRx x).entry p x.strand x.pkt → P s') :
    Completes (.portArrival p) s P := by
  have hi : exec (.portArrival p) s = s.onCore (fun c => c.portArrival p) := by
    show onlyIf (decide (p < 6)) _ = _
    rw [decide_eq_true (by omega), onlyIf_true]
  exact completes_onCore hi hl fun s' hm ho he => h s' hm ho (he.trans (portArrival_enters hp hx hw))

include hst

theorem portArrival_enters_mesh {r : Nat × Nat × Option Nat} (he : s.mach.core.entryStatus p x.pkt = none)
    (hr : s.mach.core.route x.pkt.dst (s.mach.core.entryOf p x.strand) = some r)
    (hw : s.mach.core.entryWaits p x.strand x.pkt = false) :
    Completes (.portArrival p) s (fun s' => MemKept s s' ∧ OutsideKept s s' ∧
      s'.mach.core.ports.rx = s.mach.core.ports.rx.erase x ∧ ∃ g, s'.mach.core.net.fly = s.mach.core.net.fly ++ [g]
        ∧ g.pkt.dst = x.pkt.dst ∧ g.pkt.typ = x.pkt.typ ∧ g.via = some p) := by
  refine portArrival_completes hl hp hx hw fun s' hm ho ht => ⟨hm, ho, ?_⟩
  have hc := takeRx_creg s.mach.core x
  obtain ⟨hnet, hrx⟩ := takeRx_keeps s.mach.core x
  rw [entry_letsIn ((rd_congr hc _).trans hst) ((entryStatus_congr hc p x.pkt).trans he) (r := r)
    (by rw [route_congr hc, entryOf_congr hc]; exact hr)] at ht
  obtain ⟨hmesh, g, hg, -, -, -, -, hvia, htyp, hdst, -⟩ := enterMesh_spec (s.mach.core.takeRx x) x.pkt (unitPort p)
    ((s.mach.core.takeRx x).entryOf p x.strand) 5 r.1 r.2.1 r.2.2 (some p)
  rw [ht]
  exact ⟨by rw [hmesh.ports, hrx], g, by rw [hg, hnet], hdst, htyp, hvia⟩

theorem portArrival_refused {e : Nat} (he : s.mach.core.entryStatus p x.pkt = some e) (hq : x.pkt.isRequest = true)
    (hv : s.mach.core.srcValid x.pkt.src = true) :
    Completes (.portArrival p) s (fun s' => MemKept s s' ∧ s'.mach.core.net.fly = s.mach.core.net.fly ∧
      s'.mach.core.ports.rx = s.mach.core.ports.rx.erase x ∧
      ∃ h ∈ s'.mach.core.ports.held, h.port = p ∧ h.pkt.typ = 4 ∧ h.pkt.status = e ∧ h.pkt.dst = x.pkt.src) := by
  have hw : s.mach.core.entryWaits p x.strand x.pkt = false := by simp [Core.entryWaits, he]
  refine portArrival_completes hl hp hx hw fun s' hm _ ht => ⟨hm, ?_⟩
  have hc := takeRx_creg s.mach.core x
  obtain ⟨hnet, hrx⟩ := takeRx_keeps s.mach.core x
  rw [entry_refuses ((rd_congr hc _).trans hst) ((entryStatus_congr hc p x.pkt).trans he) hq ((srcValid_congr hc _).trans hv)] at ht
  obtain ⟨onet, orx, h, hh, hport, hpkt, -⟩ := sendOut_spec (s.mach.core.takeRx x) p
    { (s.mach.core.takeRx x).ackPacket unitSeam x.pkt e with epoch := (s.mach.core.takeRx x).rd R.NET_RTCTL_ACTIVE } false
  rw [ht]
  exact ⟨by rw [← hnet, ← onet]; rfl, orx.trans hrx, h, hh, hport, by rw [hpkt]; exact ⟨rfl, rfl, rfl⟩⟩

end

/-! ## RING_RELAY (R263) -/

theorem ringRelay_completes {s : State} {p : Nat} {x : Rx} (hl : s.live = true) (hp : p = 4 ∨ p = 5)
    (hx : s.mach.core.ports.rx.find? (fun x => decide (x.port = p) && decide (s.mach.core.ringWay x.pkt = .relay)) = some x)
    (hh : x.pkt.hops + 1 < 255) :
    Completes (.ringRelay p) s (fun s' => MemKept s s' ∧ OutsideKept s s' ∧
      s'.mach.core.net = s.mach.core.net ∧ s'.mach.core.ports.rx = s.mach.core.ports.rx.erase x ∧
      ∃ h ∈ s'.mach.core.ports.held, h.port = 9 - p ∧ h.relay = true ∧ h.pkt = { x.pkt with hops := x.pkt.hops + 1 }) := by
  have hi : exec (.ringRelay p) s = s.onCore (fun c => c.ringRelay p) := by
    show onlyIf (decide (p = 4) || decide (p = 5)) _ = _
    rw [show (decide (p = 4) || decide (p = 5)) = true by simpa using hp, onlyIf_true]
  refine completes_onCore hi hl fun s' hm ho ht => ⟨hm, ho, ?_⟩
  obtain ⟨hnet, hrx⟩ := takeRx_keeps s.mach.core x
  obtain ⟨onet, orx, h, hheld, hport, hpkt, hrelay⟩ := sendOut_spec (s.mach.core.takeRx x) (9 - p)
    { x.pkt with hops := x.pkt.hops + 1 } true
  unfold Core.ringRelay at ht
  rw [hx] at ht
  dsimp only at ht
  rw [if_neg (Nat.not_le.mpr hh)] at ht
  rw [ht]
  exact ⟨onet.trans hnet, orx.trans hrx, h, hheld, hport, hrelay, hpkt⟩

/-- Settles O21: a hub port's first packet enters the mesh or is answered, and a ring packet for another slot is relayed. The order
of the checks, and so which of them is the first that fails, is the model's (log entry 39). -/
theorem portArrivalsEnterOrAreRelayed : Obligations.PortArrivalsEnterOrAreRelayed :=
  ⟨fun _ _ _ hl hp hx hst => ⟨fun _ he hr hw => portArrival_enters_mesh hl hp hx hst he hr hw,
    fun _ he hq hv => portArrival_refused hl hp hx hst he hq hv⟩, fun _ _ _ hl hp hx hh => ringRelay_completes hl hp hx hh⟩

end Sys2Proof.Machine
end

section
/-! What a device-fatal event leaves of the registers past the network's counters (R300, R386). -/

namespace Sys2Proof.Machine

section
variable {off : Nat} (h : 0x400018 ≤ off)
include h

/-- A register before the network's counters stands elsewhere. -/
theorem ne_offset {f : Fld} (hf : f.off < 0x400018) : off ≠ f.off := by omega

theorem enterHold_cword (c : Core) (st : Nat) : (c.enterHold st).cword off = c.cword off := by
  unfold Core.enterHold
  dsimp only
  rw [Core.mapCmds_cword, cword_congr (foldl_same (g := Core.creg) (fun c t => Core.twr_creg c t R.SEQ_BELL_PEND 0) _ _),
    cword_wr_apart _ _ _ _ (ne_offset h (by decide)), cword_wr_apart _ _ _ _ (ne_offset h (by decide))]

theorem closeWin_cword (c : Core) {w : Nat} (hw : w < 1024) : (c.closeWin w).cword off = c.cword off := by
  have hopen : off ≠ (R.LAR_WIN_OPEN w).off := ne_offset h (by simp only [R.LAR_WIN_OPEN]; omega)
  have hclosing : off ≠ (R.LAR_WIN_CLOSING w).off := hopen
  have hgen : off ≠ (R.LAR_WIN_GEN w).off := hopen
  unfold Core.closeWin Core.settleWin
  split
  · split
    · rw [cword_wr_apart _ _ _ _ hclosing, cword_wr_apart _ _ _ _ hopen, cword_wr_apart _ _ _ _ hgen, cword_wr_apart _ _ _ _ hclosing]
    · rw [cword_wr_apart _ _ _ _ hgen, cword_wr_apart _ _ _ _ hclosing]
  · rfl

theorem closeAllWins_cword (c : Core) : c.closeAllWins.cword off = c.cword off :=
  foldl_same_mem (g := fun c => Core.cword c off) _ (fun c _ hw => closeWin_cword h c (List.mem_range.mp hw)) c

theorem joinStep_cword (c : Core) (st : Nat) : (c.joinStep st).cword off = c.cword off := by
  unfold Core.joinStep
  split
  · exact cword_wr_apart _ _ _ _ (ne_offset h (by decide))
  · rfl

variable (hd : noDepth off)
include hd

/-- Taking a queue's targets puts posts of aborted POSTs into the mesh, and writes no other register. -/
theorem abortQueue_cword (c : Core) (u q : Nat) (range : Option (Nat × Nat)) : (c.abortQueue u q range).1.cword off = c.cword off := by
  refine foldl_same (g := fun c => Core.cword c off)
    (f := fun (c : Core) (x : Cmd) => (if x.abort.2 then c.abortedPost x else c).putCmd x.abort.1) (fun c x => ?_) _ c
  have hput (d : Core) (y : Cmd) : (d.putCmd y).cword off = d.cword off := cword_congr (Core.putCmd_creg d y) off
  rw [hput]
  split
  · unfold Core.abortedPost
    split
    · exact inject_cword _ _ _ hd h
    · rfl
  · rfl

theorem abortAll_cword (c : Core) : c.abortAll.cword off = c.cword off := by
  refine foldl_same (g := fun c => Core.cword c off) (fun c u => ?_) _ c
  rw [abortQueues_core]
  exact foldl_same (g := fun c => Core.cword c off) (fun c q => abortQueue_cword h hd c u q none) _ c

theorem deviceFatal_cword (c : Core) (code unit : Nat) : (c.deviceFatal code unit).cword off = c.cword off := by
  have hflog : off ≠ R.LDG_FLOG_WI.off := ne_offset h (by decide)
  have halert : off ≠ R.LDG_ALERT_JOBF.off := ne_offset h (by decide)
  obtain ⟨-, hrecord, -⟩ := record_spec c 3 (eventSource code) unit 0 code 0
  unfold Core.deviceFatal
  dsimp only
  rw [closeAllWins_cword h, abortAll_cword h hd, enterHold_cword h, cword_wr_apart _ R.LDG_ALERT_DEVF _ _ halert, joinStep_cword h,
    cword_congr (notify_creg _ _ _ _), cword_wr_apart _ _ _ _ halert, hrecord off hflog]

end

end Sys2Proof.Machine
end

section
/-! PACKET_HOP and ESCAPE: entry, crossing, ejection, resends, a link's retirement and a loop's end (R219 to R222, R227, R231 to
R233). -/

namespace Sys2Proof.Machine

/-! ## What a hop notes beside the packet -/

@[simp] theorem noteTurn_creg (c : Core) (key v : Nat) : (c.noteTurn key v).creg = c.creg := by unfold Core.noteTurn; split <;> rfl
@[simp] theorem noteTurn_fly (c : Core) (key v : Nat) : (c.noteTurn key v).net.fly = c.net.fly := by unfold Core.noteTurn; split <;> rfl
@[simp] theorem noteTurn_arr (c : Core) (key v : Nat) : (c.noteTurn key v).net.arr = c.net.arr := by unfold Core.noteTurn; split <;> rfl
@[simp] theorem countStall_fly (c : Core) (f : Flying) (out : Nat) : (c.countStall f out).net.fly = c.net.fly := by
  unfold Core.countStall; split <;> rfl
@[simp] theorem countStall_arr (c : Core) (f : Flying) (out : Nat) : (c.countStall f out).net.arr = c.net.arr := by
  unfold Core.countStall; split <;> rfl

/-- Counting a stall writes the output's NET_STALL alone. -/
theorem countStall_cword (c : Core) (f : Flying) (out : Nat) {off : Nat} (h : off ≠ (R.NET_STALL_STALL f.here f.plane out).off) :
    (c.countStall f out).cword off = c.cword off := by
  unfold Core.countStall
  split
  · rfl
  · exact cword_wr_apart _ (R.NET_STALL_STALL f.here f.plane out) _ _ h

@[simp] theorem freeOwn_fly (c : Core) : c.freeOwn.net.fly = c.net.fly := (freeOwn_epochOnly c).fly
@[simp] theorem freeOwn_arr (c : Core) : c.freeOwn.net.arr = c.net.arr := (freeOwn_epochOnly c).arr

/-- A packet gone from the mesh is gone from what is in flight; it writes its input's depth, its epoch's count and NET_RTCTL. -/
theorem leaveMesh_spec (c : Core) (f : Flying) (i : Nat) :
    (c.leaveMesh f i).net.fly = c.net.fly.eraseIdx i ∧ (c.leaveMesh f i).net.arr = c.net.arr ∧
      ∀ off, noDepth off → off ≠ R.NET_RTCTL_ACTIVE.off → off ≠ (R.NET_EPCNT_COUNT f.pkt.epoch).off →
        (c.leaveMesh f i).cword off = c.cword off := by
  unfold Core.leaveMesh
  dsimp only
  refine ⟨by simp, by simp, fun off hd hr he => ?_⟩
  rw [(freeOwn_epochOnly _).cword off hr, cword_wr_apart _ _ _ _ he, cword_congr (signal_creg _ _ _ _ _), leaveInput_cword _ _ _ _ _ hd]
  rfl

/-! ## Which way a hop goes -/

section
variable {c : Core} {i : Nat} {f : Flying} (hf : c.net.fly[i]? = some f)
include hf

theorem hop_queued (errs : List (Nat × Nat × Nat)) (hq : f.queued = true) : c.hop i errs = c.enterNow f i := by
  unfold Core.hop
  rw [hf]
  exact if_pos hq

theorem hop_loops (errs : List (Nat × Nat × Nat)) (hq : f.queued = false) (hh : 255 ≤ f.pkt.hops) :
    c.hop i errs = ((c.leaveMesh f i).bump R.NET_STATUS_LOOP 1).deviceFatal 0x81 (meshUnit f.here f.plane 0) := by
  unfold Core.hop
  rw [hf]
  exact (if_neg (by simp [hq])).trans (if_pos hh)

theorem hop_moves (errs : List (Nat × Nat × Nat)) (hq : f.queued = false) (hh : f.pkt.hops < 255) :
    c.hop i errs = c.move f i errs := by
  unfold Core.hop
  rw [hf]
  exact (if_neg (by simp [hq])).trans (if_neg (Nat.not_le.mpr hh))

end

theorem move_ejects {c : Core} {f : Flying} {p : Packet} (i : Nat) (errs : List (Nat × Nat × Nat)) (hn : c.nextPort f = (p, none))
    (hm : p.mcast = false) (ht : c.takesHere f p = true) (h1 : c.firstAt f = true) :
    c.move f i errs = (c.noteTurn (inputKey f.here f.plane (c.unitSide f.unit)) p.vc).eject f i p := by
  unfold Core.move
  rw [hn]
  dsimp only
  rw [if_pos ⟨ht, h1⟩, hm, if_neg (by decide)]

section
variable {c : Core} {f : Flying} {p : Packet} {out m : Nat} (i : Nat) (errs : List (Nat × Nat × Nat))
  (hn : c.nextPort f = (p, some out)) (hm : neighbour f.here out = some m) (hl : c.linkState f.here f.plane out = 0)
include hn hm hl

theorem move_holds (hr : c.hasRoom m f.plane (opposite out) p.vc p.flits = false) : c.move f i errs = c.holdHop f i out := by
  unfold Core.move
  rw [hn]
  dsimp only
  rw [hm]
  exact (if_neg (by simp [hl])).trans (if_pos hr)

theorem move_crosses (hr : c.hasRoom m f.plane (opposite out) p.vc p.flits = true) (h1 : c.firstAt f = true) :
    c.move f i errs = ((c.countStall f out).noteTurn (inputKey f.here f.plane out) p.vc).cross f i p out m errs := by
  unfold Core.move
  rw [hn]
  dsimp only
  rw [hm]
  exact (if_neg (by simp [hl])).trans ((if_neg (by simp [hr])).trans (if_neg (by simp [h1])))

end

/-! ## Entry, crossing and ejection -/

/-- A packet at its source enters once its input has room. -/
theorem enterNow_enters {c : Core} {f : Flying} (i : Nat) (hr : c.hasRoom f.here f.plane f.inp f.pkt.vc f.pkt.flits = true) :
    (c.enterNow f i).net.fly = c.net.fly.set i { f with queued := false, pkt := { f.pkt with epoch := c.rd R.NET_RTCTL_ACTIVE } }
      ∧ (c.enterNow f i).net.arr = c.net.arr := by
  unfold Core.enterNow
  rw [if_pos hr]
  obtain ⟨hnet, hfly⟩ := entered_spec (c.setFly (c.net.fly.set i
    { f with queued := false, pkt := { f.pkt with epoch := c.rd R.NET_RTCTL_ACTIVE } }))
    { f with queued := false, pkt := { f.pkt with epoch := c.rd R.NET_RTCTL_ACTIVE } }
  exact ⟨hfly, hnet.arr⟩

/-- A block on which no error is met is delivered as it was sent. -/
theorem decodeHop_clean (len : Nat) : decodeHop len [] = .word [] 0 := rfl

/-- A packet on which no error is met arrives whole. -/
theorem decodePacket_clean (bs : List Byte) : decodePacket bs [] = some (bs, 0) := by
  unfold decodePacket
  refine List.foldlRecOn (motive := fun acc => acc = some (bs, 0)) _ _ rfl fun acc hacc x _ => ?_
  subst hacc
  simp [decodeHop_clean]

/-- A packet that arrives as it was sent stands at the next router, one hop further. -/
theorem cross_whole (c : Core) (f : Flying) (i : Nat) (p : Packet) (out m : Nat) :
    (c.cross f i p out m []).net.fly = c.net.fly.set i { f with
        pkt := { p with hops := p.hops + 1 }, here := m, inp := opposite out, out := 6, resends := 0, waited := false, heldAt := none }
      ∧ (c.cross f i p out m []).net.arr = c.net.arr := by
  unfold Core.cross
  rw [decodePacket_clean]
  dsimp only
  rw [if_pos rfl]
  exact ⟨rfl, rfl⟩

theorem holdHop_holds (c : Core) (f : Flying) (i out : Nat) :
    (c.holdHop f i out).net.fly = c.net.fly.set i { f with heldAt := f.heldAt.or (some c.now) }
      ∧ (c.holdHop f i out).net.arr = c.net.arr := by
  unfold Core.holdHop
  exact ⟨rfl, by simp⟩

/-- Whether a router answers for its tile rests on registers before the network's. -/
theorem routerAnswers_congr {c d : Core} (h : ∀ off, off < 0x400000 → d.cword off = c.cword off) (u : Nat) :
    d.routerAnswers u = c.routerAnswers u := by
  have hrd := rd_congr_below h
  unfold Core.routerAnswers
  by_cases hu : u < 960
  · unfold Core.present Core.tileDark
    rw [hrd R.LDG_FP_SUMMARY_VALID (by decide), hrd (R.LDG_FP_ROW_ABSENT (u / 20)) (by simp only [R.LDG_FP_ROW_ABSENT]; omega),
      hrd (R.WGH_DOMST_MODE (u / 20 / 2)) (by simp only [R.WGH_DOMST_MODE]; omega)]
  · rw [decide_eq_false hu]
    rfl

/-- A unicast packet ejected at a unit of this die that answers for itself stands among its arrivals. -/
theorem eject_arrives {c : Core} {f : Flying} {p : Packet} (i : Nat) (hm : p.mcast = false) (hp : f.port = none)
    (hr : c.routerAnswers f.unit = false) :
    (c.eject f i p).net.fly = c.net.fly.eraseIdx i ∧ ∃ a ∈ (c.eject f i p).net.arr, a.unit = f.unit ∧ a.pkt = p := by
  obtain ⟨hfly, -, hregs⟩ := leaveMesh_spec (c.countSent f.here f.plane (c.unitSide f.unit) p) f i
  have hanswers : ((c.countSent f.here f.plane (c.unitSide f.unit) p).leaveMesh f i).routerAnswers f.unit = false := by
    rw [← hr]
    refine routerAnswers_congr (fun off ho => ?_) f.unit
    have hrt : off ≠ R.NET_RTCTL_ACTIVE.off := by show off ≠ 0x400000; omega
    rw [hregs off (noDepth_of_lt (by omega)) hrt (by simp only [R.NET_EPCNT_COUNT]; omega)]
    unfold Core.countSent Core.bumpWrap
    rw [cword_wr_apart _ _ _ _ (by simp only [R.NET_BYTES_BYTES]; omega), cword_wr_apart _ _ _ _ (by simp only [R.NET_PKTS_PKTS]; omega)]
  unfold Core.eject Core.deliver
  rw [if_neg (by simp [hm]), hp]
  dsimp only
  rw [if_neg (by simp [hanswers])]
  exact ⟨hfly, _, List.mem_append_right _ (List.mem_singleton_self _), rfl, rfl⟩

/-! ## Resends, and a link's retirement (R231, R232) -/

/-- How often a packet has met an uncorrectable error in a row over a link. -/
def Flying.resendsOver (f : Flying) (out : Nat) : Nat := if f.out = out then f.resends else 0

/-- A crossing counted in RESEND. -/
def Core.countResend (c : Core) (f : Flying) (out m : Nat) : Core := c.bump (R.NET_LINK_RESEND m f.plane (opposite out)) 1

theorem cross_resends {c : Core} {f : Flying} {p : Packet} {errs : List (Nat × Nat × Nat)} (i out m : Nat)
    (hd : decodePacket p.wire errs = none) (hn : f.resendsOver out ≠ 3) :
    c.cross f i p out m errs
      = (c.countResend f out m).setFly (c.net.fly.set i { f with out := out, resends := f.resendsOver out + 1 }) := by
  unfold Core.cross
  rw [hd]
  exact if_neg hn

theorem cross_retires {c : Core} {f : Flying} {p : Packet} {errs : List (Nat × Nat × Nat)} (i out m : Nat)
    (hd : decodePacket p.wire errs = none) (hn : f.resendsOver out = 3) :
    c.cross f i p out m errs = (((c.countResend f out m).setFly (c.net.fly.set i { f with resends := 0 })).retireLink f.here f.plane out
      m).linkHealth f.here f.plane out := by
  unfold Core.cross
  rw [hd]
  exact if_pos hn

/-- A link's RESEND after a crossing is counted in it. -/
theorem countResend_rd (c : Core) (f : Flying) (out m : Nat) :
    (c.countResend f out m).rd (R.NET_LINK_RESEND m f.plane (opposite out))
      = satAdd (R.NET_LINK_RESEND m f.plane (opposite out)).w (c.rd (R.NET_LINK_RESEND m f.plane (opposite out))) 1 :=
  rd_bump_self c _ 1 (show 24 + 16 ≤ 64 by decide)

/-- Of two links set to one state, the first reads it. -/
theorem linkState_wr_both (c : Core) (n k p n' k' p' : Nat) :
    ((c.wr (R.NET_LINK_STATE n k p) 1).wr (R.NET_LINK_STATE n' k' p') 1).rd (R.NET_LINK_STATE n k p) = 1 := by
  by_cases h : (R.NET_LINK_STATE n k p).off = (R.NET_LINK_STATE n' k' p').off
  · have he : R.NET_LINK_STATE n k p = R.NET_LINK_STATE n' k' p' := congrArg (fun o => (⟨o, 0, 2⟩ : Fld)) h
    rw [he]
    exact Core.rd_wr_self _ _ 1 (show 0 + 2 ≤ 64 by decide)
  · unfold Core.rd
    rw [cword_wr_apart _ _ _ _ h]
    exact Core.rd_wr_self c (R.NET_LINK_STATE n k p) 1 (show 0 + 2 ≤ 64 by decide)

/-- A link retired reads RETIRED. -/
theorem retireLink_state (c : Core) (n k p m : Nat) : (c.retireLink n k p m).rd (R.NET_LINK_STATE n k p) = 1 := by
  have hoff : (R.NET_LINK_STATE n k p).off ≠ R.NET_STATUS_RETIRED.off := by
    simp only [R.NET_LINK_STATE, R.NET_STATUS_RETIRED]; omega
  have h := linkState_wr_both c n k p m k (opposite p)
  unfold Core.retireLink Core.bump
  unfold Core.rd at h ⊢
  rw [cword_wr_apart _ _ _ _ hoff]
  exact h

/-- The notice of a retired link names the link's register, and leaves the registers of links. -/
theorem linkHealth_spec (c : Core) (n k p : Nat) :
    (c.linkHealth n k p).rd (R.NET_LINK_STATE n k p) = c.rd (R.NET_LINK_STATE n k p) ∧
      ∃ g ∈ (c.linkHealth n k p).net.fly, g.pkt.typ = 9 ∧ g.pkt.src = c.pageAddr (R.NET_LINK_STATE n k p).off := by
  unfold Core.linkHealth
  refine ⟨?_, ?_⟩
  · unfold Core.rd
    rw [enterMesh_cword _ _ _ _ _ _ _ _ _ (noDepth_link n k p) (ne_activeCount c (by simp only [R.NET_LINK_STATE]; omega))]
  · obtain ⟨g, hg, -, htyp, -, hsrc, -⟩ := enterMesh_sends c
      { typ := 9, arg := 1, epoch := c.rd R.NET_RTCTL_ACTIVE, dst := c.pageAddr 0x60800,
        src := c.pageAddr (R.NET_LINK_STATE n k p).off } unitSeam n 5 (c.seamNear n) unitSeam none none
    exact ⟨g, by rw [hg]; exact List.mem_append_right _ (List.mem_singleton_self g), htyp, hsrc⟩

/-- The chiplet's own addresses rest on registers before the network's. -/
theorem pageAddr_congr {c d : Core} (h : ∀ off, off < 0x400000 → d.cword off = c.cword off) (o : Nat) :
    d.pageAddr o = c.pageAddr o := by
  have hrd := rd_congr_below h
  unfold Core.pageAddr Core.selfAddr Core.selfTop
  rw [hrd R.PRT_SELF_PLANE (by decide), hrd R.PRT_SELF_X (by decide), hrd R.PRT_SELF_Y (by decide), hrd R.PRT_SELF_Z (by decide),
    hrd R.PRT_SELF_SLOT (by decide)]

/-- A crossing that retires its link leaves the registers before the network's until its notice is sent. -/
theorem retired_regs (c : Core) (f : Flying) (i n k p m : Nat) (g : Flying) {off : Nat} (h : off < 0x400000) :
    (((c.countResend f p m).setFly (c.net.fly.set i g)).retireLink n k p m).cword off = c.cword off := by
  unfold Core.retireLink Core.bump Core.countResend Core.bump
  rw [cword_wr_apart _ _ _ _ (by simp only [R.NET_STATUS_RETIRED]; omega),
    cword_wr_apart _ _ _ _ (by simp only [R.NET_LINK_STATE]; omega),
    cword_wr_apart _ _ _ _ (by simp only [R.NET_LINK_STATE]; omega), cword_congr (setFly_creg _ _),
    cword_wr_apart _ _ _ _ (by simp only [R.NET_LINK_RESEND]; omega)]

/-! ## The rows -/

/-- PACKET_HOP of a packet of the mesh. -/
theorem packetHop_completes {s : State} {i : Nat} {errs : List (Nat × Nat × Nat)} {d : Core} {P : State → Prop} (hl : s.live = true)
    (hd : s.mach.core.hop i errs = d) (h : ∀ s', MemKept s s' → OutsideKept s s' → s'.mach.core = d → P s') :
    Completes (.packetHop i errs) s P :=
  completes_onCore (f := fun c => c.hop i errs) rfl hl fun s' hm ho ht => h s' hm ho (ht.trans hd)

section
variable {s : State} {i : Nat} {f : Flying} (hl : s.live = true) (hf : s.mach.core.net.fly[i]? = some f)
include hl hf

theorem packetHop_enters (hq : f.queued = true) (hr : s.mach.core.hasRoom f.here f.plane f.inp f.pkt.vc f.pkt.flits = true) :
    Completes (.packetHop i []) s (fun s' => (MemKept s s' ∧ OutsideKept s s' ∧ s'.mach.core.net.arr = s.mach.core.net.arr)
      ∧ s'.mach.core.net.fly
        = s.mach.core.net.fly.set i { f with queued := false, pkt := { f.pkt with epoch := s.mach.core.rd R.NET_RTCTL_ACTIVE } }) :=
  packetHop_completes hl (hop_queued hf [] hq) fun s' hm ho ht => by
    obtain ⟨hfly, harr⟩ := enterNow_enters i hr
    rw [ht]
    exact ⟨⟨hm, ho, harr⟩, hfly⟩

theorem packetHop_ejects {p : Packet} (hq : f.queued = false) (hh : f.pkt.hops < 255) (hn : s.mach.core.nextPort f = (p, none))
    (hm : p.mcast = false) (hp : f.port = none) (ht : s.mach.core.takesHere f p = true) (h1 : s.mach.core.firstAt f = true)
    (hr : s.mach.core.routerAnswers f.unit = false) :
    Completes (.packetHop i []) s (fun s' => MemKept s s' ∧ OutsideKept s s' ∧
      s'.mach.core.net.fly = s.mach.core.net.fly.eraseIdx i ∧ ∃ a ∈ s'.mach.core.net.arr, a.unit = f.unit ∧ a.pkt = p) :=
  packetHop_completes hl ((hop_moves hf [] hq hh).trans (move_ejects i [] hn hm ht h1)) fun s' hmem ho he => by
    obtain ⟨hfly, harr⟩ := eject_arrives
      (c := s.mach.core.noteTurn (inputKey f.here f.plane (s.mach.core.unitSide f.unit)) p.vc) i hm hp
      ((routerAnswers_congr (fun off _ => cword_congr (noteTurn_creg _ _ _) off) f.unit).trans hr)
    rw [he]
    exact ⟨hmem, ho, by rw [hfly, noteTurn_fly], harr⟩

theorem packetHop_loops {errs : List (Nat × Nat × Nat)} (hq : f.queued = false) (hh : 255 ≤ f.pkt.hops) (he : f.pkt.epoch < 2) :
    Completes (.packetHop i errs) s (fun s' => MemKept s s' ∧ s'.mach.core.rd R.NET_STATUS_LOOP
      = satAdd R.NET_STATUS_LOOP.w (s.mach.core.rd R.NET_STATUS_LOOP) 1) :=
  packetHop_completes hl (hop_loops hf errs hq hh) fun s' hm _ ht => by
    obtain ⟨-, -, hleft⟩ := leaveMesh_spec s.mach.core f i
    have hfatal := deviceFatal_cword (off := R.NET_STATUS_LOOP.off) (by decide) (noDepth_of_lt (by decide))
      ((s.mach.core.leaveMesh f i).bump R.NET_STATUS_LOOP 1) 0x81 (meshUnit f.here f.plane 0)
    have hloop := rd_bump_self (s.mach.core.leaveMesh f i) R.NET_STATUS_LOOP 1 (by decide)
    have hepoch : R.NET_STATUS_LOOP.off ≠ (R.NET_EPCNT_COUNT f.pkt.epoch).off := by
      simp only [R.NET_STATUS_LOOP, R.NET_EPCNT_COUNT]; omega
    refine ⟨hm, ?_⟩
    unfold Core.rd at hloop ⊢
    rw [ht, hfatal, hloop, hleft _ (noDepth_of_lt (by decide)) (by decide) hepoch]

section
variable {p : Packet} {out m : Nat} (hq : f.queued = false) (hh : f.pkt.hops < 255) (hn : s.mach.core.nextPort f = (p, some out))
  (hm : neighbour f.here out = some m) (hs : s.mach.core.linkState f.here f.plane out = 0)
include hq hh hn hm hs

theorem packetHop_holds (hr : s.mach.core.hasRoom m f.plane (opposite out) p.vc p.flits = false) :
    Completes (.packetHop i []) s (fun s' => (MemKept s s' ∧ OutsideKept s s' ∧ s'.mach.core.net.arr = s.mach.core.net.arr)
      ∧ s'.mach.core.net.fly = s.mach.core.net.fly.set i { f with heldAt := f.heldAt.or (some s.mach.core.now) }) :=
  packetHop_completes hl ((hop_moves hf [] hq hh).trans (move_holds i [] hn hm hs hr)) fun s' hmem ho ht => by
    obtain ⟨hfly, harr⟩ := holdHop_holds s.mach.core f i out
    rw [ht]
    exact ⟨⟨hmem, ho, harr⟩, hfly⟩

variable (hr : s.mach.core.hasRoom m f.plane (opposite out) p.vc p.flits = true) (h1 : s.mach.core.firstAt f = true)
include hr h1

theorem packetHop_crosses :
    Completes (.packetHop i []) s (fun s' => (MemKept s s' ∧ OutsideKept s s' ∧ s'.mach.core.net.arr = s.mach.core.net.arr)
      ∧ s'.mach.core.net.fly = s.mach.core.net.fly.set i { f with
        pkt := { p with hops := p.hops + 1 }, here := m, inp := opposite out, out := 6, resends := 0, waited := false, heldAt := none }) :=
  packetHop_completes hl ((hop_moves hf [] hq hh).trans (move_crosses i [] hn hm hs hr h1)) fun s' hmem ho ht => by
    obtain ⟨hfly, harr⟩ := cross_whole ((s.mach.core.countStall f out).noteTurn (inputKey f.here f.plane out) p.vc) f i p out m
    rw [ht]
    exact ⟨⟨hmem, ho, by rw [harr, noteTurn_arr, countStall_arr]⟩, by rw [hfly, noteTurn_fly, countStall_fly]⟩

variable {errs : List (Nat × Nat × Nat)} (hd : decodePacket p.wire errs = none)
include hd

theorem packetHop_resends (h3 : f.resendsOver out ≠ 3) :
    Completes (.packetHop i errs) s (fun s' => MemKept s s' ∧
      s'.mach.core.net.fly = s.mach.core.net.fly.set i { f with out := out, resends := f.resendsOver out + 1 }
      ∧ s'.mach.core.rd (R.NET_LINK_RESEND m f.plane (opposite out))
        = satAdd (R.NET_LINK_RESEND m f.plane (opposite out)).w (s.mach.core.rd (R.NET_LINK_RESEND m f.plane (opposite out))) 1) :=
  packetHop_completes hl ((hop_moves hf errs hq hh).trans (move_crosses i errs hn hm hs hr h1)) fun s' hmem _ ht => by
    rw [cross_resends i out m hd h3] at ht
    have hkept : ((s.mach.core.countStall f out).noteTurn (inputKey f.here f.plane out) p.vc).rd
        (R.NET_LINK_RESEND m f.plane (opposite out)) = s.mach.core.rd (R.NET_LINK_RESEND m f.plane (opposite out)) := by
      rw [rd_congr (noteTurn_creg _ _ _)]
      exact congrArg (fldGet _) (countStall_cword _ f out (by simp only [R.NET_LINK_RESEND, R.NET_STALL_STALL]; omega))
    refine ⟨hmem, by rw [ht, setFly_fly, noteTurn_fly, countStall_fly], ?_⟩
    rw [ht, rd_congr (setFly_creg _ _), countResend_rd, hkept]

theorem packetHop_retires (h3 : f.resendsOver out = 3) :
    Completes (.packetHop i errs) s (fun s' => MemKept s s' ∧
      s'.mach.core.rd (R.NET_LINK_STATE f.here f.plane out) = 1 ∧ ∃ g ∈ s'.mach.core.net.fly, g.pkt.typ = 9
        ∧ g.pkt.src = s.mach.core.pageAddr (R.NET_LINK_STATE f.here f.plane out).off) :=
  packetHop_completes hl ((hop_moves hf errs hq hh).trans (move_crosses i errs hn hm hs hr h1)) fun s' hmem _ ht => by
    rw [cross_retires i out m hd h3] at ht
    obtain ⟨hstate, g, hg, htyp, hsrc⟩ := linkHealth_spec
      (((((s.mach.core.countStall f out).noteTurn (inputKey f.here f.plane out) p.vc).countResend f out m).setFly
        (((s.mach.core.countStall f out).noteTurn (inputKey f.here f.plane out) p.vc).net.fly.set i { f with resends := 0 })).retireLink
          f.here f.plane out m) f.here f.plane out
    rw [ht]
    refine ⟨hmem, hstate.trans (retireLink_state _ _ _ _ _), g, hg, htyp, hsrc.trans (pageAddr_congr (fun off ho => ?_) _)⟩
    rw [retired_regs _ _ _ _ _ _ _ _ ho, cword_congr (noteTurn_creg _ _ _)]
    exact countStall_cword _ f out (by simp only [R.NET_STALL_STALL]; omega)

end

/-- ESCAPE marks a unicast packet of VC2 to VC5 (R227). -/
theorem escape_completes (hv : 2 ≤ f.pkt.vc) (he : f.pkt.esc = false) (hq : f.queued = false) :
    Completes (.escape i) s (fun s' => MemKept s s' ∧ RegsKept s s' ∧ OutsideKept s s'
      ∧ s'.mach.core.net.fly = s.mach.core.net.fly.set i { f with waited := true } ∧ s'.mach.core.net.arr = s.mach.core.net.arr) := by
  refine completes_onCore (f := fun c => c.escape i) rfl hl fun s' hm ho ht => ?_
  have hesc : s.mach.core.escape i = s.mach.core.setFly (s.mach.core.net.fly.set i { f with waited := true }) := by
    unfold Core.escape
    rw [hf]
    exact if_pos ⟨hv, he, hq⟩
  rw [hesc] at ht
  exact ⟨hm, regsKept_of_eq ht rfl rfl, ho, by rw [ht]; rfl, by rw [ht]; rfl⟩

end

/-- Settles O19: a queued packet enters; one in the mesh crosses, is held, is sent again over its link or retires it, is ejected, or
ends at 255 hops; and one that waited ESCWAIT is marked. -/
theorem packetsHopRetryAndEscape : Obligations.PacketsHopRetryAndEscape := by
  refine ⟨fun s i f p hl hf => ⟨packetHop_enters hl hf, fun hq hh => ⟨fun out m hn hm hs => ⟨?crosses, ?holds⟩, ?ejects⟩⟩,
    fun s i errs f p hl hf hq => ⟨fun out m hh hn hm hs hr h1 hd _ _ _ => ⟨?resends, ?retires⟩, packetHop_loops hl hf hq⟩,
    fun s i f hl hf => escape_completes hl hf⟩
  case crosses => exact packetHop_crosses hl hf hq hh hn hm hs
  case holds => exact packetHop_holds hl hf hq hh hn hm hs
  case ejects => exact packetHop_ejects hl hf hq hh
  case resends => exact packetHop_resends hl hf hq hh hn hm hs hr h1 hd
  case retires => exact packetHop_retires hl hf hq hh hn hm hs hr h1 hd

end Sys2Proof.Machine
end

section
/-! A request that holds a note before it starts is answered at once: the refutation of O40. -/

namespace Sys2Proof.Machine

/-- MB_RT_BUILD of a request with a note takes its tables as written, and ends. -/
theorem rtBuild_noted (m : Mach) {r : MbReq} (hn : r.note ≠ []) :
    m.rtBuild r = .done (m.onCore (fun c => c.setEpoch (1 - m.core.rd R.NET_RTCTL_ACTIVE) 2)) stOK 0
      (toBytes 1 (1 - m.core.rd R.NET_RTCTL_ACTIVE)) := if_pos hn

/-- A request whose turn it is and that holds a note is answered, whatever the epochs' states: nothing is left in its slot. -/
theorem mbRtBuild_noted {s : State} {r : MbReq} (ht : Turn s (mbIs 0x40) r) (hn : r.note ≠ []) :
    Completes .mbRtBuild s (fun s' => ∀ x ∈ s'.mach.core.mb.reqs, ¬ (x.port = r.port ∧ x.slot = r.slot)) := by
  refine completes_turn ht rfl fun hport s' he => ?_
  rw [mbRun_done (rtBuild_noted (s.mach.onCore (fun c => c.putReq (r.begun s.mach.core.now))) (r := r.begun s.mach.core.now) hn)] at he
  obtain ⟨hgone, -⟩ := mbFinish_responds (r := r.begun s.mach.core.now) hport (by decide) (by decide) (congrArg Mach.core he)
  exact hgone

/-- An MB_RT_BUILD that has not started and holds a note. -/
def notedBuild : MbReq := { port := 0, slot := 0, cmd := 0x40, vmaj := 0, tag := 0, resp := 0, body := [], note := [1] }

/-- The chiplet out of reset, with that request waiting. -/
def notedState : State :=
  { State.reset with
    mach := { core := { mb := { reqs := [notedBuild] } } }
    pwr := { fullRstN := true, compRstN := true } }

/-- It is the request's turn. -/
theorem notedState_turn : Turn notedState (mbIs 0x40) notedBuild := by unfold Turn SlotsOk; decide +kernel

/-- The inactive epoch is INVALID. -/
theorem notedState_invalid :
    notedState.mach.core.epochState (1 - notedState.mach.core.rd R.NET_RTCTL_ACTIVE) = 0 := by decide +kernel

/-- Refutes O40: the clauses for MB_RT_BUILD's first run, unlike those for MB_WIN_CLOSE and MB_RT_FREE, do not ask that the request's
note is empty. In `notedState` the request at the head has not started and holds a note, so that the row takes its tables as
written: the request is answered, and does not wait. MAILBOX_REQUEST accepts a request without a note (mbRequest), and only one that
has started is given one (Mach.mbRun). -/
theorem not_windowsAndRouteEpochsTurn : ¬ Obligations.WindowsAndRouteEpochsTurn := by
  unfold Obligations.WindowsAndRouteEpochsTurn
  rintro ⟨-, hepochs⟩
  obtain ⟨hbuild, -⟩ := hepochs notedState notedBuild
  obtain ⟨hloading, -⟩ := hbuild notedState_turn
  obtain ⟨t, ht, -, -, -, x, hx, hport, hslot, -⟩ := hloading notedState_invalid
  obtain ⟨t', ht', hgone⟩ := mbRtBuild_noted notedState_turn (by decide)
  obtain rfl : t = t' := Host.Outcome.next.inj (ht.symm.trans ht')
  exact hgone x hx ⟨hport, hslot⟩

end Sys2Proof.Machine
end

section
/-! What recorded events leave of the link domain, and the strands' registers read after a change (R258, R259, Tables 11.11 and
11.13). -/

namespace Sys2Proof.Machine

/-! ## Folds -/

/-- A property that each step over a list's members keeps is kept by the fold. -/
theorem foldl_keeps_mem {α β : Type} {P : α → Prop} {f : α → β → α} (l : List β) (h : ∀ a, ∀ b ∈ l, P a → P (f a b)) (a : α)
    (ha : P a) : P (l.foldl f a) := by
  induction l generalizing a with
  | nil => exact ha
  | cons b l ih =>
    exact ih (fun a x hx => h a x (List.mem_cons_of_mem b hx)) _ (h a b List.mem_cons_self ha)

/-- What one step of a fold brings about and every step keeps holds after the fold. -/
theorem foldl_establishes {α β : Type} {P : α → Prop} {f : α → β → α} {l : List β} {b : β} (hb : b ∈ l) (hest : ∀ a, P (f a b))
    (hkeep : ∀ a, ∀ x ∈ l, P a → P (f a x)) (a : α) : P (l.foldl f a) := by
  induction l generalizing a with
  | nil => exact absurd hb List.not_mem_nil
  | cons y l ih =>
    have hl : ∀ a, ∀ x ∈ l, P a → P (f a x) := fun a x hx => hkeep a x (List.mem_cons_of_mem y hx)
    obtain rfl | hb := List.mem_cons.mp hb
    · exact foldl_keeps_mem l hl _ (hest a)
    · exact ih hb hl _

/-! ## Events -/

/-- An offset of the ports' registers (Table 11.11). -/
def portPage (off : Nat) : Prop := 0x30000 ≤ off ∧ off < 0x40000

/-- The ports' registers and the link domain are as they were. -/
structure PortsKept (c d : Core) : Prop where
  page : ∀ off, portPage off → d.cword off = c.cword off
  ports : d.ports = c.ports

namespace PortsKept

theorem refl (c : Core) : PortsKept c c := ⟨fun _ _ => rfl, rfl⟩

theorem trans {c d e : Core} (h : PortsKept c d) (k : PortsKept d e) : PortsKept c e :=
  ⟨fun off ho => (k.page off ho).trans (h.page off ho), k.ports.trans h.ports⟩

theorem of_same {c d : Core} (hc : d.creg = c.creg) (hp : d.ports = c.ports) : PortsKept c d := ⟨fun off _ => cword_congr hc off, hp⟩

theorem of_netOnly {c d : Core} (h : NetOnly c d) : PortsKept c d :=
  ⟨fun off ho => h.creg off (by unfold portPage at ho; omega), h.ports⟩

/-- A register of another page written. -/
theorem wr (c : Core) {f : Fld} (v : Nat) (hf : ¬ portPage f.off) : PortsKept c (c.wr f v) :=
  ⟨fun _ ho => cword_wr_apart c f v _ (fun e => hf (e ▸ ho)), rfl⟩

theorem foldl {β : Type} {f : Core → β → Core} (l : List β) (h : ∀ c, ∀ x ∈ l, PortsKept c (f c x)) (c : Core) :
    PortsKept c (l.foldl f c) :=
  foldl_keeps_mem (P := PortsKept c) l (fun d x hx hd => hd.trans (h d x hx)) c (refl c)

theorem rd {c d : Core} (h : PortsKept c d) {f : Fld} (hf : portPage f.off) : d.rd f = c.rd f := by
  unfold Core.rd; rw [h.page _ hf]

end PortsKept

theorem not_portPage_of_lt {off : Nat} (h : off < 0x30000) : ¬ portPage off := by unfold portPage; omega
theorem not_portPage_of_ge {off : Nat} (h : 0x40000 ≤ off) : ¬ portPage off := by unfold portPage; omega

theorem record_ports (c : Core) (cls source unit status code info : Nat) : PortsKept c (c.record cls source unit status code info) := by
  obtain ⟨-, hkept, -⟩ := record_spec c cls source unit status code info
  exact ⟨fun off ho => hkept off (by rintro rfl; exact absurd ho (not_portPage_of_lt (by decide))), by simp [Core.record]⟩

/-- A notice waits; the ports are not concerned. -/
theorem notify_ports (c : Core) (kind cls code : Nat) : PortsKept c (c.notify kind cls code) := .of_same rfl rfl

theorem corrected_ports (c : Core) (code kind unit info : Nat) : PortsKept c (c.corrected code kind unit info) :=
  (record_ports c 0 (eventSource code) unit 0 code info).trans (notify_ports _ kind 0 code)

theorem snapshot_ports (c : Core) : PortsKept c c.snapshot :=
  ((PortsKept.wr c (f := R.LDG_STATUS_LGEN) _ (not_portPage_of_lt (by decide))).trans
    (.wr _ (f := R.LDG_STATUS_NENT) _ (not_portPage_of_lt (by decide)))).trans (.of_same rfl rfl)

theorem ledgerAdd_ports (c : Core) (e : LEntry) : PortsKept c (c.ledgerAdd e) :=
  .of_same (ledgerAdd_creg c e) (by unfold Core.ledgerAdd; split <;> rfl)

theorem joinStep_ports (c : Core) (st : Nat) : PortsKept c (c.joinStep st) := by
  unfold Core.joinStep
  split
  · exact .wr c _ (not_portPage_of_ge (by decide))
  · exact .refl c

theorem jobFatal_ports (c : Core) (code unit info : Nat) : PortsKept c (c.jobFatal code unit info) := by
  have halert (d : Core) (v : Nat) : PortsKept d (d.wr R.LDG_ALERT_JOBF v) := .wr d v (not_portPage_of_lt (by decide))
  have hcount (d : Core) : PortsKept d (d.bump R.LDG_ALERT_JOBCNT 1) := .wr d _ (not_portPage_of_lt (by decide))
  unfold Core.jobFatal
  exact (((((record_ports c _ _ _ _ _ _).trans (halert _ 1)).trans (hcount _)).trans (notify_ports _ _ _ _)).trans (joinStep_ports _ 1))

theorem enterHold_ports (c : Core) (st : Nat) : PortsKept c (c.enterHold st) := by
  unfold Core.enterHold
  have hb : ¬ portPage R.CH_BELLSTEP_STATE.off := not_portPage_of_ge (by decide)
  have hs : ¬ portPage R.CH_BELLSTAT_HSTAT.off := not_portPage_of_ge (by decide)
  refine .trans (.trans (.trans (.wr c 2 hb) (.wr _ st hs)) (.foldl _ (fun d t _ => ?_) _)) (.of_same rfl rfl)
  exact .of_same (Core.twr_creg d t _ 0) rfl

theorem abortQueue_ports (c : Core) (u q : Nat) (range : Option (Nat × Nat)) : PortsKept c (c.abortQueue u q range).1 := by
  refine .trans (.foldl _ (fun (d : Core) (x : Cmd) _ => .trans ?_ (.of_same (Core.putCmd_creg _ x.abort.1) rfl)) c)
    (.of_same rfl rfl)
  split
  · unfold Core.abortedPost
    split
    · exact .of_netOnly (inject_spec _ _ _).1
    · exact .refl d
  · exact .refl d

theorem abortAll_ports (c : Core) : PortsKept c c.abortAll := by
  refine .foldl _ (fun d u _ => ?_) c
  rw [abortQueues_core]
  exact .foldl _ (fun d q _ => abortQueue_ports d u q none) d

theorem closeWin_ports (c : Core) {w : Nat} (hw : w < 1024) : PortsKept c (c.closeWin w) := by
  have hoff : ¬ portPage (0x48000 + 0x20 * w) := not_portPage_of_ge (by omega)
  have hopen (d : Core) (v : Nat) : PortsKept d (d.wr (R.LAR_WIN_OPEN w) v) := .wr d v hoff
  have hclosing (d : Core) (v : Nat) : PortsKept d (d.wr (R.LAR_WIN_CLOSING w) v) := .wr d v hoff
  have hgen (d : Core) (v : Nat) : PortsKept d (d.wr (R.LAR_WIN_GEN w) v) := .wr d v hoff
  unfold Core.closeWin Core.settleWin
  split
  · split
    · exact (((hclosing c 1).trans (hgen _ _)).trans (hopen _ 0)).trans (hclosing _ 0)
    · exact (hclosing c 1).trans (hgen _ _)
  · exact .refl c

/-- A device-fatal event leaves the ports. -/
theorem deviceFatal_ports (c : Core) (code unit : Nat) : PortsKept c (c.deviceFatal code unit) := by
  have hjob (d : Core) : PortsKept d (d.wr R.LDG_ALERT_JOBF 1) := .wr d 1 (not_portPage_of_lt (by decide))
  have hdev (d : Core) : PortsKept d (d.wr R.LDG_ALERT_DEVF 1) := .wr d 1 (not_portPage_of_lt (by decide))
  have hwins (d : Core) : PortsKept d d.closeAllWins := .foldl _ (fun d w hw => closeWin_ports d (List.mem_range.mp hw)) d
  have hevent := (((record_ports c 3 (eventSource code) unit 0 code 0).trans (hjob _)).trans (notify_ports _ 2 3 code)).trans
    (joinStep_ports _ 1)
  unfold Core.deviceFatal
  exact (((hevent.trans (hdev _)).trans (enterHold_ports _ stFAILED)).trans (abortAll_ports _)).trans (hwins _)

/-- A hub port's loss leaves the ports' registers; of the link domain it may set that warden authority is lost (R262). -/
theorem hubLost_keeps (c : Core) (p : Nat) : (∀ off, portPage off → (c.hubLost p).cword off = c.cword off)
    ∧ ∃ w, (c.hubLost p).ports = { c.ports with wardenLost := w } := by
  unfold Core.hubLost
  dsimp only
  split
  · have h := deviceFatal_ports { c.heatStacks p with ports := { (c.heatStacks p).ports with wardenLost := true } } 0x82 p
    exact ⟨h.page, true, h.ports⟩
  · have h := jobFatal_ports (c.heatStacks p) 0x07 p 0
    exact ⟨h.page, c.ports.wardenLost, h.ports⟩

end Sys2Proof.Machine
end

section
/-! The strands' registers read after a change of a strand's or a port's state (R255, R259, Tables 11.8, 11.11 and 11.13). -/

namespace Sys2Proof.Machine

/-! ## Which fields a change leaves -/

/-- A field that STATE, CAUSE and the counts of a port do not overlap: of another register, or WARDEN or BYPOS of its own. -/
def outsideState (p : Nat) (f : Fld) : Prop := f.off ≠ 0x30000 + 8 * p ∨ (3 ≤ f.lo ∧ f.lo + f.w ≤ 8)

section
variable {p : Nat} {f : Fld} (h : outsideState p f)
include h

theorem rd_wr_state (c : Core) (v : Nat) : (c.wr (R.PRT_STATE_STATE p) v).rd f = c.rd f := by
  refine Core.rd_wr_apart c _ f v (show 0 + 3 ≤ 64 by decide) ?_
  unfold outsideState at h
  simp [Fld.apart, R.PRT_STATE_STATE]
  omega

theorem rd_wr_cause (c : Core) (v : Nat) : (c.wr (R.PRT_STATE_CAUSE p) v).rd f = c.rd f := by
  refine Core.rd_wr_apart c _ f v (show 32 + 4 ≤ 64 by decide) ?_
  unfold outsideState at h
  simp [Fld.apart, R.PRT_STATE_CAUSE]
  omega

theorem recount_rd (c : Core) : (c.recount p).rd f = c.rd f := by
  have hkept {lo w : Nat} (hlo : 8 ≤ lo) (hw : lo + w ≤ 32) (d : Core) (v : Nat) :
      (d.wr ⟨0x30000 + 0x0000 + 8 * p, lo, w⟩ v).rd f = d.rd f := by
    refine Core.rd_wr_apart d _ f v (by dsimp only; omega) ?_
    unfold outsideState at h
    simp [Fld.apart]
    omega
  unfold Core.recount
  exact (hkept (show 8 ≤ 26 by decide) (by decide) _ _).trans ((hkept (show 8 ≤ 20 by decide) (by decide) _ _).trans
    ((hkept (show 8 ≤ 14 by decide) (by decide) _ _).trans (hkept (show 8 ≤ 8 by decide) (by decide) c _)))

theorem setSst_rd (c : Core) {d s : Nat} (v : Nat) (ha : (R.PRT_STRAND_SSTATE p d s).apart f = true) :
    (c.setSst p d s v).rd f = c.rd f :=
  (recount_rd h _).trans (Core.rd_wr_apart c _ f v (show 0 + 3 ≤ 64 by decide) ha)

end

/-- The states of two strands stand in two registers. -/
theorem sstate_apart {p d s p' d' s' : Nat} (hd : d < 2) (hd' : d' < 2) (hs : s < 64) (hs' : s' < 64) (h : p ≠ p' ∨ d ≠ d' ∨ s ≠ s') :
    (R.PRT_STRAND_SSTATE p d s).apart (R.PRT_STRAND_SSTATE p' d' s') = true := by
  simp [Fld.apart, R.PRT_STRAND_SSTATE]
  omega

/-- A port's state register is no strand's (Table 11.13). -/
theorem outsideState_of_ge {p : Nat} {f : Fld} (hp : p < 6) (hf : 0x31000 ≤ f.off) : outsideState p f := by
  unfold outsideState; omega

theorem sstate_off_ge (p d s : Nat) : 0x31000 ≤ (R.PRT_STRAND_SSTATE p d s).off := by simp only [R.PRT_STRAND_SSTATE]; omega

theorem isStrand_iff {p s : Nat} : isStrand p s = true ↔ p < 6 ∧ s < nStrands p := by simp [isStrand]

theorem nStrands_le (p : Nat) : nStrands p ≤ 40 := by unfold nStrands; split <;> decide

theorem strand_lt {p s : Nat} (h : s < nStrands p) : s < 64 := by have := nStrands_le p; omega

/-! ## Strand states -/

theorem sst_congr {c d : Core} (h : d.creg = c.creg) (p e s : Nat) : d.sst p e s = c.sst p e s := rd_congr h _

theorem sst_setSst_self (c : Core) {p : Nat} (hp : p < 6) (d s v : Nat) (hv : v < 8) : (c.setSst p d s v).sst p d s = v := by
  refine (recount_rd (outsideState_of_ge hp (sstate_off_ge p d s)) _).trans ?_
  rw [Core.rd_wr_self c _ v (show 0 + 3 ≤ 64 by decide)]
  exact Nat.mod_eq_of_lt hv

theorem sst_setSst_other (c : Core) {p d s p' d' s' : Nat} (v : Nat) (hp : p < 6) (hd : d < 2) (hd' : d' < 2) (hs : s < 64)
    (hs' : s' < 64) (h : p ≠ p' ∨ d ≠ d' ∨ s ≠ s') : (c.setSst p d s v).sst p' d' s' = c.sst p' d' s' :=
  setSst_rd (outsideState_of_ge hp (sstate_off_ge p' d' s')) c v (sstate_apart hd hd' hs hs' h)

/-- A strand is usable at FULL and at HALF. -/
theorem usable_iff {c : Core} {p d s : Nat} : c.usable p d s = true ↔ c.sst p d s = 2 ∨ c.sst p d s = 3 := by simp [Core.usable]

theorem usable_congr {c d : Core} {p e s : Nat} (h : d.sst p e s = c.sst p e s) : d.usable p e s = c.usable p e s := by
  unfold Core.usable; rw [h]

/-- One of a direction's strands is in one of some states. -/
theorem anyStrand_iff {c : Core} {p d : Nat} {vs : List Nat} : c.anyStrand p d vs = true ↔ ∃ s < nStrands p, c.sst p d s ∈ vs := by
  simp [Core.anyStrand]

theorem bothWays_iff {c : Core} {p : Nat} : c.bothWays p = true ↔
    (∃ s < nStrands p, c.sst p 0 s ∈ [2, 3]) ∧ ∃ s < nStrands p, c.sst p 1 s ∈ [2, 3] := by
  simp only [Core.bothWays, Bool.and_eq_true, anyStrand_iff]

/-! ## Both directions of a link -/

/-- One direction of a link put into a state, unless it is RETIRED. -/
def Core.setUnretired (c : Core) (p d s v : Nat) : Core := if c.sst p d s = 4 then c else c.setSst p d s v

theorem setLink_eq (c : Core) (p s v : Nat) :
    c.setLink p s v = ((c.putLink p s { c.link p s with since := c.now }).setUnretired p 0 s v).setUnretired p 1 s v := rfl

theorem sst_setUnretired_self (c : Core) {p : Nat} (hp : p < 6) (d s v : Nat) (hv : v < 8) :
    (c.setUnretired p d s v).sst p d s = if c.sst p d s = 4 then 4 else v := by
  unfold Core.setUnretired
  split
  · next h => exact h
  · exact sst_setSst_self c hp d s v hv

theorem setUnretired_rd {p : Nat} {f : Fld} (h : outsideState p f) (c : Core) {d s : Nat} (v : Nat)
    (ha : (R.PRT_STRAND_SSTATE p d s).apart f = true) : (c.setUnretired p d s v).rd f = c.rd f := by
  unfold Core.setUnretired
  split
  · rfl
  · exact setSst_rd h c v ha

/-- A field that no state of a link overlaps is left as it was. -/
theorem setLink_rd {p : Nat} {f : Fld} (h : outsideState p f) (c : Core) {s : Nat} (v : Nat)
    (ha : ∀ d < 2, (R.PRT_STRAND_SSTATE p d s).apart f = true) : (c.setLink p s v).rd f = c.rd f := by
  rw [setLink_eq, setUnretired_rd h _ v (ha 1 (by decide)), setUnretired_rd h _ v (ha 0 (by decide))]
  rfl

/-- Each direction is in the state, or still RETIRED. -/
theorem sst_setLink (c : Core) {p s d v : Nat} (hp : p < 6) (hd : d < 2) (hs : s < nStrands p) (hv : v < 8) :
    (c.setLink p s v).sst p d s = if c.sst p d s = 4 then 4 else v := by
  have hs := strand_lt hs
  have hcross {e e' : Nat} (he : e < 2) (he' : e' < 2) (hne : e ≠ e') (c : Core) : (c.setUnretired p e s v).sst p e' s = c.sst p e' s :=
    setUnretired_rd (outsideState_of_ge hp (sstate_off_ge p e' s)) c v (sstate_apart he he' hs hs (.inr (.inl hne)))
  rw [setLink_eq]
  obtain rfl | rfl : d = 0 ∨ d = 1 := by omega
  · rw [hcross (by decide) (by decide) (by decide), sst_setUnretired_self _ hp 0 s v hv]
    rfl
  · rw [sst_setUnretired_self _ hp 1 s v hv, hcross (by decide) (by decide) (by decide)]
    rfl

/-- Of the link domain a link's change of state leaves all but the links' records. -/
theorem setLink_ports (c : Core) (p s v : Nat) : ∃ l, (c.setLink p s v).ports = { c.ports with links := l } := by
  have hkept (c : Core) (d : Nat) : (c.setUnretired p d s v).ports = c.ports := by
    unfold Core.setUnretired
    split <;> rfl
  rw [setLink_eq, hkept, hkept]
  exact ⟨_, rfl⟩

end Sys2Proof.Machine
end

section
/-! What a port's outbound logic does: what sending leaves as it was, and what becomes of the packets held (R251, R252, R254). -/

namespace Sys2Proof.Machine

/-! ## What sending leaves -/

/-- `d` is `c` after frames were sent: the registers, the receive buffers, the attempts at positions, what the partners present and the
LSEQs accepted are as they were, and no frame sent before is gone. -/
structure SendOnly (c d : Core) : Prop where
  creg : d.creg = c.creg
  treg : d.treg = c.treg
  rx : d.ports.rx = c.ports.rx
  tries : d.ports.tries = c.ports.tries
  peer : ∀ p, d.peer p = c.peer p
  wire : ∀ w ∈ c.ports.wire, w ∈ d.ports.wire
  accepted : ∀ p s, (d.link p s).accepted = (c.link p s).accepted

namespace SendOnly

theorem refl (c : Core) : SendOnly c c := ⟨rfl, rfl, rfl, rfl, fun _ => rfl, fun _ h => h, fun _ _ => rfl⟩

theorem trans {c d e : Core} (h : SendOnly c d) (k : SendOnly d e) : SendOnly c e :=
  ⟨k.creg.trans h.creg, k.treg.trans h.treg, k.rx.trans h.rx, k.tries.trans h.tries, fun p => (k.peer p).trans (h.peer p),
    fun w hw => k.wire w (h.wire w hw), fun p s => (k.accepted p s).trans (h.accepted p s)⟩

theorem foldl {β : Type} {f : Core → β → Core} (h : ∀ c x, SendOnly c (f c x)) (l : List β) (c : Core) : SendOnly c (l.foldl f c) :=
  foldl_keeps (P := SendOnly c) (fun d x hd => hd.trans (h d x)) l c (refl c)

/-- The packets held and those being collected are not among what it speaks of. -/
theorem withHeld (c : Core) (l : List Held) : SendOnly c { c with ports := { c.ports with held := l } } :=
  ⟨rfl, rfl, rfl, rfl, fun _ => rfl, fun _ h => h, fun _ _ => rfl⟩

end SendOnly

/-- A link's record replaced: that link has it, and every other as before. -/
theorem link_putLink (c : Core) (p s : Nat) (l : LinkSt) (p' s' : Nat) :
    (c.putLink p s l).link p' s' = if 64 * p' + s' = 64 * p + s then l else c.link p' s' := SMap.get_set _ _ _ _ _

theorem link_putLink_self (c : Core) (p s : Nat) (l : LinkSt) : (c.putLink p s l).link p s = l :=
  (link_putLink c p s l p s).trans (if_pos rfl)

/-- A record that keeps the LSEQs accepted. -/
theorem putLink_sendOnly (c : Core) (p s : Nat) {l : LinkSt} (hl : l.accepted = (c.link p s).accepted) : SendOnly c (c.putLink p s l) := by
  refine ⟨rfl, rfl, rfl, rfl, fun _ => rfl, fun _ h => h, fun p' s' => ?_⟩
  rw [link_putLink]
  split
  · next h => rw [hl]; unfold Core.link; rw [h]
  · rfl

theorem emit_sendOnly (c : Core) (p s : Nat) (f : Frame) : SendOnly c (c.emit p s f) := by
  unfold Core.emit
  split
  · exact .trans (putLink_sendOnly c p s (by rfl))
      ⟨rfl, rfl, rfl, rfl, fun _ => rfl, fun _ h => List.mem_append_left _ h, fun _ _ => rfl⟩
  · exact .refl c

theorem emitAny_sendOnly (c : Core) (p : Nat) (f : Frame) : SendOnly c (c.emitAny p f) := by
  unfold Core.emitAny
  split
  · exact .refl c
  · exact emit_sendOnly c p _ f

theorem giveCredit_sendOnly (c : Core) (p s v n : Nat) : SendOnly c (c.giveCredit p s v n) := by
  unfold Core.giveCredit
  split
  · exact .refl c
  · exact emit_sendOnly c p s _

theorem dropPartial_sendOnly (c : Core) (p s : Nat) : SendOnly c (c.dropPartial p s) := by
  unfold Core.dropPartial
  split
  · have hset : SendOnly c (c.setPartial p s none) := ⟨rfl, rfl, rfl, rfl, fun _ => rfl, fun _ h => h, fun _ _ => rfl⟩
    exact hset.trans (giveCredit_sendOnly _ p s _ _)
  · exact .refl c

theorem sendLctl_sendOnly (c : Core) (m : Lctl) : SendOnly c (c.sendLctl m) := emitAny_sendOnly c _ _

theorem sendDedup_sendOnly (c : Core) (p s : Nat) : SendOnly c (c.sendDedup p s) := .foldl (fun d _ => sendLctl_sendOnly d _) _ c

theorem transmit_sendOnly (c : Core) (h : Held) (s lseq : Nat) : SendOnly c (c.transmit h s lseq).1 := by
  unfold Core.transmit
  exact .trans (putLink_sendOnly c h.port s (by rfl)) (.foldl (fun d f => emit_sendOnly d h.port s f) _ _)

/-- What is sent is held on its strand under its sequence number, from the present tick. -/
theorem transmit_held (c : Core) (h : Held) (s lseq : Nat) :
    (c.transmit h s lseq).2 = { h with strand := some s, lseq := lseq, sentAt := c.now, again := false } := by
  have hnow : (c.transmit h s lseq).2.sentAt = c.now := rd_congr (transmit_creg c h s lseq) R.TMB_NOW_NOW
  rw [← hnow]
  rfl

/-- A usable strand's frame stands among those sent, with the port's state. -/
theorem emit_wire {c : Core} {p s : Nat} (h : c.usable p 0 s = true) (f : Frame) :
    (c.emit p s f).ports.wire = c.ports.wire ++ [(p, s, { f with pstate := c.rd (R.PRT_STATE_STATE p) })] := by
  unfold Core.emit
  rw [if_pos h]
  rfl

/-- A frame that may travel on any strand is sent where a strand is usable. -/
theorem emitAny_wire {c : Core} {p : Nat} (h : c.usables p 0 ≠ []) (f : Frame) :
    ∃ w ∈ (c.emitAny p f).ports.wire, w.1 = p ∧ w.2.2 = { f with pstate := c.rd (R.PRT_STATE_STATE p) } := by
  unfold Core.emitAny
  split
  · next hnil => exact absurd hnil h
  · next s _ hss =>
    have hs : c.usable p 0 s = true := (List.mem_filter.mp (hss ▸ List.mem_cons_self : s ∈ c.usables p 0)).2
    rw [emit_wire hs]
    exact ⟨_, List.mem_append_right _ (List.mem_singleton_self _), rfl, rfl⟩

/-! ## Packets held -/

/-- What looking at a port's held packets makes of one, by the registers of `c`: it is as it was, or it has been sent on a usable
strand, on its own and under its LSEQ where it had one. -/
def Held.carried (c : Core) (p : Nat) (h k : Held) : Prop :=
  k = h ∨ (h.port = p ∧ ∃ s, c.usable p 0 s = true ∧ ∃ q, k = { h with strand := some s, lseq := q, sentAt := c.now, again := false }
    ∧ ∀ t, h.strand = some t → s = t ∧ q = h.lseq)

theorem usables_congr {c d : Core} {p e : Nat} (h : ∀ s < nStrands p, d.sst p e s = c.sst p e s) : d.usables p e = c.usables p e :=
  List.filter_congr fun s hs => usable_congr (h s (List.mem_range.mp hs))

theorem carried_congr {c d : Core} (hc : d.creg = c.creg) (p : Nat) (h k : Held) : h.carried d p k ↔ h.carried c p k := by
  have hnow : d.now = c.now := rd_congr hc _
  unfold Held.carried
  simp only [usable_congr (sst_congr hc p 0 _), hnow]

theorem mem_usables {c : Core} {p e s : Nat} : s ∈ c.usables p e ↔ s < nStrands p ∧ c.usable p e s = true := by
  simp [Core.usables]

/-- The strand chosen for a packet is a usable one. -/
theorem bestStrand_mem {c : Core} {p v b : Nat} {avoid : Option Nat} {s : Nat} (h : c.bestStrand p v b avoid = some s) :
    s ∈ c.usables p 0 := by
  unfold Core.bestStrand at h
  dsimp only at h
  refine foldl_keeps_mem (P := fun best : Option Nat => ∀ s, best = some s → s ∈ c.usables p 0) _ (fun best x hx hb => ?_) none
    (fun s hs => absurd hs (by simp)) s h
  have hx : x ∈ c.usables p 0 := by
    split at hx
    · exact (List.mem_filter.mp hx).1
    · exact (List.mem_filter.mp (List.mem_filter.mp hx).1).1
  intro s hs
  split at hs
  · exact Option.some.inj hs ▸ hx
  · split at hs
    · exact Option.some.inj hs ▸ hx
    · exact hb s hs

/-- A held packet looked at: frames are sent at most, and it is as it was or has been sent. -/
theorem pumpOne_carries (c : Core) (p : Nat) (h : Held) :
    SendOnly c (c.pumpOne p h).1 ∧ h.carried c p (c.pumpOne p h).2 := by
  have left : SendOnly c c ∧ h.carried c p h := ⟨.refl c, .inl rfl⟩
  unfold Core.pumpOne
  split
  · exact left
  · next hport =>
    have hport : h.port = p := not_not.mp hport
    split
    · exact left
    · split
      · next t ht =>
        split
        · next hgo =>
          simp only [Bool.and_eq_true] at hgo
          obtain ⟨⟨-, hu⟩, -⟩ := hgo
          exact ⟨transmit_sendOnly c h t h.lseq, .inr ⟨hport, t, hu, h.lseq, transmit_held c h t h.lseq,
             fun u hu => ⟨Option.some.inj (ht.symm.trans hu), rfl⟩⟩⟩
        · exact left
      · next hnone =>
        split
        · exact left
        · next s hs =>
          obtain ⟨-, hu⟩ := mem_usables.mp (bestStrand_mem hs)
          refine ⟨.trans (putLink_sendOnly c p s (by rfl)) (transmit_sendOnly _ h s _),
            .inr ⟨hport, s, hu, (c.link p s).nextLseq, transmit_held _ h s _, fun t ht => ?_⟩⟩
          exact absurd (hnone.symm.trans ht) (by simp)

/-- A port's held packets looked at one after another. -/
theorem pumpAll_carries (c : Core) (p : Nat) (l : List Held) (acc : Core × List Held) (hc : acc.1.creg = c.creg) :
    let r := l.foldl (fun (acc : Core × List Held) h => ((acc.1.pumpOne p h).1, acc.2 ++ [(acc.1.pumpOne p h).2])) acc
    SendOnly acc.1 r.1 ∧ ∃ l', r.2 = acc.2 ++ l' ∧ List.Forall₂ (Held.carried c p) l l' := by
  induction l generalizing acc with
  | nil => exact ⟨.refl _, [], (List.append_nil _).symm, .nil⟩
  | cons h l ih =>
    obtain ⟨hone, hcar⟩ := pumpOne_carries acc.1 p h
    obtain ⟨hall, l', hl', hrest⟩ := ih ((acc.1.pumpOne p h).1, acc.2 ++ [(acc.1.pumpOne p h).2]) (hone.creg.trans hc)
    exact ⟨hone.trans hall, (acc.1.pumpOne p h).2 :: l', by rw [List.foldl_cons, hl', List.append_assoc]; rfl,
      .cons ((carried_congr hc p h _).mp hcar) hrest⟩

/-- Every held packet of a port looked at: frames are sent at most, and each packet stands where it stood. -/
theorem pump_carries (c : Core) (p : Nat) :
    SendOnly c (c.pump p) ∧ List.Forall₂ (Held.carried c p) c.ports.held (c.pump p).ports.held := by
  obtain ⟨hsend, l', hl', hall⟩ := pumpAll_carries c p c.ports.held (c, []) rfl
  exact ⟨hsend.trans (.withHeld _ _), by rw [List.nil_append] at hl'; subst hl'; exact hall⟩

theorem pump_sendOnly (c : Core) (p : Nat) : SendOnly c (c.pump p) := (pump_carries c p).1

theorem reissueFrom_sendOnly (c : Core) (p s : Nat) : SendOnly c (c.reissueFrom p s) :=
  (SendOnly.withHeld c _).trans (pump_sendOnly _ p)

end Sys2Proof.Machine
end

section
/-! What the checks of a port's state can do: a port fails, opens, or has its strands return to training (R259, R261, R262,
Table 11.8). -/

namespace Sys2Proof.Machine

/-! ## A port's state -/

/-- `d` is `c` but for a port's state and what the domain records with it: the ports' registers outside its STATE, CAUSE and counts, and
the attempts at positions, are as they were. -/
structure StatusOnly (p : Nat) (c d : Core) : Prop where
  rd : ∀ f : Fld, portPage f.off → outsideState p f → d.rd f = c.rd f
  tries : d.ports.tries = c.ports.tries

namespace StatusOnly

theorem refl (p : Nat) (c : Core) : StatusOnly p c c := ⟨fun _ _ _ => rfl, rfl⟩

theorem trans {p : Nat} {c d e : Core} (h : StatusOnly p c d) (k : StatusOnly p d e) : StatusOnly p c e :=
  ⟨fun f hf ho => (k.rd f hf ho).trans (h.rd f hf ho), k.tries.trans h.tries⟩

theorem of_sendOnly {p : Nat} {c d : Core} (h : SendOnly c d) : StatusOnly p c d := ⟨fun f _ _ => rd_congr h.creg f, h.tries⟩

/-- The ports counted ABSENT are no register. -/
theorem withAbsent (p : Nat) (c : Core) (a : List Nat) : StatusOnly p c { c with ports := { c.ports with absent := a } } :=
  ⟨fun _ _ _ => rfl, rfl⟩

theorem state (p : Nat) (c : Core) (v : Nat) : StatusOnly p c (c.wr (R.PRT_STATE_STATE p) v) := ⟨fun _ _ ho => rd_wr_state ho c v, rfl⟩

theorem cause (p : Nat) (c : Core) (v : Nat) : StatusOnly p c (c.wr (R.PRT_STATE_CAUSE p) v) := ⟨fun _ _ ho => rd_wr_cause ho c v, rfl⟩

end StatusOnly

theorem hubLost_status (q p : Nat) (c : Core) : StatusOnly q c (c.hubLost p) := by
  obtain ⟨hpage, w, hw⟩ := hubLost_keeps c p
  exact ⟨fun f hf _ => by unfold Core.rd; rw [hpage _ hf], by rw [hw]⟩

/-- A port counted lost already, or one of the ring, fails in its registers alone. -/
theorem failPort_known {c : Core} {p : Nat} (h : 4 ≤ p ∨ p ∈ c.ports.absent) (cause : Nat) :
    c.failPort p cause = (c.wr (R.PRT_STATE_STATE p) 5).wr (R.PRT_STATE_CAUSE p) cause := by
  unfold Core.failPort
  refine if_neg fun ⟨hp, hab⟩ => ?_
  obtain h | h := h
  · omega
  · exact absurd (List.contains_iff_mem.mpr h) (by simpa using hab)

theorem failPort_status (c : Core) (p cause : Nat) : StatusOnly p c (c.failPort p cause) := by
  have hwr := (StatusOnly.state p c 5).trans (.cause p _ cause)
  unfold Core.failPort
  dsimp only
  split
  · exact (hwr.trans (.withAbsent p _ _)).trans (hubLost_status p p _)
  · exact hwr

theorem openPort_status (c : Core) (p : Nat) : StatusOnly p c (c.openPort p) :=
  (((StatusOnly.state p c (c.readyState p)).trans (.cause p _ 0)).trans (.withAbsent p _ _)).trans (.of_sendOnly (pump_sendOnly _ p))

/-- Settling a port leaves it, opens it where a strand is usable each way, or fails it. -/
theorem settlePort_cases (c : Core) (p : Nat) : c.settlePort p = c ∨ (c.bothWays p = true ∧ c.settlePort p = c.openPort p)
    ∨ ∃ cause, c.settlePort p = c.failPort p cause := by
  unfold Core.settlePort
  split
  · next h => exact .inr (.inl ⟨h.2, rfl⟩)
  · split
    · exact .inl rfl
    · split
      · split
        · next h => exact .inr (.inl ⟨h.2, rfl⟩)
        · exact .inl rfl
      · split
        · next h => exact .inr (.inl ⟨h, rfl⟩)
        · exact .inr (.inr ⟨_, rfl⟩)

theorem settlePort_status (c : Core) (p : Nat) : StatusOnly p c (c.settlePort p) := by
  obtain h | ⟨-, h⟩ | ⟨cause, h⟩ := settlePort_cases c p
  · rw [h]; exact .refl p c
  · rw [h]; exact openPort_status c p
  · rw [h]; exact failPort_status c p cause

/-! ## The strands of a port return to training -/

/-- A field that no state of a port's strands overlaps. -/
def strandsApart (p : Nat) (f : Fld) : Prop := ∀ d < 2, ∀ s < nStrands p, (R.PRT_STRAND_SSTATE p d s).apart f = true

/-- `d` is `c` but for a port's state and strands that have returned to training. -/
structure CheckOnly (p : Nat) (c d : Core) : Prop where
  rd : ∀ f : Fld, portPage f.off → outsideState p f → strandsApart p f → d.rd f = c.rd f
  sst : ∀ e < 2, ∀ s < nStrands p, d.sst p e s = c.sst p e s ∨ (d.sst p e s = 1 ∧ c.sst p e s ∈ [2, 3, 5])
  tries : d.ports.tries = c.ports.tries

theorem sstate_page {p d s : Nat} (hp : p < 6) (hd : d < 2) (hs : s < nStrands p) : portPage (R.PRT_STRAND_SSTATE p d s).off := by
  have := nStrands_le p
  simp only [portPage, R.PRT_STRAND_SSTATE]
  omega

/-- A change of the port's state leaves the strands'. -/
theorem StatusOnly.sst {p : Nat} {c d : Core} (h : StatusOnly p c d) (hp : p < 6) {e s : Nat} (he : e < 2) (hs : s < nStrands p) :
    d.sst p e s = c.sst p e s := h.rd _ (sstate_page hp he hs) (outsideState_of_ge hp (sstate_off_ge p e s))

namespace CheckOnly

theorem refl (p : Nat) (c : Core) : CheckOnly p c c := ⟨fun _ _ _ _ => rfl, fun _ _ _ _ => .inl rfl, rfl⟩

theorem trans {p : Nat} {c d e : Core} (h : CheckOnly p c d) (k : CheckOnly p d e) : CheckOnly p c e := by
  refine ⟨fun f hf ho hs => (k.rd f hf ho hs).trans (h.rd f hf ho hs), fun x hx s hs => ?_, k.tries.trans h.tries⟩
  obtain k1 | ⟨k1, kwas⟩ := k.sst x hx s hs <;> obtain h1 | ⟨h1, hwas⟩ := h.sst x hx s hs
  · exact .inl (k1.trans h1)
  · exact .inr ⟨k1.trans h1, hwas⟩
  · exact .inr ⟨k1, h1 ▸ kwas⟩
  · exact .inr ⟨k1, hwas⟩

theorem of_status {p : Nat} {c d : Core} (hp : p < 6) (h : StatusOnly p c d) : CheckOnly p c d :=
  ⟨fun f hf ho _ => h.rd f hf ho, fun _ he _ hs => .inl (h.sst hp he hs), h.tries⟩

/-- A strand neither usable nor LOST is as it was. -/
theorem sst_same {p : Nat} {c d : Core} (h : CheckOnly p c d) {e s : Nat} (he : e < 2) (hs : s < nStrands p)
    (hv : c.sst p e s ∉ [2, 3, 5]) : d.sst p e s = c.sst p e s :=
  (h.sst e he s hs).resolve_right fun hr => hv hr.2

end CheckOnly

/-- One direction of a strand returned to training, where it is usable or LOST. -/
def Core.trainAgain (c : Core) (p d s : Nat) : Core :=
  if c.sst p d s = 2 ∨ c.sst p d s = 3 ∨ c.sst p d s = 5 then c.setSst p d s 1 else c

/-- A link returned to training. -/
def Core.linkAgain (c : Core) (p s : Nat) : Core :=
  ((c.putLink p s { c.link p s with since := c.now, want := [1, 1] }).trainAgain p 0 s).trainAgain p 1 s

theorem backToTraining_eq (c : Core) (p : Nat) : c.backToTraining p = (List.range (nStrands p)).foldl (fun c s => c.linkAgain p s) c := rfl

/-- A direction returned to training is neither usable nor LOST. -/
theorem sst_trainAgain (c : Core) {p : Nat} (hp : p < 6) (d s : Nat) : (c.trainAgain p d s).sst p d s ∉ [2, 3, 5] := by
  unfold Core.trainAgain
  split
  · rw [sst_setSst_self c hp d s 1 (by decide)]
    decide
  · next h => simpa using h

section
variable {p s : Nat} (hp : p < 6) (hs : s < nStrands p)
include hp hs

theorem trainAgain_check (c : Core) {d : Nat} (hd : d < 2) : CheckOnly p c (c.trainAgain p d s) := by
  unfold Core.trainAgain
  split
  · next h =>
    refine ⟨fun f _ ho ha => setSst_rd ho c 1 (ha d hd s hs), fun e he t ht => ?_, rfl⟩
    by_cases hsame : d = e ∧ s = t
    · obtain ⟨rfl, rfl⟩ := hsame
      exact .inr ⟨sst_setSst_self c hp d s 1 (by decide), by simpa using h⟩
    · exact .inl (sst_setSst_other c 1 hp hd he (strand_lt hs) (strand_lt ht) (by tauto))
  · exact .refl p c

theorem linkAgain_check (c : Core) : CheckOnly p c (c.linkAgain p s) := by
  have hput (l : LinkSt) : CheckOnly p c (c.putLink p s l) := ⟨fun _ _ _ _ => rfl, fun _ _ _ _ => .inl rfl, rfl⟩
  unfold Core.linkAgain
  exact ((hput _).trans (trainAgain_check hp hs _ (by decide))).trans (trainAgain_check hp hs _ (by decide))

theorem sst_linkAgain (c : Core) {d : Nat} (hd : d < 2) : (c.linkAgain p s).sst p d s ∉ [2, 3, 5] := by
  unfold Core.linkAgain
  obtain rfl | rfl : d = 0 ∨ d = 1 := by omega
  · have h0 := sst_trainAgain (c.putLink p s { c.link p s with since := c.now, want := [1, 1] }) hp 0 s
    rwa [(trainAgain_check hp hs _ (by decide)).sst_same (by decide) hs h0]
  · exact sst_trainAgain _ hp 1 s

end

theorem backToTraining_check (c : Core) {p : Nat} (hp : p < 6) : CheckOnly p c (c.backToTraining p) := by
  rw [backToTraining_eq]
  exact foldl_keeps_mem (P := CheckOnly p c) _ (fun d s hs hd => hd.trans (linkAgain_check hp (List.mem_range.mp hs) d)) c (.refl p c)

/-- No strand of a port whose strands have returned to training is usable or LOST. -/
theorem sst_backToTraining (c : Core) {p e s : Nat} (hp : p < 6) (he : e < 2) (hs : s < nStrands p) :
    (c.backToTraining p).sst p e s ∉ [2, 3, 5] := by
  rw [backToTraining_eq]
  refine foldl_establishes (P := fun d => d.sst p e s ∉ [2, 3, 5]) (List.mem_range.mpr hs) (fun d => sst_linkAgain hp hs d he)
    (fun d t ht hd => ?_) c
  rwa [(linkAgain_check hp (List.mem_range.mp ht) d).sst_same he hs hd]

/-- A partner noted among those ABSENT: where it was not, it joins the list, and a hub port is counted lost. -/
def Core.noteAbsent (c : Core) (new : Bool) (p : Nat) : Core :=
  let d := if new then { c with ports := { c.ports with absent := c.ports.absent ++ [p] } } else c
  if new && decide (p < 4) then d.hubLost p else d

/-- A partner counted ABSENT, before the port is settled. -/
def Core.countAbsent (c : Core) (p : Nat) : Core :=
  (if c.ringOut p then c.failPort p 4 else (c.backToTraining p).wr (R.PRT_STATE_STATE p) 1).noteAbsent (!c.ports.absent.contains p) p

theorem partnerAbsent_eq (c : Core) (p : Nat) : c.partnerAbsent p = (c.countAbsent p).settlePort p := rfl

theorem noteAbsent_status (c : Core) (new : Bool) (p : Nat) : StatusOnly p c (c.noteAbsent new p) := by
  have hlist : StatusOnly p c (if new then { c with ports := { c.ports with absent := c.ports.absent ++ [p] } } else c : Core) := by
    split
    · exact .withAbsent p c _
    · exact .refl p c
  unfold Core.noteAbsent
  dsimp only
  split
  · exact hlist.trans (hubLost_status p p _)
  · exact hlist

theorem partnerAbsent_check (c : Core) {p : Nat} (hp : p < 6) : CheckOnly p c (c.partnerAbsent p) := by
  have hstrands : CheckOnly p c (if c.ringOut p then c.failPort p 4 else (c.backToTraining p).wr (R.PRT_STATE_STATE p) 1) := by
    split
    · exact .of_status hp (failPort_status c p 4)
    · exact (backToTraining_check c hp).trans (.of_status hp (.state p _ 1))
  rw [partnerAbsent_eq]
  exact (hstrands.trans (.of_status hp (noteAbsent_status _ _ p))).trans
    (.of_status hp (settlePort_status _ p))

/-- A check of a port fails it, leaves it, settles it, or counts its partner ABSENT, that one where no strand trains or is usable. -/
theorem checkPort_cases (c : Core) (p : Nat) : c.checkPort p = c.failPort p 4 ∨ c.checkPort p = c ∨ c.checkPort p = c.settlePort p
    ∨ (c.checkPort p = c.partnerAbsent p ∧ c.anyStrand p 0 [1, 2, 3] = false ∧ c.anyStrand p 1 [1, 2, 3] = false) := by
  unfold Core.checkPort
  dsimp only
  split
  · split
    · exact .inl rfl
    · split
      · next h => exact .inr (.inr (.inr ⟨rfl, by simpa using h⟩))
      · exact .inr (.inl rfl)
  · exact .inr (.inr (.inl rfl))

theorem checkPort_check (c : Core) {p : Nat} (hp : p < 6) : CheckOnly p c (c.checkPort p) := by
  obtain h | h | h | ⟨h, -⟩ := checkPort_cases c p
  · rw [h]; exact .of_status hp (failPort_status c p 4)
  · rw [h]; exact .refl p c
  · rw [h]; exact .of_status hp (settlePort_status c p)
  · rw [h]; exact partnerAbsent_check c hp

/-- Where a strand trains or is usable, a check leaves every strand's state. -/
theorem checkPort_status {c : Core} {p : Nat} (h : c.anyStrand p 0 [1, 2, 3] = true ∨ c.anyStrand p 1 [1, 2, 3] = true) :
    StatusOnly p c (c.checkPort p) := by
  obtain hc | hc | hc | ⟨-, h0, h1⟩ := checkPort_cases c p
  · rw [hc]; exact failPort_status c p 4
  · rw [hc]; exact .refl p c
  · rw [hc]; exact settlePort_status c p
  · simp [h0, h1] at h

theorem checkRetired_cases (c : Core) (p : Nat) : c.checkRetired p = c.failPort p 4 ∨ c.checkRetired p = c.checkPort p := by
  unfold Core.checkRetired
  dsimp only
  split
  · exact .inl rfl
  · exact .inr rfl

theorem checkRetired_check (c : Core) {p : Nat} (hp : p < 6) : CheckOnly p c (c.checkRetired p) := by
  obtain h | h := checkRetired_cases c p
  · rw [h]; exact .of_status hp (failPort_status c p 4)
  · rw [h]; exact checkPort_check c hp

theorem checkRetired_status {c : Core} {p : Nat} (h : c.anyStrand p 0 [1, 2, 3] = true ∨ c.anyStrand p 1 [1, 2, 3] = true) :
    StatusOnly p c (c.checkRetired p) := by
  obtain hc | hc := checkRetired_cases c p
  · rw [hc]; exact failPort_status c p 4
  · rw [hc]; exact checkPort_status h

end Sys2Proof.Machine
end

section
/-! Degradation (R248, R258, Table 11.7): excluded lanes, retrains, hard events and acknowledge wires. -/

namespace Sys2Proof.Machine

/-! ## Lanes -/

theorem excluded_lt (c : Core) (p d s : Nat) : c.excluded p d s < 2 ^ 72 := by
  have hlo : c.rd (R.PRT_LANEBAD_BADLO p d s) < 2 ^ 64 := Core.rd_lt c _
  have hhi : c.rd (R.PRT_STRAND_BADHI p d s) < 2 ^ 8 := Core.rd_lt c _
  unfold Core.excluded
  omega

/-- The masks' registers are no strand's state. -/
theorem sst_exclude (c : Core) (p d s bad e : Nat) : (c.exclude p d s bad).sst p e s = c.sst p e s := by
  have hlo : (R.PRT_LANEBAD_BADLO p d s).apart (R.PRT_STRAND_SSTATE p e s) = true := by
    simp [Fld.apart, R.PRT_LANEBAD_BADLO, R.PRT_STRAND_SSTATE]; omega
  have hhi : (R.PRT_STRAND_BADHI p d s).apart (R.PRT_STRAND_SSTATE p e s) = true := by
    simp [Fld.apart, R.PRT_STRAND_BADHI, R.PRT_STRAND_SSTATE]
  unfold Core.exclude
  refine (Core.rd_wr_apart _ _ _ _ (show 7 + 8 ≤ 64 by decide) hhi).trans
    ((Core.rd_wr_apart _ _ _ _ (show 0 + 64 ≤ 64 by decide) hlo).trans ?_)
  exact sst_congr (foldl_same (g := Core.creg) (fun c _ => ledgerAdd_creg c _) _ c) p e s

/-- A mask of 72 lanes written reads back. -/
theorem excluded_exclude (c : Core) (p d s : Nat) {bad : Nat} (hb : bad < 2 ^ 72) : (c.exclude p d s bad).excluded p d s = bad := by
  have hhi : (R.PRT_STRAND_BADHI p d s).apart (R.PRT_LANEBAD_BADLO p d s) = true := by
    simp [Fld.apart, R.PRT_LANEBAD_BADLO, R.PRT_STRAND_BADHI]
  unfold Core.excluded Core.exclude
  dsimp only
  rw [Core.rd_wr_self _ _ _ (show 7 + 8 ≤ 64 by decide), Core.rd_wr_apart _ _ _ _ (show 7 + 8 ≤ 64 by decide) hhi,
    Core.rd_wr_self _ _ _ (show 0 + 64 ≤ 64 by decide)]
  show bad % 2 ^ 64 % 2 ^ 64 + 2 ^ 64 * (bad / 2 ^ 64 % 2 ^ 8) = bad
  omega

theorem setBit_lt {x i n : Nat} (b : Bool) (hx : x < 2 ^ n) (hi : i < n) : setBit x i b < 2 ^ n := setBits_lt x i 1 _ n hx hi

theorem bit_setBit_self (x i : Nat) (b : Bool) : bit (setBit x i b) i = b := by
  rw [bit_eq_testBit, setBit, testBit_setBits, if_neg (Nat.lt_irrefl i), if_pos (Nat.lt_succ_self i), Nat.sub_self]
  cases b <;> rfl

/-! ## A link sent into a retrain (R258) -/

section
variable {p : Nat} {f : Fld} (h : outsideState p f)
include h

/-- A retrain writes the states of its link, and no other field. -/
theorem retrain_rd (c : Core) {s : Nat} (d w : Nat) (ha : ∀ e < 2, (R.PRT_STRAND_SSTATE p e s).apart f = true) :
    (c.retrain p s d w).rd f = c.rd f := by
  unfold Core.retrain
  dsimp only
  split
  · exact setLink_rd h _ 1 ha
  · rw [rd_congr (reissueFrom_sendOnly _ p s).creg]
    exact setLink_rd h _ 1 ha

theorem askRetrain_rd (c : Core) {s : Nat} (w : Nat) (ha : ∀ e < 2, (R.PRT_STRAND_SSTATE p e s).apart f = true) :
    (c.askRetrain p s w).rd f = c.rd f :=
  (retrain_rd h _ 1 w ha).trans (rd_congr (sendLctl_sendOnly c _).creg f)

end

/-- A link sent into a retrain is in TRAINING in each direction that is not RETIRED. -/
theorem sst_retrain (c : Core) {p s e : Nat} (hp : p < 6) (he : e < 2) (hs : s < nStrands p) (d w : Nat) :
    (c.retrain p s d w).sst p e s = if c.sst p e s = 4 then 4 else 1 := by
  unfold Core.retrain
  dsimp only
  split
  · exact sst_setLink _ hp he hs (by decide)
  · rw [sst_congr (reissueFrom_sendOnly _ p s).creg]
    exact sst_setLink _ hp he hs (by decide)

theorem sst_askRetrain (c : Core) {p s : Nat} (hp : p < 6) (hs : s < nStrands p) (w : Nat) (h4 : c.sst p 1 s ≠ 4) :
    (c.askRetrain p s w).sst p 1 s = 1 := by
  have hsame : (c.sendLctl { port := p, ltype := 2, link := s, dir := 1, width := w }).sst p 1 s = c.sst p 1 s :=
    sst_congr (sendLctl_sendOnly c _).creg p 1 s
  exact (sst_retrain _ hp (by decide) hs 1 w).trans (if_neg (by rwa [hsame]))

/-- The link of a lane that has failed retrains with it excluded: at FULL where enough lanes are left or the lane stalled, and at
HALF. -/
theorem laneFails_retrains {c : Core} {p s lane : Nat} {stall : Bool} (hl : lane < 72) (hb : bit (c.excluded p 1 s) lane = false)
    (h : (c.sst p 1 s = 2 ∧ ((64 ≤ 72 - popCount (setBit (c.excluded p 1 s) lane true) 72
        ∧ c.laneRoom p 1 s (setBit (c.excluded p 1 s) lane true) = true) ∨ stall = true)) ∨ c.sst p 1 s = 3) :
    ∃ w, c.laneFails p s lane stall = (c.exclude p 1 s (setBit (c.excluded p 1 s) lane true)).askRetrain p s w := by
  unfold Core.laneFails
  dsimp only
  rw [if_neg (by simp [hb, hl])]
  obtain ⟨h2, h⟩ | h3 := h
  · rw [if_pos h2]
    split
    · exact ⟨1, rfl⟩
    · next hroom => rw [if_pos (h.resolve_left hroom)]; exact ⟨2, rfl⟩
  · rw [if_neg (by omega), if_pos h3]
    exact ⟨2, rfl⟩

/-- A retrain leaves the lanes excluded. -/
theorem excluded_askRetrain (c : Core) {p s : Nat} (hp : p < 6) (w d : Nat) : (c.askRetrain p s w).excluded p d s = c.excluded p d s := by
  have hlo : (c.askRetrain p s w).rd (R.PRT_LANEBAD_BADLO p d s) = c.rd (R.PRT_LANEBAD_BADLO p d s) :=
    askRetrain_rd (outsideState_of_ge hp (by simp only [R.PRT_LANEBAD_BADLO]; omega)) c w fun e _ => by
      simp [Fld.apart, R.PRT_STRAND_SSTATE, R.PRT_LANEBAD_BADLO]; omega
  have hhi : (c.askRetrain p s w).rd (R.PRT_STRAND_BADHI p d s) = c.rd (R.PRT_STRAND_BADHI p d s) :=
    askRetrain_rd (outsideState_of_ge hp (by simp only [R.PRT_STRAND_BADHI]; omega)) c w fun e _ => by
      simp [Fld.apart, R.PRT_STRAND_SSTATE, R.PRT_STRAND_BADHI]
  unfold Core.excluded
  rw [hlo, hhi]

/-- A lane excluded by its failure: the link is in TRAINING, and the mask shows the lane. -/
theorem excludeAndAsk_spec (c : Core) {p s lane : Nat} (hp : p < 6) (hs : s < nStrands p) (hl : lane < 72) (w : Nat) (h4 : c.sst p 1 s ≠ 4) :
    let d := (c.exclude p 1 s (setBit (c.excluded p 1 s) lane true)).askRetrain p s w
    d.sst p 1 s = 1 ∧ bit (d.excluded p 1 s) lane = true := by
  refine ⟨sst_askRetrain _ hp hs w (by rwa [sst_exclude]), ?_⟩
  rw [excluded_askRetrain _ hp, excluded_exclude _ _ _ _ (setBit_lt true (excluded_lt c p 1 s) hl)]
  exact bit_setBit_self _ lane true

/-! ## Retirement (R259) -/

/-- A strand not RETIRED yet is put into that state; its record, its notice and the snapshot leave the ports. -/
theorem retireStrand_retires {c : Core} {p d s : Nat} (h : c.sst p d s ≠ 4) : PortsKept (c.setSst p d s 4) (c.retireStrand p d s) := by
  unfold Core.retireStrand
  rw [if_neg h]
  exact ((ledgerAdd_ports _ _).trans (corrected_ports _ _ _ _ _)).trans (snapshot_ports _)

theorem sst_retireStrand (c : Core) {p d s : Nat} (hp : p < 6) (hd : d < 2) (hs : s < nStrands p) :
    (c.retireStrand p d s).sst p d s = 4 := by
  by_cases h : c.sst p d s = 4
  · unfold Core.retireStrand
    rw [if_pos h]
    exact h
  · exact ((retireStrand_retires h).rd (sstate_page hp hd hs)).trans (sst_setSst_self c hp d s 4 (by decide))

/-- Retirement writes the state of its strand, and no other field of the ports. -/
theorem retireStrand_rd {p : Nat} {f : Fld} (hf : portPage f.off) (ho : outsideState p f) (c : Core) {d s : Nat}
    (ha : (R.PRT_STRAND_SSTATE p d s).apart f = true) : (c.retireStrand p d s).rd f = c.rd f := by
  by_cases h : c.sst p d s = 4
  · unfold Core.retireStrand
    rw [if_pos h]
  · exact ((retireStrand_retires h).rd hf).trans (setSst_rd ho c 4 ha)

/-! ## Acknowledge wires (R248) -/

/-- The counts noted and the wires that are behind marked. -/
def Core.markWires (c : Core) (p s k0 k1 : Nat) : Core :=
  let l := c.link p s
  let c := c.putLink p s { l with acked := max l.acked (min l.sent (max k0 k1)) }
  c.wr (R.PRT_STRAND_ACKF p 0 s) (c.rd (R.PRT_STRAND_ACKF p 0 s) ||| wiresBehind k0 k1)

theorem ackWires_eq (c : Core) (p s k0 k1 : Nat) :
    c.ackWires p s k0 k1 = if (c.markWires p s k0 k1).rd (R.PRT_STRAND_ACKF p 0 s) = 3 ∧ (c.markWires p s k0 k1).sst p 0 s ≠ 4 then
      (((c.markWires p s k0 k1).retireStrand p 0 s).sendLctl { port := p, ltype := 3, link := s, dir := 0, width := 0 }).checkRetired p
    else c.markWires p s k0 k1 := rfl

theorem wiresBehind_lt (k0 k1 : Nat) : wiresBehind k0 k1 < 2 ^ 2 := by
  unfold wiresBehind b2n
  split <;> split <;> decide

theorem markWires_ackf (c : Core) (p s k0 k1 : Nat) : (c.markWires p s k0 k1).rd (R.PRT_STRAND_ACKF p 0 s)
    = c.rd (R.PRT_STRAND_ACKF p 0 s) ||| wiresBehind k0 k1 :=
  (Core.rd_wr_self _ (R.PRT_STRAND_ACKF p 0 s) _ (show 36 + 2 ≤ 64 by decide)).trans
    (Nat.mod_eq_of_lt (Nat.or_lt_two_pow (Core.rd_lt c _) (wiresBehind_lt k0 k1)))

theorem ackWires_spec (c : Core) {p s : Nat} (hp : p < 6) (hs : s < nStrands p) (k0 k1 : Nat) :
    (c.ackWires p s k0 k1).rd (R.PRT_STRAND_ACKF p 0 s) = c.rd (R.PRT_STRAND_ACKF p 0 s) ||| wiresBehind k0 k1 ∧
      (c.rd (R.PRT_STRAND_ACKF p 0 s) ||| wiresBehind k0 k1 = 3 → (c.ackWires p s k0 k1).sst p 0 s = 4) := by
  have hpage : portPage (R.PRT_STRAND_ACKF p 0 s).off := sstate_page hp (by decide) hs
  have hout : outsideState p (R.PRT_STRAND_ACKF p 0 s) := outsideState_of_ge hp (sstate_off_ge p 0 s)
  have hapart : strandsApart p (R.PRT_STRAND_ACKF p 0 s) := fun d hd t ht => by
    have := strand_lt hs; have := strand_lt ht
    simp [Fld.apart, R.PRT_STRAND_SSTATE, R.PRT_STRAND_ACKF]
  have hmark := markWires_ackf c p s k0 k1
  rw [ackWires_eq]
  split
  · generalize c.markWires p s k0 k1 = m at hmark
    have hcheck := checkRetired_check ((m.retireStrand p 0 s).sendLctl { port := p, ltype := 3, link := s, dir := 0, width := 0 }) hp
    have hsend := (sendLctl_sendOnly (m.retireStrand p 0 s) { port := p, ltype := 3, link := s, dir := 0, width := 0 }).creg
    have hret : ((m.retireStrand p 0 s).sendLctl { port := p, ltype := 3, link := s, dir := 0, width := 0 }).sst p 0 s = 4 :=
      (sst_congr hsend p 0 s).trans (sst_retireStrand m hp (by decide) hs)
    refine ⟨?_, fun _ => ?_⟩
    · rw [hcheck.rd _ hpage hout hapart, rd_congr hsend, retireStrand_rd hpage hout m (hapart 0 (by decide) s hs), hmark]
    · rw [hcheck.sst_same (by decide) hs (by rw [hret]; decide), hret]
  · next h =>
    refine ⟨hmark, fun h3 => ?_⟩
    by_contra h4
    exact h ⟨hmark.trans h3, h4⟩

/-! ## The rows -/

/-- A row whose operands name a strand completes with its effect on control state. -/
theorem completes_strand {i : Instr} {s : State} {p l : Nat} {f : Core → Core} {P : State → Prop}
    (hi : exec i s = onlyIf (isStrand p l) (s.onCore f)) (hl : s.live = true) (hs : isStrand p l = true)
    (h : ∀ t, MemKept s t → OutsideKept s t → t.mach.core = f s.mach.core → P t) : Completes i s P :=
  completes_onCore (hi.trans (by rw [hs, onlyIf_true])) hl h

section
variable {s : State} {p l : Nat} (hl : s.live = true) (hs : isStrand p l = true)
include hl hs

/-- A failed lane's link retrains with the lane excluded: what both lane rows complete with. -/
theorem laneFails_completes {i : Instr} {lane : Nat} {stall : Bool} {f : Core → Core}
    (hi : exec i s = onlyIf (isStrand p l) (s.onCore f)) (hf : f s.mach.core = s.mach.core.laneFails p l lane stall) (hlane : lane < 72)
    (hb : bit (s.mach.core.excluded p 1 l) lane = false)
    (h : (s.mach.core.sst p 1 l = 2 ∧ ((64 ≤ 72 - popCount (setBit (s.mach.core.excluded p 1 l) lane true) 72
        ∧ s.mach.core.laneRoom p 1 l (setBit (s.mach.core.excluded p 1 l) lane true) = true) ∨ stall = true)) ∨ s.mach.core.sst p 1 l = 3) :
    Completes i s (fun s' => MemKept s s' ∧ s'.mach.core.sst p 1 l = 1 ∧ bit (s'.mach.core.excluded p 1 l) lane = true) := by
  obtain ⟨hp, hn⟩ := isStrand_iff.mp hs
  refine completes_strand hi hl hs fun t hm _ ht => ⟨hm, ?_⟩
  obtain ⟨w, hw⟩ := laneFails_retrains hlane hb h
  rw [ht, hf, hw]
  exact excludeAndAsk_spec _ hp hn hlane w (by omega)

theorem hardEventLimit_completes
    (h : (s.mach.core.sst p 1 l = 2 ∧ s.mach.core.rd R.PRT_THRESH_HDEG ≤ s.mach.core.rd (R.PRT_CNT_HARD p 1 l))
      ∨ (s.mach.core.sst p 1 l = 3 ∧ s.mach.core.rd R.PRT_THRESH_HRET ≤ s.mach.core.rd (R.PRT_CNT_HARD p 1 l))) :
    Completes (.hardEventLimit p l) s (fun s' => MemKept s s' ∧ s'.mach.core.sst p 1 l = 1
      ∧ s'.mach.core.rd (R.PRT_CNT_HARD p 1 l) = s.mach.core.rd (R.PRT_CNT_HARD p 1 l)) := by
  obtain ⟨hp, hn⟩ := isStrand_iff.mp hs
  refine completes_strand rfl hl hs fun t hm _ ht => ⟨hm, ?_⟩
  have hlim : s.mach.core.hardLimit p 1 l = true := by simpa [Core.hardLimit] using h
  rw [if_pos hlim] at ht
  rw [ht]
  refine ⟨sst_askRetrain _ hp hn 2 (by omega), askRetrain_rd (outsideState_of_ge hp ?_) _ 2 fun e _ => ?_⟩
  · simp only [R.PRT_CNT_HARD]; omega
  · simp [Fld.apart, R.PRT_STRAND_SSTATE, R.PRT_CNT_HARD]

theorem ackWireFail_completes {k0 k1 : Nat} (h : wiresBehind k0 k1 ≠ 0) :
    Completes (.ackWireFail p l ⟨k0, k1⟩) s (fun s' => MemKept s s' ∧
      let ackf := s.mach.core.rd (R.PRT_STRAND_ACKF p 0 l) ||| wiresBehind k0 k1
      s'.mach.core.rd (R.PRT_STRAND_ACKF p 0 l) = ackf ∧ (ackf = 3 → s'.mach.core.sst p 0 l = 4)) := by
  obtain ⟨hp, hn⟩ := isStrand_iff.mp hs
  have hi : exec (.ackWireFail p l ⟨k0, k1⟩) s = s.onCore (fun c => c.ackWires p l k0 k1) := by
    show onlyIf (isStrand p l && decide (wiresBehind k0 k1 ≠ 0)) _ = _
    rw [hs, decide_eq_true h]
    rfl
  refine completes_onCore hi hl fun t hm _ ht => ⟨hm, ?_⟩
  rw [ht]
  exact ackWires_spec _ hp hn k0 k1

end

/-- Settles O24, row by row of Table 11.7. -/
theorem degradationRetrainsOrRetires : Obligations.DegradationRetrainsOrRetires := by
  unfold Obligations.DegradationRetrainsOrRetires
  intro s p l lane k0 k1 hl hs
  refine ⟨fun hlane hb hcount h => ?fails, fun hlane hb h => ?stalls, hardEventLimit_completes hl hs, ackWireFail_completes hl hs⟩
  case fails =>
    exact laneFails_completes (stall := false) hl hs rfl (if_pos hcount) hlane hb (h.imp_left fun ⟨h2, he⟩ => ⟨h2, .inl he⟩)
  case stalls => exact laneFails_completes (stall := true) hl hs rfl rfl hlane hb (h.imp_left fun h2 => ⟨h2, .inr rfl⟩)

end Sys2Proof.Machine
end

section
/-! Training (R255, R257): what one direction and a whole link train to, and which registers that leaves. -/

namespace Sys2Proof.Machine

/-! ## The ledger's room -/

theorem putEntry_length (e : LEntry) (l : List LEntry) : (putEntry e l).length = l.length + 1 := by
  induction l with
  | nil => rfl
  | cons x l ih =>
    unfold putEntry
    split
    · rfl
    · simp [ih]

theorem ledgerAdd_length (c : Core) (e : LEntry) : (c.ledgerAdd e).led.entries.length ≤ c.led.entries.length + 1 := by
  unfold Core.ledgerAdd addEntry
  split
  · exact Nat.le_succ _
  · dsimp only
    rw [putEntry_length]
    exact Nat.succ_le_succ (List.length_filter_le _ _)

theorem newBad_length (c : Core) (p d s bad : Nat) : (c.newBad p d s bad).length ≤ 72 :=
  (List.length_filter_le _ _).trans (by simp)

theorem exclude_length (c : Core) (p d s bad : Nat) : (c.exclude p d s bad).led.entries.length ≤ c.led.entries.length + 72 := by
  have hfold (l : List Nat) (c : Core) : (l.foldl (fun c x => c.ledgerAdd ⟨6, strandUnit p d s, x, 0⟩) c).led.entries.length
      ≤ c.led.entries.length + l.length := by
    induction l generalizing c with
    | nil => exact Nat.le_refl _
    | cons x l ih =>
      have := ih (c.ledgerAdd ⟨6, strandUnit p d s, x, 0⟩)
      have := ledgerAdd_length c ⟨6, strandUnit p d s, x, 0⟩
      simp only [List.foldl_cons, List.length_cons]
      omega
  have := hfold (c.newBad p d s bad) c
  have := newBad_length c p d s bad
  unfold Core.exclude
  dsimp only [Core.wr_led]
  omega

/-- A ledger far from full has room for every lane of a strand. -/
theorem laneRoom_of_le {c : Core} (h : c.led.entries.length ≤ 65463) (p d s bad : Nat) : c.laneRoom p d s bad = true := by
  have := newBad_length c p d s bad
  exact decide_eq_true (by omega)

/-! ## One direction -/

/-- A direction trains to FULL or HALF, or is RETIRED. -/
theorem trainState_mem (c : Core) (p d s : Nat) (o : DirObs) : c.trainState p d s o ∈ [2, 3, 4] := by
  unfold Core.trainState
  dsimp only
  generalize (if p < 4 then 3400 else 280) = slowest
  split
  · simp
  · split <;> simp

/-- What a direction trains to rests on its lanes excluded, the width asked for, and the ledger's room. -/
theorem trainState_congr {c e : Core} {p d s : Nat} (hx : e.excluded p d s = c.excluded p d s)
    (hw : (e.link p s).want = (c.link p s).want) (hc : c.led.entries.length ≤ 65463) (he : e.led.entries.length ≤ 65463) (o : DirObs) :
    e.trainState p d s o = c.trainState p d s o := by
  have hbad : e.badAfter p d s o = c.badAfter p d s o := by unfold Core.badAfter; rw [hx]
  unfold Core.trainState
  dsimp only
  rw [hbad, hw, laneRoom_of_le hc, laneRoom_of_le he]

/-- A field that stands in neither of a strand's two registers. -/
def outsideStrand (p d s : Nat) (f : Fld) : Prop := f.off ≠ (R.PRT_STRAND_SSTATE p d s).off ∧ f.off ≠ (R.PRT_LANEBAD_BADLO p d s).off

theorem outsideStrand.apart {p d s : Nat} {f : Fld} (h : outsideStrand p d s f) : (R.PRT_STRAND_SSTATE p d s).apart f = true := by
  simp [Fld.apart, Ne.symm h.1]

/-- A field of another register than the one written. -/
theorem rd_wr_off (c : Core) {f g : Fld} (v : Nat) (h : f.off ≠ g.off) : (c.wr g v).rd f = c.rd f := by
  unfold Core.rd
  rw [cword_wr_apart c g v _ h]

/-- A direction after its lane test: its lanes excluded, its attempts and its rate noted. -/
def Core.laneTested (c : Core) (p d s : Nat) (o : DirObs) : Core :=
  ((c.exclude p d s (c.badAfter p d s o)).bump (R.PRT_STRAND_ATTEMPTS p d s) (max 1 (min o.attempts 3))).wr (R.PRT_STRAND_RATE p d s)
    (min o.rate 8191)

/-- A direction in the state it trained to, where that is not RETIRED. -/
def Core.dirTrained (c : Core) (p d s v : Nat) (lanes : List Nat) : Core :=
  ((c.wr (R.PRT_STRAND_SPARES p d s) lanes.length).setSst p d s v).noteWidth p d s v lanes

theorem trainDir_eq {c : Core} {p d s : Nat} (h : c.sst p d s ≠ 4) (o : DirObs) : c.trainDir p d s o =
    if c.trainState p d s o = 4 then
      if d = 1 then (c.laneTested p d s o).retireInbound p s else (c.laneTested p d s o).retireStrand p 0 s
    else (c.laneTested p d s o).dirTrained p d s (c.trainState p d s o) (spareLanes (c.badAfter p d s o) (c.trainState p d s o)) :=
  if_neg h

/-- What a change of width notes beside the link's record leaves the ports; it makes at most one entry. -/
theorem noteWidth_spec (c : Core) (p d s v : Nat) (lanes : List Nat) :
    PortsKept (c.putLink p s { c.link p s with was := (c.link p s).was.set d (v, lanes) }) (c.noteWidth p d s v lanes)
      ∧ (c.noteWidth p d s v lanes).led.entries.length ≤ c.led.entries.length + 1 := by
  have hspare (e : Core) (b : Bool) : PortsKept e (if b then e else e.spareUsed (strandUnit p d s))
      ∧ (if b then e else e.spareUsed (strandUnit p d s)).led = e.led := by
    cases b
    · exact ⟨corrected_ports _ _ _ _ _, rfl⟩
    · exact ⟨.refl e, rfl⟩
  unfold Core.noteWidth
  dsimp only
  generalize hput : c.putLink p s { c.link p s with was := (c.link p s).was.set d (v, lanes) } = e
  have hled : e.led = c.led := by rw [← hput]; rfl
  obtain ⟨hkept, hsame⟩ := hspare e (lanes.all ((c.link p s).was.getD d (0, [])).2.contains)
  generalize (if lanes.all ((c.link p s).was.getD d (0, [])).2.contains = true then e else e.spareUsed (strandUnit p d s)) = g
    at hkept hsame ⊢
  split
  · exact ⟨hkept, by rw [hsame, hled]; exact Nat.le_succ _⟩
  · refine ⟨hkept.trans ((ledgerAdd_ports _ _).trans (corrected_ports _ _ _ _ _)), ?_⟩
    rw [wear_led, ← hled, ← hsame]
    exact ledgerAdd_length g _

theorem noteWidth_rd {f : Fld} (hf : portPage f.off) (c : Core) (p d s v : Nat) (lanes : List Nat) :
    (c.noteWidth p d s v lanes).rd f = c.rd f := (noteWidth_spec c p d s v lanes).1.rd hf

theorem retireInbound_rd {p : Nat} {f : Fld} (hf : portPage f.off) (ho : outsideState p f) (c : Core) {s : Nat}
    (ha : (R.PRT_STRAND_SSTATE p 1 s).apart f = true) : (c.retireInbound p s).rd f = c.rd f := by
  unfold Core.retireInbound
  rw [retireStrand_rd hf ho _ ha, rd_congr (sendLctl_sendOnly _ _).creg, rd_congr (sendDedup_sendOnly c p s).creg]

section
variable {p d s : Nat} {f : Fld}

theorem laneTested_rd (h : outsideStrand p d s f) (c : Core) (o : DirObs) : (c.laneTested p d s o).rd f = c.rd f := by
  obtain ⟨hstrand, hlanes⟩ := h
  unfold Core.laneTested Core.exclude Core.bump
  dsimp only
  rw [rd_wr_off _ (g := R.PRT_STRAND_RATE p d s) _ hstrand, rd_wr_off _ (g := R.PRT_STRAND_ATTEMPTS p d s) _ hstrand,
    rd_wr_off _ (g := R.PRT_STRAND_BADHI p d s) _ hstrand, rd_wr_off _ _ hlanes]
  exact rd_congr (foldl_same (g := Core.creg) (fun c _ => ledgerAdd_creg c _) _ c) f

/-- Training one direction writes its two registers and its port's state. -/
theorem trainDir_rd (hf : portPage f.off) (ho : outsideState p f) (hd : d < 2) (h : outsideStrand p d s f) (c : Core) (o : DirObs) :
    (c.trainDir p d s o).rd f = c.rd f := by
  by_cases h4 : c.sst p d s = 4
  · unfold Core.trainDir
    rw [if_pos h4]
  · rw [trainDir_eq h4]
    have htest := laneTested_rd h c o
    split
    · split
      · next h1 => subst h1; rw [retireInbound_rd hf ho _ h.apart, htest]
      · obtain rfl : d = 0 := by omega
        rw [retireStrand_rd hf ho _ h.apart, htest]
    · unfold Core.dirTrained
      rw [noteWidth_rd hf, setSst_rd ho _ _ h.apart, rd_wr_off _ (g := R.PRT_STRAND_SPARES p d s) _ h.1, htest]

/-- A direction that is not RETIRED is in the state it trains to. -/
theorem sst_trainDir {c : Core} (hp : p < 6) (hd : d < 2) (hs : s < nStrands p) (h4 : c.sst p d s ≠ 4) (o : DirObs) :
    (c.trainDir p d s o).sst p d s = c.trainState p d s o := by
  have hmem := trainState_mem c p d s o
  rw [trainDir_eq h4]
  split
  · next hv =>
    rw [hv]
    split
    · next h1 => subst h1; exact sst_retireStrand _ hp hd hs
    · obtain rfl : d = 0 := by omega
      exact sst_retireStrand _ hp hd hs
  · refine (noteWidth_rd (sstate_page hp hd hs) _ p d s _ _).trans (sst_setSst_self _ hp d s _ ?_)
    simp only [List.mem_cons, List.not_mem_nil, or_false] at hmem
    omega

end

theorem laneTested_ports (c : Core) (p d s : Nat) (o : DirObs) : (c.laneTested p d s o).ports = c.ports := by
  unfold Core.laneTested Core.exclude
  dsimp only [Core.wr_ports, Core.bump_ports]
  exact foldl_same (g := Core.ports) (fun c _ => (ledgerAdd_ports c _).ports) _ c

theorem laneTested_length (c : Core) (p d s : Nat) (o : DirObs) :
    (c.laneTested p d s o).led.entries.length ≤ c.led.entries.length + 72 := by
  unfold Core.laneTested
  dsimp only [Core.wr_led, Core.bump_led]
  exact exclude_length c p d s _

theorem link_congr {c d : Core} (h : d.ports = c.ports) (p s : Nat) : d.link p s = c.link p s := by unfold Core.link; rw [h]

/-- A retirement leaves the links' records, and makes at most one entry. -/
theorem retireStrand_out (c : Core) (p d s : Nat) : (c.retireStrand p d s).ports = c.ports
    ∧ (c.retireStrand p d s).led.entries.length ≤ c.led.entries.length + 1 := by
  by_cases h : c.sst p d s = 4
  · unfold Core.retireStrand
    rw [if_pos h]
    exact ⟨rfl, Nat.le_succ _⟩
  · refine ⟨(retireStrand_retires h).ports, ?_⟩
    unfold Core.retireStrand
    rw [if_neg h]
    exact ledgerAdd_length (c.setSst p d s 4) ⟨7, strandUnit p d s, 2, 0⟩

/-- A direction's state leaves the widths its link asks for, and makes at most one entry. -/
theorem dirTrained_out (c : Core) (p d s v : Nat) (lanes : List Nat) :
    ((c.dirTrained p d s v lanes).link p s).want = (c.link p s).want
      ∧ (c.dirTrained p d s v lanes).led.entries.length ≤ c.led.entries.length + 1 := by
  unfold Core.dirTrained
  generalize hset : (c.wr (R.PRT_STRAND_SPARES p d s) lanes.length).setSst p d s v = e
  have hlink : e.link p s = c.link p s := by rw [← hset]; rfl
  have hled : e.led = c.led := by rw [← hset]; rfl
  obtain ⟨hkept, hlen⟩ := noteWidth_spec e p d s v lanes
  refine ⟨?_, by rwa [hled] at hlen⟩
  rw [link_congr hkept.ports, link_putLink_self, ← hlink]

/-- Training the outbound direction leaves the widths its link asks for, and adds at most 73 entries to the ledger. -/
theorem trainDir_out (c : Core) (p s : Nat) (o : DirObs) : ((c.trainDir p 0 s o).link p s).want = (c.link p s).want
    ∧ (c.trainDir p 0 s o).led.entries.length ≤ c.led.entries.length + 73 := by
  by_cases h4 : c.sst p 0 s = 4
  · unfold Core.trainDir
    rw [if_pos h4]
    exact ⟨rfl, by omega⟩
  · have hlink := link_congr (laneTested_ports c p 0 s o) p s
    have hlen := laneTested_length c p 0 s o
    rw [trainDir_eq h4]
    split
    · rw [if_neg (by decide)]
      obtain ⟨hports, hone⟩ := retireStrand_out (c.laneTested p 0 s o) p 0 s
      exact ⟨by rw [link_congr hports, hlink], by omega⟩
    · obtain ⟨hwant, hone⟩ := dirTrained_out (c.laneTested p 0 s o) p 0 s (c.trainState p 0 s o)
        (spareLanes (c.badAfter p 0 s o) (c.trainState p 0 s o))
      exact ⟨by rw [hwant, hlink], by omega⟩

/-! ## A link -/

/-- A link before its directions are settled: the results told, the partner's descriptor recorded. -/
def Core.toldLink (c : Core) (p s : Nat) (o : TrainObs) : Core :=
  (c.putLink p s { c.link p s with told := resultsMessage o.inDir.good c.ownDesc }).wr (R.PRT_PARTNER_DESC p) o.desc

/-- A link whose directions are settled takes up its credits, and what it holds is due again. -/
def Core.linkReady (c : Core) (p s : Nat) (o : TrainObs) : Core :=
  let c := c.putLink p s { c.link p s with
    credits := (List.range 4).map (fun i => bits o.desc (32 + 8 * i) 8), lastIn := c.now, lastOut := c.now, want := [1, 1] }
  let f := fun (h : Held) => if h.port = p ∧ h.strand = some s then { h with again := true } else h
  Core.pump { c with ports := { c.ports with held := c.ports.held.map f } } p

theorem linkReady_creg (c : Core) (p s : Nat) (o : TrainObs) : (c.linkReady p s o).creg = c.creg := pump_creg _ p

theorem trainLink_eq (c : Core) (p s : Nat) (o : TrainObs) : c.trainLink p s o =
    if descCause p o.desc ≠ 0 then
      (((c.toldLink p s o).wr (R.PRT_STATE_CAUSE p) (descCause p o.desc)).retireStrand p 0 s).retireInbound p s
    else (((c.toldLink p s o).trainDir p 0 s o.outDir).trainDir p 1 s o.inDir).linkReady p s o := rfl

theorem toldLink_rd {p : Nat} {f : Fld} (h : f.off ≠ (R.PRT_PARTNER_DESC p).off) (c : Core) (s : Nat) (o : TrainObs) :
    (c.toldLink p s o).rd f = c.rd f := rd_wr_off _ _ h

theorem toldLink_led (c : Core) (p s : Nat) (o : TrainObs) : (c.toldLink p s o).led = c.led := by
  unfold Core.toldLink
  rw [Core.wr_led]
  rfl

theorem toldLink_want (c : Core) (p s : Nat) (o : TrainObs) : ((c.toldLink p s o).link p s).want = (c.link p s).want := by
  unfold Core.toldLink
  rw [link_congr (Core.wr_ports _ _ _), link_putLink_self]

theorem partner_off_ne {p : Nat} {f : Fld} (hp : p < 6) (hf : 0x31000 ≤ f.off) : f.off ≠ (R.PRT_PARTNER_DESC p).off := by
  simp only [R.PRT_PARTNER_DESC]; omega

/-- Training a link writes its strands' registers, the partner's descriptor, and its port's state. -/
theorem trainLink_rd {p s : Nat} {f : Fld} (hf : portPage f.off) (ho : outsideState p f) (h : ∀ d < 2, outsideStrand p d s f)
    (hp : f.off ≠ (R.PRT_PARTNER_DESC p).off) (c : Core) (o : TrainObs) : (c.trainLink p s o).rd f = c.rd f := by
  rw [trainLink_eq]
  split
  · rw [retireInbound_rd hf ho _ (h 1 (by decide)).apart, retireStrand_rd hf ho _ (h 0 (by decide)).apart, rd_wr_cause ho,
      toldLink_rd hp]
  · rw [rd_congr (linkReady_creg _ p s o), trainDir_rd hf ho (by decide) (h 1 (by decide)), trainDir_rd hf ho (by decide) (h 0 (by decide)),
      toldLink_rd hp]

/-- The registers of one direction of a strand are outside those of the other. -/
theorem outsideStrand_cross {p d d' s : Nat} {f : Fld} (hs : s < nStrands p) (hne : d ≠ d')
    (hf : f.off = (R.PRT_STRAND_SSTATE p d' s).off ∨ f.off = (R.PRT_LANEBAD_BADLO p d' s).off) : outsideStrand p d s f := by
  have := strand_lt hs
  simp only [R.PRT_STRAND_SSTATE, R.PRT_LANEBAD_BADLO] at hf
  simp only [outsideStrand, R.PRT_STRAND_SSTATE, R.PRT_LANEBAD_BADLO]
  omega

section
variable {c : Core} {p s : Nat} (hp : p < 6) (hs : s < nStrands p)
include hp hs

/-- Training the outbound direction leaves the inbound one's state and lanes. -/
theorem trainDir_out_inbound (o : DirObs) : (c.trainDir p 0 s o).sst p 1 s = c.sst p 1 s
    ∧ (c.trainDir p 0 s o).excluded p 1 s = c.excluded p 1 s := by
  have hkept {f : Fld} (hf : f.off = (R.PRT_STRAND_SSTATE p 1 s).off ∨ f.off = (R.PRT_LANEBAD_BADLO p 1 s).off) :
      (c.trainDir p 0 s o).rd f = c.rd f := by
    have hout := outsideStrand_cross (d := 0) hs (by decide) hf
    have := nStrands_le p
    simp only [R.PRT_STRAND_SSTATE, R.PRT_LANEBAD_BADLO] at hf
    exact trainDir_rd (by unfold portPage; omega) (outsideState_of_ge hp (by omega)) (by decide) hout c o
  unfold Core.excluded
  rw [hkept (f := R.PRT_LANEBAD_BADLO p 1 s) (.inr rfl), hkept (f := R.PRT_STRAND_BADHI p 1 s) (.inl rfl)]
  exact ⟨hkept (.inl rfl), rfl⟩

/-- A link whose partner passes the test is in the state each direction trains to. -/
theorem sst_trainLink (h0 : c.sst p 0 s ≠ 4) (h1 : c.sst p 1 s ≠ 4) (hlen : c.led.entries.length ≤ 65000) {o : TrainObs}
    (hd : descCause p o.desc = 0) : (c.trainLink p s o).sst p 0 s = c.trainState p 0 s o.outDir
      ∧ (c.trainLink p s o).sst p 1 s = c.trainState p 1 s o.inDir := by
  have htold (f : Fld) (hf : 0x31000 ≤ f.off) : (c.toldLink p s o).rd f = c.rd f := toldLink_rd (partner_off_ne hp hf) c s o
  have hsst (d : Nat) : (c.toldLink p s o).sst p d s = c.sst p d s := htold _ (sstate_off_ge p d s)
  have hexcl (d : Nat) : (c.toldLink p s o).excluded p d s = c.excluded p d s := by
    unfold Core.excluded
    rw [htold _ (by simp only [R.PRT_LANEBAD_BADLO]; omega), htold _ (by simp only [R.PRT_STRAND_BADHI]; omega)]
  have hwant : ((c.toldLink p s o).link p s).want = (c.link p s).want := toldLink_want c p s o
  have hled := toldLink_led c p s o
  obtain ⟨hsst1, hexcl1⟩ := trainDir_out_inbound (c := c.toldLink p s o) hp hs o.outDir
  obtain ⟨hwant1, hlen1⟩ := trainDir_out (c.toldLink p s o) p s o.outDir
  rw [trainLink_eq, if_neg (not_not.mpr hd)]
  refine ⟨?_, ?_⟩
  · rw [sst_congr (linkReady_creg _ p s o)]
    refine (trainDir_rd (f := R.PRT_STRAND_SSTATE p 0 s) (sstate_page hp (by decide) hs) (outsideState_of_ge hp (sstate_off_ge p 0 s))
      (by decide) (outsideStrand_cross hs (by decide) (.inl rfl)) _ _).trans ?_
    refine (sst_trainDir hp (by decide) hs (by rwa [hsst]) _).trans ?_
    exact trainState_congr (hexcl 0) hwant (by omega) (by rw [hled]; omega) _
  · rw [sst_congr (linkReady_creg _ p s o), sst_trainDir hp (by decide) hs (by rwa [hsst1, hsst])]
    exact trainState_congr (hexcl1.trans (hexcl 1)) (hwant1.trans hwant) (by omega) (by rw [hled] at hlen1; omega) _

/-- A link whose partner fails the test is RETIRED in both directions. -/
theorem sst_trainLink_retired {o : TrainObs} (hd : descCause p o.desc ≠ 0) :
    (c.trainLink p s o).sst p 0 s = 4 ∧ (c.trainLink p s o).sst p 1 s = 4 := by
  rw [trainLink_eq, if_pos hd]
  refine ⟨?_, sst_retireStrand _ hp (by decide) hs⟩
  refine (retireInbound_rd (sstate_page hp (by decide) hs) (outsideState_of_ge hp (sstate_off_ge p 0 s)) _
    (sstate_apart (by decide) (by decide) (strand_lt hs) (strand_lt hs) (.inr (.inl (by decide))))).trans ?_
  exact sst_retireStrand _ hp (by decide) hs

end

end Sys2Proof.Machine
end

section
/-! Training's rows, and links lost and found (R255, R257, R261). -/

namespace Sys2Proof.Machine

/-- A link whose directions are usable or RETIRED keeps their states through a check of its port: with one usable no strand returns to
training, and a RETIRED one never does. -/
theorem sst_settled {c d : Core} {p s : Nat} (hp : p < 6) (hs : s < nStrands p) (h0 : c.sst p 0 s ∈ [2, 3, 4])
    (h1 : c.sst p 1 s ∈ [2, 3, 4]) (hcheck : CheckOnly p c d)
    (hstatus : c.anyStrand p 0 [1, 2, 3] = true ∨ c.anyStrand p 1 [1, 2, 3] = true → StatusOnly p c d) :
    d.sst p 0 s = c.sst p 0 s ∧ d.sst p 1 s = c.sst p 1 s := by
  have hstays (h : c.anyStrand p 0 [1, 2, 3] = true ∨ c.anyStrand p 1 [1, 2, 3] = true) :
      d.sst p 0 s = c.sst p 0 s ∧ d.sst p 1 s = c.sst p 1 s :=
    ⟨(hstatus h).sst hp (by decide) hs, (hstatus h).sst hp (by decide) hs⟩
  have hretired {e : Nat} (he : e < 2) (h : c.sst p e s = 4) : d.sst p e s = c.sst p e s :=
    hcheck.sst_same he hs (by rw [h]; decide)
  have hactive {e : Nat} (hmem : c.sst p e s ∈ [2, 3, 4]) (h : c.sst p e s ≠ 4) : c.anyStrand p e [1, 2, 3] = true := by
    refine anyStrand_iff.mpr ⟨s, hs, ?_⟩
    simp only [List.mem_cons, List.not_mem_nil, or_false] at hmem ⊢
    omega
  by_cases hr0 : c.sst p 0 s = 4
  · by_cases hr1 : c.sst p 1 s = 4
    · exact ⟨hretired (by decide) hr0, hretired (by decide) hr1⟩
    · exact hstays (.inr (hactive h1 hr1))
  · exact hstays (.inl (hactive h0 hr0))

section
variable {s : State} {p l : Nat} (hl : s.live = true) (hs : isStrand p l = true)
include hl hs

/-- LINK_TRAINING of a link in training leaves its states as training makes them, for either check of the port that follows. -/
theorem linkTraining_completes (o : TrainObs) {v0 v1 : Nat} (h0 : s.mach.core.sst p 0 l = 1)
    (hopen : s.mach.core.linkOpen p l = true) (hv0 : v0 ∈ [2, 3, 4]) (hv1 : v1 ∈ [2, 3, 4])
    (hv : (s.mach.core.trainLink p l o).sst p 0 l = v0 ∧ (s.mach.core.trainLink p l o).sst p 1 l = v1) :
    Completes (.linkTraining p l o) s (fun s' => MemKept s s' ∧ OutsideKept s s' ∧ s'.mach.core.sst p 0 l = v0
      ∧ s'.mach.core.sst p 1 l = v1) := by
  obtain ⟨hp, hn⟩ := isStrand_iff.mp hs
  obtain ⟨rfl, rfl⟩ := hv
  refine completes_strand rfl hl hs fun t hm ho ht => ⟨hm, ho, ?_⟩
  dsimp only at ht
  rw [if_pos ⟨.inl h0, hopen⟩] at ht
  rw [ht]
  split
  · exact sst_settled hp hn hv0 hv1 (checkPort_check _ hp) checkPort_status
  · exact sst_settled hp hn hv0 hv1 (checkRetired_check _ hp) checkRetired_status

theorem partnerTimeout_completes (h0 : s.mach.core.sst p 0 l = 1)
    (htime : 1000000 ≤ s.mach.core.now - (s.mach.core.link p l).since) :
    Completes (.partnerTimeout p l) s (fun s' => MemKept s s' ∧ s'.mach.core.sst p 0 l = 0
      ∧ s'.mach.core.sst p 1 l = if s.mach.core.sst p 1 l = 4 then 4 else 0) := by
  obtain ⟨hp, hn⟩ := isStrand_iff.mp hs
  refine completes_strand rfl hl hs fun t hm _ ht => ⟨hm, ?_⟩
  rw [if_pos ⟨.inl (by rw [h0]; decide), htime⟩] at ht
  have hcheck := checkPort_check (s.mach.core.setLink p l 0) hp
  have hset {e : Nat} (he : e < 2) := sst_setLink s.mach.core (v := 0) hp he hn (by decide)
  have hout : (s.mach.core.setLink p l 0).sst p 0 l = 0 := by rw [hset (by decide), h0]; rfl
  have hin : (s.mach.core.setLink p l 0).sst p 1 l = if s.mach.core.sst p 1 l = 4 then 4 else 0 := hset (by decide)
  rw [ht, hcheck.sst_same (by decide) hn (by rw [hout]; decide), hout,
    hcheck.sst_same (by decide) hn (by rw [hin]; split <;> decide), hin]
  exact ⟨rfl, rfl⟩

theorem partnerPresent_completes (h0 : s.mach.core.sst p 0 l = 0 ∨ s.mach.core.sst p 0 l = 5)
    (hopen : s.mach.core.linkOpen p l = true) (hst : s.mach.core.rd (R.PRT_STATE_STATE p) ≠ 0) :
    Completes (.partnerPresent p l) s (fun s' => MemKept s s' ∧ s'.mach.core.sst p 0 l = 1
      ∧ s'.mach.core.sst p 1 l = if s.mach.core.sst p 1 l = 4 then 4 else 1) := by
  obtain ⟨hp, hn⟩ := isStrand_iff.mp hs
  refine completes_strand rfl hl hs fun t hm _ ht => ⟨hm, ?_⟩
  dsimp only at ht
  rw [if_pos ⟨.inl (by simpa using h0), hopen, hst⟩] at ht
  have hset {e : Nat} (he : e < 2) := sst_setLink s.mach.core (v := 1) hp he hn (by decide)
  have hsst {e : Nat} (he : e < 2) : t.mach.core.sst p e l = (s.mach.core.setLink p l 1).sst p e l := by
    rw [ht]
    split
    · exact (StatusOnly.state p _ 1).sst hp he hn
    · rfl
  rw [hsst (by decide), hsst (by decide), hset (by decide), hset (by decide), if_neg (by omega)]
  exact ⟨rfl, rfl⟩

theorem strandLost_completes {silent : Bool} (hu : s.mach.core.usable p 0 l = true)
    (hwhy : silent = true ∨ s.mach.core.rd R.PRT_TIMERS_STRTMO ≤ s.mach.core.now - (s.mach.core.link p l).lastIn) :
    Completes (.strandLost p l silent) s (fun s' => MemKept s s' ∧ (s'.mach.core.sst p 0 l = 5 ∨ s'.mach.core.sst p 0 l = 1)
      ∧ (s.mach.core.sst p 1 l = 4 → s'.mach.core.sst p 1 l = 4)) := by
  obtain ⟨hp, hn⟩ := isStrand_iff.mp hs
  refine completes_strand rfl hl hs fun t hm _ ht => ⟨hm, ?_⟩
  rw [if_pos ⟨.inl hu, hwhy⟩] at ht
  have hcheck := checkPort_check (s.mach.core.setLink p l 5) hp
  have hset {e : Nat} (he : e < 2) := sst_setLink s.mach.core (v := 5) hp he hn (by decide)
  have hout : (s.mach.core.setLink p l 5).sst p 0 l = 5 := by
    rw [hset (by decide), if_neg]
    obtain h | h := usable_iff.mp hu <;> rw [h] <;> decide
  rw [ht]
  refine ⟨?_, fun h4 => ?_⟩
  · obtain h | ⟨h, -⟩ := hcheck.sst 0 (by decide) l hn
    · exact .inl (h.trans hout)
    · exact .inr h
  · have hin : (s.mach.core.setLink p l 5).sst p 1 l = 4 := by rw [hset (by decide), if_pos h4]
    rw [hcheck.sst_same (by decide) hn (by rw [hin]; decide), hin]

end

/-- Settles O23: the states of a link after training, and after each row that loses or finds its partner. -/
theorem linksTrainAndSettle : Obligations.LinksTrainAndSettle := by
  unfold Obligations.LinksTrainAndSettle
  refine ⟨fun s p l o hl hs => ?trained, fun s p l silent hl hs => ⟨fun h0 _ => partnerTimeout_completes hl hs h0, partnerPresent_completes hl hs,
    strandLost_completes hl hs⟩⟩
  intro c h0 h1 hopen hlen
  obtain ⟨hp, hn⟩ := isStrand_iff.mp hs
  have hlink {v0 v1 : Nat} := linkTraining_completes hl hs o (v0 := v0) (v1 := v1) h0 hopen
  exact ⟨fun hd => hlink (trainState_mem _ _ _ _ _) (trainState_mem _ _ _ _ _)
      (sst_trainLink hp hn (by omega) (by omega) hlen hd),
    fun hd => hlink (by decide) (by decide) (sst_trainLink_retired hp hn hd)⟩

end Sys2Proof.Machine
end

section
/-! The link messages (R252, R258, R259, R261; the row names port and strand, log entry 24), and the loss of a port. -/

namespace Sys2Proof.Machine

/-! ## A hub partner counted ABSENT -/

theorem linkAgain_absent (c : Core) (p s : Nat) : (c.linkAgain p s).ports.absent = c.ports.absent := by
  have hdir (c : Core) (d : Nat) : (c.trainAgain p d s).ports = c.ports := by
    unfold Core.trainAgain
    split <;> rfl
  unfold Core.linkAgain
  rw [hdir, hdir]
  rfl

theorem backToTraining_absent (c : Core) (p : Nat) : (c.backToTraining p).ports.absent = c.ports.absent := by
  rw [backToTraining_eq]
  exact foldl_same (g := fun c : Core => c.ports.absent) (fun c s => linkAgain_absent c p s) _ c

theorem hubLost_absent (c : Core) (p : Nat) : (c.hubLost p).ports.absent = c.ports.absent := by
  obtain ⟨-, w, hw⟩ := hubLost_keeps c p
  rw [hw]

/-- Noted among those ABSENT, a hub port stands in the list. -/
theorem noteAbsent_mem (c : Core) {p : Nat} (hp : p < 4) : p ∈ (c.noteAbsent (!c.ports.absent.contains p) p).ports.absent := by
  unfold Core.noteAbsent
  cases hnew : c.ports.absent.contains p
  · rw [if_pos (by simp [hp]), hubLost_absent]
    simp
  · simpa using hnew

/-- A hub port whose partner is counted ABSENT stands in the list of such ports, and none of its strands is usable. -/
theorem countAbsent_hub (c : Core) {p : Nat} (hp : p < 4) : p ∈ (c.countAbsent p).ports.absent ∧ (c.countAbsent p).bothWays p = false := by
  have hring : c.ringOut p = false := by simp [Core.ringOut]; omega
  have heq : c.countAbsent p = ((c.backToTraining p).wr (R.PRT_STATE_STATE p) 1).noteAbsent (!c.ports.absent.contains p) p := by
    unfold Core.countAbsent
    rw [hring, if_neg (by decide)]
  refine ⟨?_, Bool.eq_false_iff.mpr fun hboth => ?_⟩
  · have habsent : ((c.backToTraining p).wr (R.PRT_STATE_STATE p) 1).ports.absent = c.ports.absent := backToTraining_absent c p
    rw [heq, ← habsent]
    exact noteAbsent_mem _ hp
  · obtain ⟨⟨s, hs, hmem⟩, -⟩ := bothWays_iff.mp hboth
    have hstatus := (StatusOnly.state p (c.backToTraining p) 1).trans (noteAbsent_status _ (!c.ports.absent.contains p) p)
    rw [heq, hstatus.sst (by omega) (by decide) hs] at hmem
    exact sst_backToTraining c (e := 0) (by omega) (by decide) hs (by revert hmem; simp; omega)

/-- Counted ABSENT, a hub port stays in the list: without usable strands it is not opened. -/
theorem partnerAbsent_absent (c : Core) {p : Nat} (hp : p < 4) : p ∈ (c.partnerAbsent p).ports.absent := by
  obtain ⟨hmem, hboth⟩ := countAbsent_hub c hp
  rw [partnerAbsent_eq]
  obtain h | ⟨h, -⟩ | ⟨cause, h⟩ := settlePort_cases (c.countAbsent p) p
  · rwa [h]
  · exact absurd h (by simp [hboth])
  · rw [h, failPort_known (.inr hmem)]
    exact hmem

/-- Each member of the second of two related lists is related to one of the first. -/
theorem exists_mem_of_forall₂ {α β : Type} {R : α → β → Prop} {l : List α} {l' : List β} (h : List.Forall₂ R l l') {y : β}
    (hy : y ∈ l') : ∃ x ∈ l, R x y := by
  obtain ⟨i, hi, rfl⟩ := List.getElem_of_mem hy
  have hi' := h.length_eq ▸ hi
  exact ⟨l[i], List.getElem_mem hi', h.get hi' hi⟩

/-- What a hub port holds is gone once it is lost; the list of ABSENT ports stands. -/
theorem completeHeld_spec (c : Core) {p : Nat} (hp : p < 4) :
    (∀ h ∈ (c.completeHeld p).ports.held, h.port ≠ p) ∧ (c.completeHeld p).ports.absent = c.ports.absent := by
  unfold Core.completeHeld
  rw [if_neg (by omega)]
  dsimp only
  rw [(PortsKept.foldl _ (fun d h _ => ?_) _).ports]
  · exact ⟨fun h hh => of_decide_eq_true (List.mem_filter.mp hh).2, rfl⟩
  · split
    · exact .of_netOnly (answer_spec d _ _ _)
    · exact .refl d

/-! ## The rows -/

/-- A row that names a port completes with its effect on control state. -/
theorem completes_port {i : Instr} {s : State} {p : Nat} {f : Core → Core} {P : State → Prop}
    (hi : exec i s = onlyIf (decide (p < 6)) (s.onCore f)) (hl : s.live = true) (hp : p < 6)
    (h : ∀ t, MemKept s t → t.mach.core = f s.mach.core → P t) : Completes i s P :=
  completes_onCore (hi.trans (by rw [decide_eq_true hp, onlyIf_true])) hl fun t hm _ ht => h t hm ht

/-- Taking a message changes the list of those waiting. -/
theorem takeLctl_eq {c c' : Core} {p t : Nat} {m : Lctl} (h : c.takeLctl p t = some (m, c')) :
    c' = { c with ports := { c.ports with lctl := c.ports.lctl.erase m } } := by
  obtain ⟨x, -, hx⟩ := Option.map_eq_some_iff.mp h
  obtain ⟨rfl, rfl⟩ := Prod.mk.inj hx
  rfl

theorem takeLctl_creg {c c' : Core} {p t : Nat} {m : Lctl} (h : c.takeLctl p t = some (m, c')) : c'.creg = c.creg := by
  rw [takeLctl_eq h]

section
variable {s : State} {p : Nat} {m : Lctl} {c' : Core} (hl : s.live = true)
include hl

theorem absentNotice_completes (hp : p < 4) (hm : s.mach.core.takeLctl p 1 = some (m, c')) :
    Completes (.absentNotice p) s (fun s' => MemKept s s' ∧ p ∈ s'.mach.core.ports.absent
      ∧ ∀ h ∈ s'.mach.core.ports.held, h.port ≠ p) := by
  refine completes_port rfl hl (by omega) fun t hmem ht => ⟨hmem, ?_⟩
  rw [hm] at ht
  obtain ⟨hheld, habsent⟩ := completeHeld_spec (c'.partnerAbsent p) hp
  rw [ht]
  exact ⟨by rw [habsent]; exact partnerAbsent_absent c' hp, hheld⟩

theorem portLoss_completes (hp : p < 4) (ha : p ∈ s.mach.core.ports.absent)
    (htime : s.mach.core.rd R.PRT_TIMERS_LOSSTMO ≤ s.mach.core.now - SMap.get 0 s.mach.core.ports.lastFrame p) :
    Completes (.portLoss p) s (fun s' => MemKept s s' ∧ ∀ h ∈ s'.mach.core.ports.held, h.port ≠ p) := by
  refine completes_port rfl hl (by omega) fun t hmem ht => ⟨hmem, ?_⟩
  rw [if_pos ⟨List.contains_iff_mem.mpr ha, htime⟩] at ht
  rw [ht]
  exact (completeHeld_spec _ hp).1

variable (hp : p < 6)
include hp

theorem retrain_completes (hm : s.mach.core.takeLctl p 2 = some (m, c')) (hlink : m.link < nStrands p)
    (h0 : s.mach.core.sst p 0 m.link ≠ 1) (h1 : s.mach.core.sst p 1 m.link ≠ 1) (h4 : s.mach.core.sst p (1 - m.dir) m.link ≠ 4) :
    Completes (.retrain p) s (fun s' => MemKept s s' ∧ s'.mach.core.sst p (1 - m.dir) m.link = 1) := by
  refine completes_port rfl hl hp fun t hmem ht => ⟨hmem, ?_⟩
  have hsst (d : Nat) := sst_congr (takeLctl_creg hm) p d m.link
  rw [hm] at ht
  dsimp only at ht
  rw [hsst, hsst, hsst, if_neg (by omega)] at ht
  rw [ht, sst_retrain _ hp (by omega) hlink, hsst, if_neg h4]

theorem retire_completes (hm : s.mach.core.takeLctl p 3 = some (m, c')) (hlink : m.link < nStrands p)
    (h1 : s.mach.core.sst p (1 - m.dir) m.link ≠ 1) :
    Completes (.retire p) s (fun s' => MemKept s s' ∧ s'.mach.core.sst p (1 - m.dir) m.link = 4) := by
  refine completes_port rfl hl hp fun t hmem ht => ⟨hmem, ?_⟩
  have hchecked {d : Nat} (hd : d < 2) {e : Core} (he : e.sst p d m.link = 4) : (e.checkRetired p).sst p d m.link = 4 := by
    rw [(checkRetired_check e hp).sst_same hd hlink (by rw [he]; decide), he]
  rw [hm] at ht
  dsimp only at ht
  rw [sst_congr (takeLctl_creg hm), if_neg (by omega)] at ht
  rw [ht]
  split
  · next hd =>
    rw [hd]
    refine hchecked (by decide) ?_
    rw [sst_congr (reissueFrom_sendOnly _ p m.link).creg]
    exact sst_retireStrand _ hp (by decide) hlink
  · next hd =>
    obtain hd : 1 - m.dir = 1 := by omega
    rw [hd]
    exact hchecked (by decide) (sst_retireStrand _ hp (by decide) hlink)

/-- What DEDUP leaves held: all but the packets it lists. -/
def Core.dropListed (c : Core) (p : Nat) (m : Lctl) : List Held :=
  c.ports.held.filter (fun h => !(decide (h.port = p) && decide (h.strand = some m.link) && m.entries.contains h.lseq))

/-- DEDUP, up to its list's end on a retired strand. -/
theorem dedup_completes (hm : s.mach.core.takeLctl p 4 = some (m, c')) {P : State → Prop}
    (h : ∀ (t : State) (d : Core), MemKept s t → d.creg = s.mach.core.creg → d.ports.held = s.mach.core.dropListed p m →
      t.mach.core = (if s.mach.core.sst p 0 m.link = 4 ∧ m.entries.length < 30 then d.reissueFrom p m.link else d) → P t) :
    Completes (.dedup p) s P := by
  refine completes_port rfl hl hp fun t hmem ht => ?_
  obtain rfl := takeLctl_eq hm
  rw [hm] at ht
  exact h t { s.mach.core with ports := { s.mach.core.ports with
    lctl := s.mach.core.ports.lctl.erase m, held := s.mach.core.dropListed p m } } hmem rfl rfl ht

omit hl hp in
/-- A packet that has left a retired strand is not sent on it again. -/
theorem reissueFrom_leaves {c : Core} {q : Nat} (hu : c.usable p 0 q = false) :
    ∀ h ∈ (c.reissueFrom p q).ports.held, h.port = p → h.strand ≠ some q := by
  obtain ⟨-, hall⟩ := pump_carries { c with ports := { c.ports with held := c.ports.held.map (fun h =>
    if h.port = p ∧ h.strand = some q then { h with strand := none, resends := 0, again := false } else h) } } p
  intro k hk hport hq
  obtain ⟨h, hh, hcar⟩ := exists_mem_of_forall₂ hall hk
  obtain ⟨h0, -, hleft⟩ := List.mem_map.mp hh
  obtain rfl | ⟨-, t, ht, _, rfl, -⟩ := hcar
  · split at hleft
    · rw [← hleft] at hq
      exact absurd hq (by simp)
    · next hstays =>
      rw [hleft] at hstays
      exact hstays ⟨hport, hq⟩
  · obtain rfl : t = q := Option.some.inj hq
    exact absurd (ht.symm.trans hu) (by decide)

end

/-- Settles O25, message by message. -/
theorem linkMessagesAct : Obligations.LinkMessagesAct := by
  unfold Obligations.LinkMessagesAct
  intro s p m c' hl hp
  refine ⟨fun h4 => absentNotice_completes hl h4, fun h4 => portLoss_completes hl h4, retrain_completes hl hp, retire_completes hl hp,
    fun hm hwhy => ?part, fun hm h4 hlen => ?last⟩
  case part =>
    refine dedup_completes hl hp hm fun t d hmem _ hheld ht => ⟨hmem, ?_⟩
    rw [if_neg (by omega)] at ht
    rw [ht, hheld]
    rfl
  case last =>
    refine dedup_completes hl hp hm fun t d hmem hcreg _ ht => ⟨hmem, ?_⟩
    rw [if_pos ⟨h4, hlen⟩] at ht
    have hu : d.usable p 0 m.link = false := by
      rw [usable_congr (sst_congr hcreg p 0 m.link)]
      simp [Core.usable, h4]
    rw [ht]
    exact reissueFrom_leaves hu

end Sys2Proof.Machine
end

section
/-! A frame received, and the timers of a link (R247, R249, R252, R258, R260). -/

namespace Sys2Proof.Machine

/-- Fields of two registers share no bit. -/
theorem apart_of_off_ne {f g : Fld} (h : g.off ≠ f.off) : f.apart g = true := by
  simp [Fld.apart, h.symm]

/-! ## A frame up to its packet -/

/-- `d` is `c` after part of a frame on an inbound strand was taken, short of its packet: of the registers, the strand's counts of
violations and of corrections have moved at most; no packet was received and no LSEQ accepted. -/
structure HeardOnly (p l : Nat) (c d : Core) : Prop where
  rd : ∀ f : Fld, (R.PRT_CNT_CODEV p 1 l).apart f = true → (R.PRT_CNT_CORR p 1 l).apart f = true → d.rd f = c.rd f
  rx : d.ports.rx = c.ports.rx
  accepted : (d.link p l).accepted = (c.link p l).accepted

namespace HeardOnly

theorem refl (p l : Nat) (c : Core) : HeardOnly p l c c := ⟨fun _ _ _ => rfl, rfl, rfl⟩

theorem trans {p l : Nat} {c d e : Core} (h : HeardOnly p l c d) (k : HeardOnly p l d e) : HeardOnly p l c e :=
  ⟨fun f hv hc => (k.rd f hv hc).trans (h.rd f hv hc), k.rx.trans h.rx, k.accepted.trans h.accepted⟩

theorem of_sendOnly {c d : Core} (p l : Nat) (h : SendOnly c d) : HeardOnly p l c d :=
  ⟨fun f _ _ => rd_congr h.creg f, h.rx, h.accepted p l⟩

theorem codev (p l : Nat) (c : Core) (n : Nat) : HeardOnly p l c (c.bump (R.PRT_CNT_CODEV p 1 l) n) :=
  ⟨fun f hv _ => Core.rd_wr_apart c _ f _ (show 48 + 8 ≤ 64 by decide) hv, rfl, rfl⟩

theorem corr (p l : Nat) (c : Core) (n : Nat) : HeardOnly p l c (c.bump (R.PRT_CNT_CORR p 1 l) n) :=
  ⟨fun f _ hc => Core.rd_wr_apart c _ f _ (show 0 + 32 ≤ 64 by decide) hc, rfl, rfl⟩

/-- The strands' states are no counts. -/
theorem usables {p l : Nat} {c d : Core} (h : HeardOnly p l c d) (e : Nat) : d.usables p e = c.usables p e := by
  have hoff (s : Nat) : (R.PRT_STRAND_SSTATE p e s).off ≠ (R.PRT_CNT_CORR p 1 l).off := by
    simp only [R.PRT_STRAND_SSTATE, R.PRT_CNT_CORR]
    omega
  exact usables_congr fun s _ => h.rd _ (apart_of_off_ne (hoff s)) (apart_of_off_ne (hoff s))

end HeardOnly

/-- A frame heard: its symbols counted, its tick noted for the port, and the state its partner presents taken. -/
def Core.heard (c : Core) (p l : Nat) (o : FrameObs) (hits : List (Glitch × Nat × Nat)) : Core :=
  let d := c.countSymbols p l hits
  { d with ports := { d.ports with lastFrame := SMap.set 0 d.ports.lastFrame p d.now, peer := SMap.set 2 d.ports.peer p o.frame.pstate } }

theorem countSymbols_heard (c : Core) (p l : Nat) (hits : List (Glitch × Nat × Nat)) : HeardOnly p l c (c.countSymbols p l hits) := by
  unfold Core.countSymbols
  exact .trans (.of_sendOnly p l (putLink_sendOnly c p l (by rfl))) (.codev p l _ _)

theorem heard_only (c : Core) (p l : Nat) (o : FrameObs) (hits : List (Glitch × Nat × Nat)) : HeardOnly p l c (c.heard p l o hits) :=
  (countSymbols_heard c p l hits).trans ⟨fun _ _ _ => rfl, rfl, rfl⟩

theorem heard_peer (c : Core) (p l : Nat) (o : FrameObs) (hits : List (Glitch × Nat × Nat)) :
    (c.heard p l o hits).peer p = o.frame.pstate := SMap.get_set_self _ _ _ _

/-- A block's bytes once its code is done with it. -/
def Decoded.bytes (r : Decoded) (bs : List Byte) : List Byte :=
  match r with
  | .word left _ => withErrors bs left
  | .uncorrectable => bs

/-- The block of a one-block packet comes to the packet, after the count of corrections and the end of what was collected. -/
theorem takeBlock_whole (c : Core) (p l : Nat) {f : Frame} (hf : f.ftype = 4) (r : Decoded) :
    ∃ d, HeardOnly p l c d ∧ d.peer p = c.peer p
      ∧ c.takeBlock p l f r = d.packetIn p l f.lvc f.lseq (r.bytes f.block) 1 (decide (r = .uncorrectable)) := by
  have hdrop (e : Core) (he : HeardOnly p l c e) (hpeer : e.peer p = c.peer p) :
      HeardOnly p l c (e.dropPartial p l) ∧ (e.dropPartial p l).peer p = c.peer p :=
    ⟨he.trans (.of_sendOnly p l (dropPartial_sendOnly e p l)), ((dropPartial_sendOnly e p l).peer p).trans hpeer⟩
  cases r with
  | uncorrectable =>
    obtain ⟨hd, hpeer⟩ := hdrop c (.refl p l c) rfl
    exact ⟨_, hd, hpeer, by unfold Core.takeBlock; rw [hf]; rfl⟩
  | word left k =>
    have hcount : HeardOnly p l c (if k = 0 then c else c.bump (R.PRT_CNT_CORR p 1 l) 1) := by
      split
      · exact .refl p l c
      · exact .corr p l c 1
    obtain ⟨hd, hpeer⟩ := hdrop _ hcount (by split <;> rfl)
    exact ⟨_, hd, hpeer, by unfold Core.takeBlock; rw [hf]; rfl⟩

/-- A frame with its control whole, carrying a one-block packet and nothing for the other direction, comes to its packet. -/
theorem frameIn_packet {c : Core} {p l k : Nat} {o : FrameObs} (hu : c.usable p 1 l = true)
    (hspell : frameOf (frameControl o.frame) o.frame.block = o.frame) (htype : o.frame.ftype = 4) (hacc : o.frame.accept = none)
    (hres : o.frame.resend = none) (hcred : o.frame.credit = none) {hits : List (Glitch × Nat × Nat)}
    (hhits : hits = o.hits (c.half p 1 l) (goodLanes (c.excluded p 1 l) (laneCount (c.half p 1 l))) (laneBytes o.frame))
    (hword : decodeHits 12 controlPlace hits = .word [] k) {r : Decoded} (hr : decodeHits 64 blockPlace hits = r) :
    ∃ d, HeardOnly p l c d ∧ d.peer p = o.frame.pstate
      ∧ c.frameIn p l o = (d.packetIn p l o.frame.lvc o.frame.lseq (r.bytes o.frame.block) 1 (decide (r = .uncorrectable))).pump p := by
  obtain ⟨d, hd, hpeer, heq⟩ := takeBlock_whole (c.heard p l o hits) p l htype r
  refine ⟨d, (heard_only c p l o hits).trans hd, hpeer.trans (heard_peer c p l o hits), ?_⟩
  have hself : frameOf (withErrors (frameControl o.frame) []) o.frame.block = o.frame := hspell
  rw [← heq]
  unfold Core.frameIn
  rw [hu, if_neg (by decide)]
  dsimp only
  rw [← hhits, hword]
  dsimp only
  rw [hself, hr]
  unfold Core.takeAccept Core.takeResend Core.takeCredit
  rw [hacc, hres, hcred]
  rfl

/-! ## The packet of a frame -/

/-- A packet asked for again, counted; the third time as a hard event too. -/
def Core.countAsked (c : Core) (p l n : Nat) : Core :=
  if n = 3 then (c.bump (R.PRT_CNT_RESEND p 1 l) 1).bump (R.PRT_CNT_HARD p 1 l) 1 else c.bump (R.PRT_CNT_RESEND p 1 l) 1

theorem countAsked_spec (c : Core) (p l n : Nat) : (c.countAsked p l n).ports = c.ports
    ∧ (c.countAsked p l n).rd (R.PRT_CNT_RESEND p 1 l) = satAdd (R.PRT_CNT_RESEND p 1 l).w (c.rd (R.PRT_CNT_RESEND p 1 l)) 1
    ∧ (c.countAsked p l n).usables p 0 = c.usables p 0 := by
  have hone : (c.bump (R.PRT_CNT_RESEND p 1 l) 1).rd (R.PRT_CNT_RESEND p 1 l)
      = satAdd (R.PRT_CNT_RESEND p 1 l).w (c.rd (R.PRT_CNT_RESEND p 1 l)) 1 := by
    refine (Core.rd_wr_self c _ _ (show 32 + 16 ≤ 64 by decide)).trans (Nat.mod_eq_of_lt ?_)
    exact (Nat.min_le_right _ _).trans_lt (Nat.sub_lt (Nat.two_pow_pos _) Nat.one_pos)
  have hhard (d : Core) (v : Nat) : (d.wr (R.PRT_CNT_HARD p 1 l) v).rd (R.PRT_CNT_RESEND p 1 l) = d.rd (R.PRT_CNT_RESEND p 1 l) :=
    Core.rd_wr_apart d _ _ v (show 56 + 8 ≤ 64 by decide) (by simp [Fld.apart, R.PRT_CNT_HARD, R.PRT_CNT_RESEND])
  have husables (d : Core) {f : Fld} (hf : f.off = (R.PRT_CNT_RESEND p 1 l).off) (hw : f.lo + f.w ≤ 64) (v : Nat) :
      (d.wr f v).usables p 0 = d.usables p 0 := by
    refine usables_congr fun s _ => Core.rd_wr_apart d f _ v hw (apart_of_off_ne ?_)
    rw [hf]
    simp only [R.PRT_STRAND_SSTATE, R.PRT_CNT_RESEND]
    omega
  have hresend := husables c (f := R.PRT_CNT_RESEND p 1 l) rfl (show 32 + 16 ≤ 64 by decide)
  unfold Core.countAsked
  split
  · exact ⟨rfl, (hhard _ _).trans hone, (husables _ (f := R.PRT_CNT_HARD p 1 l) rfl (show 56 + 8 ≤ 64 by decide) _).trans (hresend _)⟩
  · exact ⟨rfl, hone, hresend _⟩

section
variable (c : Core) (p l lvc q : Nat) (bs : List Byte) (n : Nat)

/-- A packet spoilt is counted, and asked for again with its credits given back. -/
theorem packetIn_asks : ∃ lk m, lk.accepted = (c.link p l).accepted ∧ c.packetIn p l lvc q bs n true
    = (((c.putLink p l lk).countAsked p l m).emitAny p { resend := some (l, q) }).giveCredit p l lvc n := by
  let m := (((c.link p l).resent.find? (fun x => decide (x.1 = q))).map (fun x => x.2)).getD 0 + 1
  let rest := (c.link p l).resent.filter (fun x => decide (x.1 ≠ q))
  refine ⟨{ c.link p l with resent := if m = 3 then rest else (q, m) :: rest }, m, rfl, ?_⟩
  unfold Core.packetIn Core.countAsked
  exact if_pos rfl

/-- A packet spoilt is not received: it is counted in RESEND and asked for again. -/
theorem packetIn_bad : let d := c.packetIn p l lvc q bs n true
    d.ports.rx = c.ports.rx ∧ d.rd (R.PRT_CNT_RESEND p 1 l) = satAdd (R.PRT_CNT_RESEND p 1 l).w (c.rd (R.PRT_CNT_RESEND p 1 l)) 1
      ∧ (c.usables p 0 ≠ [] → ∃ w ∈ d.ports.wire, w.1 = p ∧ w.2.2.resend = some (l, q)) := by
  obtain ⟨lk, m, hlk, hasks⟩ := packetIn_asks c p l lvc q bs n
  obtain ⟨hports, hcount, husables⟩ := countAsked_spec (c.putLink p l lk) p l m
  have hemit := emitAny_sendOnly ((c.putLink p l lk).countAsked p l m) p { resend := some (l, q) }
  have hcredit := giveCredit_sendOnly (((c.putLink p l lk).countAsked p l m).emitAny p { resend := some (l, q) }) p l lvc n
  have hsend := hemit.trans hcredit
  dsimp only
  rw [hasks]
  refine ⟨?_, (rd_congr hsend.creg _).trans hcount, fun hu => ?_⟩
  · rw [hsend.rx, hports]
    exact (putLink_sendOnly c p l hlk).rx
  · obtain ⟨w, hw, hport, hframe⟩ := emitAny_wire (husables ▸ hu) { resend := some (l, q) }
    exact ⟨w, hcredit.wire w hw, hport, by rw [hframe]⟩

/-- A packet accepted before is not received again; it is accepted again. -/
theorem packetIn_known (hq : (c.link p l).accepted.contains q = true) : let d := c.packetIn p l lvc q bs n false
    SendOnly c d ∧ (c.usables p 0 ≠ [] → ∃ w ∈ d.ports.wire, w.1 = p ∧ w.2.2.accept = some (l, q)) := by
  unfold Core.packetIn
  rw [if_neg (by decide), if_pos hq]
  have hcredit := giveCredit_sendOnly (c.emitAny p { accept := some (l, q) }) p l lvc n
  refine ⟨(emitAny_sendOnly c p _).trans hcredit, fun hu => ?_⟩
  obtain ⟨w, hw, hport, hframe⟩ := emitAny_wire hu { accept := some (l, q) }
  exact ⟨w, hcredit.wire w hw, hport, by rw [hframe]⟩

/-- A packet that is new is received and accepted. -/
theorem packetIn_new (hq : (c.link p l).accepted.contains q = false) : let d := c.packetIn p l lvc q bs n false
    d.ports.rx = c.ports.rx ++ [{ port := p, strand := l, lvc := lvc, blocks := n, pkt := Packet.ofWire bs }] ∧ d.peer p = c.peer p
      ∧ (c.usables p 0 ≠ [] → ∃ w ∈ d.ports.wire, w.1 = p ∧ w.2.2.accept = some (l, q)) := by
  unfold Core.packetIn
  rw [if_neg (by decide), if_neg (by rw [hq]; decide)]
  dsimp only
  generalize hd : ({ c.putLink p l _ with ports := { (c.putLink p l _).ports with rx := _ } } : Core) = d
  have hemit := emitAny_sendOnly d p { accept := some (l, q) }
  refine ⟨hemit.rx.trans (by rw [← hd]; rfl), (hemit.peer p).trans (by rw [← hd]; rfl), fun hu => ?_⟩
  have husables : d.usables p 0 = c.usables p 0 := usables_congr fun s _ => sst_congr (by rw [← hd]; rfl) p 0 s
  obtain ⟨w, hw, hport, hframe⟩ := emitAny_wire (husables ▸ hu) { accept := some (l, q) }
  exact ⟨w, hw, hport, by rw [hframe]⟩

end

/-! ## What follows the packet -/

/-- What a ring neighbour's state makes due leaves the packets held; nothing else of the link domain moves, nor a port's register. -/
theorem settlePeer_spec (c : Core) (p : Nat) : ∃ hs, PortsKept { c with ports := { c.ports with held := hs } } (c.settlePeer p) :=
  ⟨_, .foldl _ (fun d _ _ => .of_netOnly (answer_spec d _ _ _)) _⟩

/-- Sending and settling after a packet keep what was received, what the partner presents, and the ports' registers; no frame is lost. -/
theorem pump_settlePeer (c : Core) (p : Nat) : let d := (c.pump p).settlePeer p
    d.ports.rx = c.ports.rx ∧ d.peer p = c.peer p ∧ (∀ f : Fld, portPage f.off → d.rd f = c.rd f)
      ∧ ∀ w ∈ c.ports.wire, w ∈ d.ports.wire := by
  obtain ⟨hs, hkept⟩ := settlePeer_spec (c.pump p) p
  have hsend := pump_sendOnly c p
  refine ⟨?_, ?_, fun f hf => (hkept.rd hf).trans (rd_congr hsend.creg f), fun w hw => ?_⟩
  · rw [hkept.ports]; exact hsend.rx
  · unfold Core.peer; rw [hkept.ports]; exact hsend.peer p
  · rw [hkept.ports]; exact hsend.wire w hw

/-! ## The rows -/

section
variable {s : State} {i : Nat} {h : Held} (hl : s.live = true)
include hl

theorem acctmoExpiry_completes (hh : s.mach.core.ports.held[i]? = some h) (hstrand : h.strand.isSome = true) (hagain : h.again = false)
    (htime : s.mach.core.rd R.PRT_TIMERS_ACCTMO ≤ s.mach.core.now - h.sentAt) :
    Completes (.acctmoExpiry i) s (fun s' => MemKept s s' ∧ RegsKept s s' ∧ ∃ h', s'.mach.core.ports.held[i]? = some h'
      ∧ h'.pkt = h.pkt ∧ h'.strand = h.strand ∧ h'.lseq = h.lseq ∧ (h'.again = true ∨ h'.sentAt = s.mach.core.now)) := by
  refine completes_onCore (f := fun c => c.acctmo i) rfl hl fun t hm _ ht => ⟨hm, ?_⟩
  obtain ⟨hi, -⟩ := List.getElem?_eq_some_iff.mp hh
  have hact : s.mach.core.acctmo i = Core.pump { s.mach.core with ports := { s.mach.core.ports with
      held := s.mach.core.ports.held.set i { h with again := true } } } h.port := by
    unfold Core.acctmo
    rw [hh]
    exact if_pos ⟨hstrand, hagain, htime⟩
  obtain ⟨hsend, hall⟩ := pump_carries { s.mach.core with ports := { s.mach.core.ports with
    held := s.mach.core.ports.held.set i { h with again := true } } } h.port
  rw [← hact] at hsend hall
  rw [RegsKept, ht]
  have hi0 : i < (s.mach.core.ports.held.set i { h with again := true }).length := by rwa [List.length_set]
  have hi1 : i < (s.mach.core.acctmo i).ports.held.length := hall.length_eq ▸ hi0
  have hcar := hall.get hi0 hi1
  rw [List.get_eq_getElem, List.get_eq_getElem] at hcar
  refine ⟨⟨hsend.creg, hsend.treg⟩, _, List.getElem?_eq_getElem hi1, ?_⟩
  generalize (s.mach.core.acctmo i).ports.held[i] = k at hcar ⊢
  simp only [List.getElem_set_self] at hcar
  obtain rfl | ⟨-, t, -, q, rfl, hsame⟩ := hcar
  · exact ⟨rfl, rfl, rfl, .inl rfl⟩
  · obtain ⟨u, hu⟩ := Option.isSome_iff_exists.mp hstrand
    obtain ⟨rfl, rfl⟩ := hsame u hu
    exact ⟨rfl, hu.symm, rfl, .inr rfl⟩

variable {p l : Nat} (hs : isStrand p l = true)
include hs

theorem idleFrame_completes (hu : s.mach.core.usable p 0 l = true)
    (htime : s.mach.core.rd R.PRT_TIMERS_IDLEPER ≤ s.mach.core.now - (s.mach.core.link p l).lastOut) :
    Completes (.idleFrame p l) s (fun s' => MemKept s s' ∧ RegsKept s s' ∧ s'.mach.core.ports.wire
      = s.mach.core.ports.wire ++ [(p, l, { pstate := s.mach.core.rd (R.PRT_STATE_STATE p) })]) := by
  refine completes_strand (f := fun c => c.idleFrame p l) rfl hl hs fun t hm _ ht => ⟨hm, ?_⟩
  unfold Core.idleFrame at ht
  rw [if_pos htime] at ht
  have hsend := emit_sendOnly s.mach.core p l {}
  rw [RegsKept, ht]
  exact ⟨⟨hsend.creg, hsend.treg⟩, emit_wire hu {}⟩

theorem countWindow_completes (htime : s.mach.core.rd R.PRT_THRESH_WIN ≤ s.mach.core.now - (s.mach.core.link p l).window) :
    Completes (.countWindow p l) s (fun s' => MemKept s s' ∧ s'.mach.core.rd (R.PRT_CNT_CODEV p 1 l) = 0
      ∧ s'.mach.core.rd (R.PRT_CNT_HARD p 0 l) = 0 ∧ s'.mach.core.rd (R.PRT_CNT_HARD p 1 l) = 0
      ∧ (s'.mach.core.link p l).window = s.mach.core.now) := by
  refine completes_strand (f := fun c => c.countWindow p l) rfl hl hs fun t hm _ ht => ⟨hm, ?_⟩
  unfold Core.countWindow at ht
  dsimp only at ht
  rw [if_pos htime] at ht
  have hapart (c : Core) {d e : Nat} (hde : d ≠ e) : (c.wr (R.PRT_CNT_HARD p d l) 0).rd (R.PRT_CNT_HARD p e l) = c.rd (R.PRT_CNT_HARD p e l) :=
    Core.rd_wr_apart c _ _ _ (show 56 + 8 ≤ 64 by decide) (by simp [Fld.apart, R.PRT_CNT_HARD]; omega)
  have hcodev (c : Core) (d : Nat) : (c.wr (R.PRT_CNT_HARD p d l) 0).rd (R.PRT_CNT_CODEV p 1 l) = c.rd (R.PRT_CNT_CODEV p 1 l) :=
    Core.rd_wr_apart c _ _ _ (show 56 + 8 ≤ 64 by decide) (by simp [Fld.apart, R.PRT_CNT_HARD, R.PRT_CNT_CODEV])
  rw [ht]
  refine ⟨?_, ?_, Core.rd_wr_self _ _ 0 (show 56 + 8 ≤ 64 by decide), ?_⟩
  · rw [hcodev, hcodev]
    exact Core.rd_wr_self _ _ 0 (show 48 + 8 ≤ 64 by decide)
  · rw [hapart _ (by decide)]
    exact Core.rd_wr_self _ _ 0 (show 56 + 8 ≤ 64 by decide)
  · exact congrArg LinkSt.window (link_putLink_self s.mach.core p l _)

end

/-- A frame that comes to its packet, under the conditions of the statement: the packet's case, then what follows it. -/
theorem frame_completes {s : State} {p l k : Nat} {o : FrameObs} (hl : s.live = true) (hs : isStrand p l = true)
    (hu : s.mach.core.usable p 1 l = true) (hspell : frameOf (frameControl o.frame) o.frame.block = o.frame) (htype : o.frame.ftype = 4)
    (hacc : o.frame.accept = none) (hres : o.frame.resend = none) (hcred : o.frame.credit = none) {hits : List (Glitch × Nat × Nat)}
    (hhits : hits = o.hits (s.mach.core.half p 1 l) (goodLanes (s.mach.core.excluded p 1 l) (laneCount (s.mach.core.half p 1 l)))
      (laneBytes o.frame))
    (hword : decodeHits 12 controlPlace hits = .word [] k) {r : Decoded} (hr : decodeHits 64 blockPlace hits = r) {P : State → Prop}
    (h : ∀ (t : State) (d : Core), MemKept s t → OutsideKept s t → HeardOnly p l s.mach.core d → d.peer p = o.frame.pstate →
      t.mach.core = ((d.packetIn p l o.frame.lvc o.frame.lseq (r.bytes o.frame.block) 1 (decide (r = .uncorrectable))).pump p).settlePeer p →
      P t) : Completes (.frame p l o) s P := by
  refine completes_strand (f := fun c => (c.frameIn p l o).settlePeer p) rfl hl hs fun t hm ho ht => ?_
  obtain ⟨d, hd, hpeer, heq⟩ := frameIn_packet hu hspell htype hacc hres hcred hhits hword hr
  exact h t d hm ho hd hpeer (ht.trans (by rw [heq]))

theorem cntResend_page {p l : Nat} (hs : isStrand p l = true) : portPage (R.PRT_CNT_RESEND p 1 l).off := by
  obtain ⟨hp, hn⟩ := isStrand_iff.mp hs
  have := nStrands_le p
  simp only [portPage, R.PRT_CNT_RESEND]
  omega

/-- Settles O22: the packet of a frame received, known or spoilt, and the three timers. -/
theorem framesAreAcceptedOnceAndTimersAct : Obligations.FramesAreAcceptedOnceAndTimersAct := by
  unfold Obligations.FramesAreAcceptedOnceAndTimersAct
  refine ⟨fun s p l k o hl hs => ?frame, fun s hl => ⟨fun i h => acctmoExpiry_completes hl, fun p l => idleFrame_completes hl,
    fun p l => countWindow_completes hl⟩⟩
  intro c half hits known hu hspell htype hacc hres hcred hword
  have hcase {r : Decoded} (hr : decodeHits 64 blockPlace hits = r) {P : State → Prop} :=
    frame_completes (P := P) hl hs hu hspell htype hacc hres hcred rfl hword hr
  refine ⟨fun left n hblock => ⟨fun hnew => ?_, fun hknown => ?_⟩, fun hbad => ?_⟩
  · refine hcase hblock fun t d hm ho hd hpeer ht => ⟨hm, ho, ?_⟩
    obtain ⟨hrx, hpeer', hwire⟩ := packetIn_new d p l o.frame.lvc o.frame.lseq (withErrors o.frame.block left) 1 (hd.accepted ▸ hnew)
    obtain ⟨hrx2, hpeer2, -, hwire2⟩ := pump_settlePeer (d.packetIn p l o.frame.lvc o.frame.lseq (withErrors o.frame.block left) 1 false) p
    rw [ht]
    refine ⟨hrx2.trans (hrx.trans (by rw [hd.rx])), hpeer2.trans (hpeer'.trans hpeer), fun hus => ?_⟩
    obtain ⟨w, hw, hframe⟩ := hwire (by rwa [hd.usables])
    exact ⟨w, hwire2 w hw, hframe⟩
  · refine hcase hblock fun t d hm _ hd _ ht => ⟨hm, ?_⟩
    obtain ⟨hsend, hwire⟩ := packetIn_known d p l o.frame.lvc o.frame.lseq (withErrors o.frame.block left) 1 (hd.accepted ▸ hknown)
    obtain ⟨hrx2, -, -, hwire2⟩ := pump_settlePeer (d.packetIn p l o.frame.lvc o.frame.lseq (withErrors o.frame.block left) 1 false) p
    rw [ht]
    refine ⟨hrx2.trans (hsend.rx.trans hd.rx), fun hus => ?_⟩
    obtain ⟨w, hw, hframe⟩ := hwire (by rwa [hd.usables])
    exact ⟨w, hwire2 w hw, hframe⟩
  · refine hcase hbad fun t d hm _ hd _ ht => ⟨hm, ?_⟩
    obtain ⟨hrx, hcount, hwire⟩ := packetIn_bad d p l o.frame.lvc o.frame.lseq o.frame.block 1
    obtain ⟨hrx2, -, hregs, hwire2⟩ := pump_settlePeer (d.packetIn p l o.frame.lvc o.frame.lseq o.frame.block 1 true) p
    have hstood : d.rd (R.PRT_CNT_RESEND p 1 l) = s.mach.core.rd (R.PRT_CNT_RESEND p 1 l) :=
      hd.rd _ (by simp [Fld.apart, R.PRT_CNT_CODEV, R.PRT_CNT_RESEND]) (by simp [Fld.apart, R.PRT_CNT_CORR, R.PRT_CNT_RESEND])
    rw [ht]
    refine ⟨hrx2.trans (hrx.trans hd.rx), (hregs _ (cntResend_page hs)).trans (hcount.trans (by rw [hstood])), fun hus => ?_⟩
    obtain ⟨w, hw, hframe⟩ := hwire (by rwa [hd.usables])
    exact ⟨w, hwire2 w hw, hframe⟩

end Sys2Proof.Machine
end

section
/-! The by-pass's positions (R267): a position inserted, and an attempt that fails. -/

namespace Sys2Proof.Machine

/-! ## The by-pass's register -/

/-- The positions are no part of a port's state. -/
theorem bypos_outside (p q : Nat) : outsideState p (R.PRT_STATE_BYPOS q) := .inr ⟨show 3 ≤ 4 by decide, show 4 + 4 ≤ 8 by decide⟩

theorem bypos_page {p : Nat} (hp : p < 6) : portPage (R.PRT_STATE_BYPOS p).off := by
  simp only [portPage, R.PRT_STATE_BYPOS]; omega

theorem bypos_apart_sstate {q : Nat} (hq : q < 6) (p d s : Nat) : (R.PRT_STRAND_SSTATE p d s).apart (R.PRT_STATE_BYPOS q) = true :=
  apart_of_off_ne (by simp only [R.PRT_STATE_BYPOS, R.PRT_STRAND_SSTATE]; omega)

/-- The positions written are reported by both ring ports. -/
theorem setBypos_rd (c : Core) {p v : Nat} (hp : p = 4 ∨ p = 5) (hv : v < 16) : (c.setBypos v).rd (R.PRT_STATE_BYPOS p) = v := by
  have hself (d : Core) (q : Nat) : (d.wr (R.PRT_STATE_BYPOS q) v).rd (R.PRT_STATE_BYPOS q) = v :=
    (Core.rd_wr_self d _ v (show 4 + 4 ≤ 64 by decide)).trans (Nat.mod_eq_of_lt hv)
  unfold Core.setBypos
  obtain rfl | rfl := hp
  · rw [rd_wr_off _ _ (by decide), hself]
  · exact hself _ 5

section
variable {q : Nat} (hq : q < 6) (c : Core)
include hq

theorem setLink_bypos (p s v : Nat) : (c.setLink p s v).rd (R.PRT_STATE_BYPOS q) = c.rd (R.PRT_STATE_BYPOS q) :=
  setLink_rd (bypos_outside p q) c v fun d _ => bypos_apart_sstate hq p d s

theorem trainLink_bypos (p s : Nat) (o : TrainObs) : (c.trainLink p s o).rd (R.PRT_STATE_BYPOS q) = c.rd (R.PRT_STATE_BYPOS q) := by
  refine trainLink_rd (bypos_page hq) (bypos_outside p q) (fun d _ => ⟨?_, ?_⟩) ?_ c o
  · simp only [R.PRT_STATE_BYPOS, R.PRT_STRAND_SSTATE]; omega
  · simp only [R.PRT_STATE_BYPOS, R.PRT_LANEBAD_BADLO]; omega
  · simp only [R.PRT_STATE_BYPOS, R.PRT_PARTNER_DESC]; omega

theorem joinRing_bypos (p : Nat) : (c.joinRing p).rd (R.PRT_STATE_BYPOS q) = c.rd (R.PRT_STATE_BYPOS q) := by
  unfold Core.joinRing
  split
  · exact rd_congr (pump_sendOnly c p).creg _
  · exact (openPort_status c p).rd _ (bypos_page hq) (bypos_outside p q)

end

/-! ## An attempt at a position -/

/-- A position opened, its four strands trained, and both ring ports in use. -/
def Core.opened (c : Core) (k : Nat) (o : InsertObs) : Core :=
  ((((((c.setBypos (setBit (c.rd (R.PRT_STATE_BYPOS 4)) k false)).setLink 4 k 1).setLink 5 k 1).trainLink 4 k o.up).trainLink 5 k
    o.down).joinRing 4).joinRing 5

theorem bit_opened (c : Core) {k : Nat} (hk : k < 4) (o : InsertObs) : bit ((c.opened k o).rd (R.PRT_STATE_BYPOS 4)) k = false := by
  have hlt : setBit (c.rd (R.PRT_STATE_BYPOS 4)) k false < 2 ^ 4 := setBit_lt false (Core.rd_lt c _) hk
  unfold Core.opened
  rw [joinRing_bypos (by decide), joinRing_bypos (by decide), trainLink_bypos (by decide), trainLink_bypos (by decide),
    setLink_bypos (by decide), setLink_bypos (by decide), setBypos_rd c (.inl rfl) hlt]
  exact bit_setBit_self _ k false

section
variable {c : Core} {k : Nat} {o : InsertObs} (hclean : o.clean = true)
include hclean

/-- A position that trains is inserted, its failures forgotten. -/
theorem insert_good (hgood : c.positionTrains k o = true) : c.insert k o = { c.opened k o with ports := { (c.opened k o).ports with
    tries := SMap.set 0 (c.opened k o).ports.tries k 0 } } := by
  unfold Core.insert
  dsimp only
  rw [hclean, hgood]
  rfl

/-- A position that does not train stays closed; the failure is counted, with its tick. -/
theorem insert_bad (hbad : c.positionTrains k o = false) :
    SMap.get 0 (c.insert k o).ports.tries k = min 4 (SMap.get 0 c.ports.tries k + 1) ∧ SMap.get 0 (c.insert k o).ports.failedAt k = c.now
      ∧ (c.insert k o).rd (R.PRT_STATE_BYPOS 4) = c.rd (R.PRT_STATE_BYPOS 4) := by
  have hfail (d : Core) {p : Nat} (hp : 4 ≤ p) (cause : Nat) : (d.failPort p cause).ports = d.ports
      ∧ (d.failPort p cause).rd (R.PRT_STATE_BYPOS 4) = d.rd (R.PRT_STATE_BYPOS 4) :=
    ⟨by rw [failPort_known (.inl hp)]; rfl, (failPort_status d p cause).rd _ (bypos_page (by decide)) (bypos_outside p 4)⟩
  unfold Core.insert
  dsimp only
  rw [hclean, hbad, if_neg (by decide), if_neg (by decide)]
  generalize (if o.up.copies = [] ∧ o.down.copies = [] then 1 else 4) = cause
  generalize hd : ({ c with ports := { c.ports with tries := _, failedAt := _ } } : Core) = d
  have hcount : SMap.get 0 d.ports.tries k = min 4 (SMap.get 0 c.ports.tries k + 1) ∧ SMap.get 0 d.ports.failedAt k = c.now
      ∧ d.rd (R.PRT_STATE_BYPOS 4) = c.rd (R.PRT_STATE_BYPOS 4) := by
    rw [← hd]
    exact ⟨SMap.get_set_self _ _ _ _, SMap.get_set_self _ _ _ _, rfl⟩
  split
  · obtain ⟨hports5, hbypos5⟩ := hfail (d.failPort 4 cause) (p := 5) (by decide) cause
    obtain ⟨hports4, hbypos4⟩ := hfail d (p := 4) (by decide) cause
    rwa [hports5, hports4, hbypos5, hbypos4]
  · exact hcount

end

/-! ## The rows -/

/-- What an attempt at a position comes to. -/
def Attempted (s : State) (k : Nat) (o : InsertObs) (s' : State) : Prop :=
  MemKept s s' ∧ OutsideKept s s' ∧
  (s.mach.core.positionTrains k o = true →
    bit (s'.mach.core.rd (R.PRT_STATE_BYPOS 4)) k = false ∧ SMap.get 0 s'.mach.core.ports.tries k = 0) ∧
  (s.mach.core.positionTrains k o = false →
    SMap.get 0 s'.mach.core.ports.tries k = min 4 (SMap.get 0 s.mach.core.ports.tries k + 1)
    ∧ SMap.get 0 s'.mach.core.ports.failedAt k = s.mach.core.now
    ∧ s'.mach.core.rd (R.PRT_STATE_BYPOS 4) = s.mach.core.rd (R.PRT_STATE_BYPOS 4))

/-- A row whose moment an attempt is ends as the attempt does. -/
theorem insert_completes {i : Instr} {s : State} {k : Nat} {o : InsertObs} {f : Core → Core} (hl : s.live = true) (hk : k < 4)
    (hclean : o.clean = true) (hi : exec i s = onlyIf (decide (k < 4)) (s.onCore f)) (hf : f s.mach.core = s.mach.core.insert k o) :
    Completes i s (Attempted s k o) := by
  refine completes_onCore (hi.trans (by rw [decide_eq_true hk, onlyIf_true])) hl fun t hm ho ht => ⟨hm, ho, ?_⟩
  rw [ht, hf]
  refine ⟨fun hgood => ?_, insert_bad hclean⟩
  rw [insert_good hclean hgood]
  exact ⟨bit_opened _ hk o, SMap.get_set_self 0 0 (s.mach.core.opened k o).ports.tries k⟩

/-- Settles O26: each of the three rows is one attempt, looked at when it runs (log entry 4); a position that trains, its loopback
included (log entry 43), is inserted. -/
theorem ringInsertionByPosition : Obligations.RingInsertionByPosition := by
  unfold Obligations.RingInsertionByPosition
  intro s k o hl hk c n good result hturn hclean
  exact ⟨fun hn => insert_completes hl hk hclean rfl (if_pos ⟨hturn, hn⟩),
    fun h1 h3 htime => insert_completes hl hk hclean rfl (if_pos ⟨hturn, h1, h3, htime⟩),
    fun h4 => insert_completes hl hk hclean rfl (if_pos ⟨hturn, h4⟩)⟩

end Sys2Proof.Machine
end

section
/-! What a full reset, VRING and the by-pass leave and bring about (R266, R349, R412, R414). -/

namespace Sys2Proof.Machine

/-! ## The registers that show the supplies and the by-pass -/

/-- The registers that hold VRLOW and the by-pass positions. -/
def pinRegs : List Nat := R.LDG_ALERT_VRLOW.off :: (List.range 6).map (fun p => (R.PRT_STATE_STATE p).off)

/-- `d` is `c` but for the registers that hold VRLOW and the by-pass positions. -/
structure PinRegsOnly (c d : Core) : Prop where
  cword : ∀ off, off ∉ pinRegs → d.cword off = c.cword off
  rest : ∃ r, d = { c with creg := r }

namespace PinRegsOnly

theorem refl (c : Core) : PinRegsOnly c c := ⟨fun _ _ => rfl, c.creg, rfl⟩

theorem trans {c d e : Core} (h : PinRegsOnly c d) (k : PinRegsOnly d e) : PinRegsOnly c e := by
  obtain ⟨r, hr⟩ := h.rest
  obtain ⟨q, hq⟩ := k.rest
  exact ⟨fun off ho => (k.cword off ho).trans (h.cword off ho), q, by rw [hq, hr]⟩

theorem wr (c : Core) {f : Fld} (v : Nat) (hf : f.off ∈ pinRegs) : PinRegsOnly c (c.wr f v) :=
  ⟨fun _ ho => cword_wr_apart c f v _ fun h => ho (h ▸ hf), _, rfl⟩

end PinRegsOnly

theorem portState_mem_pinRegs {p : Nat} (hp : p < 6) : (R.PRT_STATE_STATE p).off ∈ pinRegs :=
  List.mem_cons_of_mem _ (List.mem_map_of_mem (List.mem_range.mpr hp))

theorem setBypos_pinRegs (c : Core) (v : Nat) : PinRegsOnly c (c.setBypos v) :=
  (PinRegsOnly.wr c (f := R.PRT_STATE_BYPOS 4) v (portState_mem_pinRegs (p := 4) (by decide))).trans
    (.wr _ (f := R.PRT_STATE_BYPOS 5) v (portState_mem_pinRegs (p := 5) (by decide)))

theorem setVrlow_pinRegs (c : Core) (low : Bool) : PinRegsOnly c (c.setVrlow low) := by
  refine .trans (foldl_keeps_mem (P := PinRegsOnly c) _ (fun d p hp hd => hd.trans ?_) c (.refl c)) (.wr _ _ List.mem_cons_self)
  exact .wr d (f := R.PRT_STATE_VRLOW p) _ (portState_mem_pinRegs (List.mem_range.mp hp))

/-- VRLOW shows in every port, and in the register that drives ALERT_N. -/
theorem setVrlow_rd (c : Core) (low : Bool) : (∀ p < 6, (c.setVrlow low).rd (R.PRT_STATE_VRLOW p) = b2n low)
    ∧ (c.setVrlow low).rd R.LDG_ALERT_VRLOW = b2n low := by
  have hbit : b2n low < 2 := by cases low <;> decide
  have hself (d : Core) (p : Nat) : (d.wr (R.PRT_STATE_VRLOW p) (b2n low)).rd (R.PRT_STATE_VRLOW p) = b2n low :=
    (Core.rd_wr_self d _ (b2n low) (show 52 + 1 ≤ 64 by decide)).trans (Nat.mod_eq_of_lt hbit)
  have hshown {p : Nat} (hp : p < 6) : ((List.range 6).foldl (fun c p => c.wr (R.PRT_STATE_VRLOW p) (b2n low)) c).rd (R.PRT_STATE_VRLOW p)
      = b2n low := by
    refine foldl_establishes (P := fun d : Core => d.rd (R.PRT_STATE_VRLOW p) = b2n low) (List.mem_range.mpr hp) (fun d => hself d p)
      (fun d q _ hd => ?_) c
    by_cases hqp : q = p
    · rw [hqp]; exact hself d p
    · exact (rd_wr_off d _ (by simp only [R.PRT_STATE_VRLOW]; omega)).trans hd
  unfold Core.setVrlow
  refine ⟨fun p hp => ?_, ?_⟩
  · rw [rd_wr_off _ _ (by simp only [R.PRT_STATE_VRLOW, R.LDG_ALERT_VRLOW]; omega)]
    exact hshown hp
  · exact (Core.rd_wr_self _ _ (b2n low) (show 3 + 1 ≤ 64 by decide)).trans (Nat.mod_eq_of_lt hbit)

/-- The positions are no part of what else a port's register holds from bit 8 up. -/
theorem setBypos_rd_other (c : Core) (v : Nat) {f : Fld} (hf : 8 ≤ f.lo) : (c.setBypos v).rd f = c.rd f := by
  have hapart (q : Nat) : (R.PRT_STATE_BYPOS q).apart f = true := by
    simp [Fld.apart, R.PRT_STATE_BYPOS]
    omega
  exact (Core.rd_wr_apart _ _ f v (show 4 + 4 ≤ 64 by decide) (hapart 5)).trans
    (Core.rd_wr_apart c _ f v (show 4 + 4 ≤ 64 by decide) (hapart 4))

/-- The positions are driven, or left, and nothing else changes. -/
theorem holdOpen_cases (s : State) : s.holdOpen = s ∨ ∃ v, s.holdOpen = { s with mach := s.mach.onCore (fun c => c.setBypos v) } := by
  unfold State.holdOpen
  split
  · exact .inr ⟨_, rfl⟩
  · exact .inl rfl

/-- Driving the positions leaves the machine but for the registers that hold them. -/
theorem holdOpen_spec (s : State) : ∃ c, s.holdOpen = { s with mach := { s.mach with core := c } } ∧ PinRegsOnly s.mach.core c
    ∧ ∀ f : Fld, f.off = R.LDG_ALERT_VRLOW.off ∨ 8 ≤ f.lo → c.rd f = s.mach.core.rd f := by
  obtain h | ⟨v, h⟩ := holdOpen_cases s
  · exact ⟨s.mach.core, h, .refl _, fun _ _ => rfl⟩
  · refine ⟨s.mach.core.setBypos v, h, setBypos_pinRegs _ v, fun f hf => ?_⟩
    obtain hf | hf := hf
    · have hoff {p : Nat} (hp : p < 6) : f.off ≠ (R.PRT_STATE_BYPOS p).off := by
        rw [hf]; simp only [R.LDG_ALERT_VRLOW, R.PRT_STATE_BYPOS]; omega
      exact (rd_wr_off _ v (hoff (p := 5) (by decide))).trans (rd_wr_off _ v (hoff (p := 4) (by decide)))
    · exact setBypos_rd_other _ v hf

/-! ## A full reset -/

/-- The control state after a full reset: everything empty and every register at its reset value, but the cause and the registers that
hold VRLOW and the by-pass positions. -/
structure Blank (cause : Nat) (c : Core) : Prop where
  queues : c.queues = {}
  net : c.net = {}
  mb : c.mb = {}
  led : c.led = {}
  fw : c.fw = {}
  last : c.rd R.STG_CAUSE_LAST = cause
  creg : ∀ off, off ∉ R.STG_CAUSE_LAST.off :: pinRegs → c.cword off = cResetWord off
  treg : ∀ t off, c.tword t off = tResetWord off

theorem fullReset_blank (c : Core) {cause : Nat} (h : cause < 8) : Blank cause (c.fullReset cause) where
  queues := rfl
  net := rfl
  mb := rfl
  led := rfl
  fw := rfl
  last := (Core.rd_wr_self _ _ _ (show 0 + 3 ≤ 64 by decide)).trans (Nat.mod_eq_of_lt h)
  creg := fun _ ho => cword_wr_apart _ _ _ _ fun e => ho (e ▸ List.mem_cons_self)
  treg := fun _ _ => rfl

/-- A change of VRLOW or of the positions leaves the rest blank. -/
theorem Blank.pinRegs {cause : Nat} {c d : Core} (h : Blank cause c) (k : PinRegsOnly c d) : Blank cause d := by
  have hcause : R.STG_CAUSE_LAST.off ∉ Machine.pinRegs := by decide
  obtain ⟨r, hr⟩ := k.rest
  refine ⟨?_, ?_, ?_, ?_, ?_, ?_, fun off ho => ?_, fun t off => ?_⟩
  · rw [hr]; exact h.queues
  · rw [hr]; exact h.net
  · rw [hr]; exact h.mb
  · rw [hr]; exact h.led
  · rw [hr]; exact h.fw
  · unfold Core.rd
    rw [k.cword _ hcause]
    exact h.last
  · rw [k.cword off fun hm => ho (List.mem_cons_of_mem _ hm)]
    exact h.creg off ho
  · rw [hr]; exact h.treg t off

/-- A full reset leaves the fuses, the test port and the queue, empties memory, and leaves control state blank. -/
theorem reset_spec (s : State) {cause : Nat} (notices : Bool) (h : cause < 8) : ∃ c, Blank cause c
    ∧ s.reset' cause notices = { s with mach := { core := c }, pwr := { s.pwr with comp := false, out := false } } :=
  ⟨_, (fullReset_blank _ h).pinRegs (setVrlow_pinRegs _ _), rfl⟩

/-! ## The by-pass closed -/

/-- No strand of a port is usable. -/
def Core.noUsable (c : Core) (p : Nat) : Prop := ∀ e < 2, ∀ l < nStrands p, c.sst p e l ∉ [2, 3]

/-- A link lost where it is usable. -/
def Core.loseLink (c : Core) (p l : Nat) : Core := if c.usable p 0 l || c.usable p 1 l then c.setLink p l 5 else c

/-- A ring port's links lost where they are usable. -/
def Core.loseLinks (c : Core) (p : Nat) : Core := (List.range 4).foldl (fun c l => c.loseLink p l) c

theorem sst_loseLink (c : Core) {p e l : Nat} (hp : p < 6) (he : e < 2) (hl : l < nStrands p) : (c.loseLink p l).sst p e l ∉ [2, 3] := by
  unfold Core.loseLink
  split
  · rw [sst_setLink c hp he hl (by decide)]
    split <;> decide
  · next h =>
    have hu : c.usable p e l = false := by
      simp only [Bool.or_eq_true, not_or, Bool.not_eq_true] at h
      obtain rfl | rfl : e = 0 ∨ e = 1 := by omega
      exacts [h.1, h.2]
    simpa [Core.usable] using hu

theorem loseLink_rd {p : Nat} {f : Fld} (h : outsideState p f) (c : Core) {l : Nat}
    (ha : ∀ d < 2, (R.PRT_STRAND_SSTATE p d l).apart f = true) : (c.loseLink p l).rd f = c.rd f := by
  unfold Core.loseLink
  split
  · exact setLink_rd h c 5 ha
  · rfl

theorem loseLinks_rd {p : Nat} {f : Fld} (h : outsideState p f) (c : Core)
    (ha : ∀ d < 2, ∀ l < 4, (R.PRT_STRAND_SSTATE p d l).apart f = true) : (c.loseLinks p).rd f = c.rd f :=
  foldl_same_mem (g := fun c : Core => c.rd f) _ (fun d l hl => loseLink_rd h d fun e he => ha e he l (List.mem_range.mp hl)) c

theorem loseLinks_tries (c : Core) (p : Nat) : (c.loseLinks p).ports.tries = c.ports.tries := by
  refine foldl_same (g := fun c : Core => c.ports.tries) (fun d l => ?_) _ c
  unfold Core.loseLink
  split
  · obtain ⟨ls, h⟩ := setLink_ports d p l 5
    rw [h]
  · rfl

theorem loseLinks_noUsable (c : Core) {p : Nat} (hp : p = 4 ∨ p = 5) : (c.loseLinks p).noUsable p := by
  intro e he l hl
  have hn : nStrands p = 4 := by obtain rfl | rfl := hp <;> rfl
  refine foldl_establishes (P := fun d : Core => d.sst p e l ∉ [2, 3]) (List.mem_range.mpr (by omega))
    (fun d => sst_loseLink d (by omega) he hl) (fun d k hk hd => ?_) c
  by_cases hkl : k = l
  · subst hkl
    exact sst_loseLink d (by omega) he hl
  · have hother : (d.loseLink p k).sst p e l = d.sst p e l :=
      loseLink_rd (outsideState_of_ge (by omega) (sstate_off_ge p e l)) d fun x hx =>
        sstate_apart hx he (by have := List.mem_range.mp hk; omega) (strand_lt hl) (.inr (.inr hkl))
    rwa [hother]

/-- A strand that trains again is not usable. -/
theorem noUsable_check {c d : Core} {p : Nat} (h : c.noUsable p) (k : CheckOnly p c d) : d.noUsable p := by
  intro e he l hl
  obtain hs | ⟨hs, -⟩ := k.sst e he l hl
  · rw [hs]; exact h e he l hl
  · rw [hs]; decide

/-- The strands of the other ports are not touched. -/
theorem noUsable_other {c d : Core} {p q : Nat} (hp : p < 6) (hq : q < 6) (hne : p ≠ q) (h : c.noUsable p) (k : CheckOnly q c d) :
    d.noUsable p := by
  intro e he l hl
  have hs : d.sst p e l = c.sst p e l := k.rd _ (sstate_page hp he hl) (outsideState_of_ge hq (sstate_off_ge p e l)) fun x hx m hm =>
    sstate_apart hx he (strand_lt hm) (strand_lt hl) (.inl hne.symm)
  rw [hs]; exact h e he l hl

theorem bypassClose_eq (c : Core) : c.bypassClose =
    ((({ c.setBypos 15 with ports := { c.ports with tries := [], failedAt := [] } } : Core).loseLinks 4).loseLinks 5 |>.checkPort 4).checkPort 5 :=
  rfl

/-- A closed by-pass shows at both ring ports; no attempt stands, and no ring strand is usable. -/
theorem bypassClose_spec (c : Core) : (∀ p, p = 4 ∨ p = 5 → c.bypassClose.rd (R.PRT_STATE_BYPOS p) = 15)
    ∧ c.bypassClose.ports.tries = [] ∧ c.bypassClose.noUsable 4 ∧ c.bypassClose.noUsable 5 := by
  rw [bypassClose_eq]
  generalize hd : ({ c.setBypos 15 with ports := { c.ports with tries := [], failedAt := [] } } : Core) = d
  have hlost4 : ((d.loseLinks 4).loseLinks 5).noUsable 4 := by
    intro e he l hl
    have hs : ((d.loseLinks 4).loseLinks 5).sst 4 e l = (d.loseLinks 4).sst 4 e l :=
      loseLinks_rd (outsideState_of_ge (by decide) (sstate_off_ge 4 e l)) _ fun x hx m hm =>
        sstate_apart hx he (by omega) (strand_lt hl) (.inl (by decide))
    rw [hs]; exact loseLinks_noUsable d (.inl rfl) e he l hl
  have hlost5 := loseLinks_noUsable (d.loseLinks 4) (p := 5) (.inr rfl)
  have htries : ((d.loseLinks 4).loseLinks 5).ports.tries = [] := by rw [loseLinks_tries, loseLinks_tries, ← hd]
  have hbypos {p : Nat} (hp : p = 4 ∨ p = 5) : ((d.loseLinks 4).loseLinks 5).rd (R.PRT_STATE_BYPOS p) = 15 := by
    have hkept (e : Core) (q : Nat) : (e.loseLinks q).rd (R.PRT_STATE_BYPOS p) = e.rd (R.PRT_STATE_BYPOS p) :=
      loseLinks_rd (bypos_outside q p) e fun x _ l _ => bypos_apart_sstate (by omega) q x l
    rw [hkept, hkept, ← hd]
    exact setBypos_rd c hp (by decide)
  generalize (d.loseLinks 4).loseLinks 5 = e at hlost4 hlost5 htries hbypos ⊢
  have hcheck4 := checkPort_check e (p := 4) (by decide)
  have hcheck5 := checkPort_check (e.checkPort 4) (p := 5) (by decide)
  refine ⟨fun p hp => ?_, hcheck5.tries.trans (hcheck4.tries.trans htries), noUsable_other (by decide) (by decide) (by decide)
    (noUsable_check hlost4 hcheck4) hcheck5, noUsable_check (noUsable_other (by decide) (by decide) (by decide) hlost5 hcheck4) hcheck5⟩
  have hkept {q : Nat} {x y : Core} (h : CheckOnly q x y) : y.rd (R.PRT_STATE_BYPOS p) = x.rd (R.PRT_STATE_BYPOS p) :=
    h.rd _ (bypos_page (by omega)) (bypos_outside q p) fun d _ l _ => bypos_apart_sstate (by omega) q d l
  rw [hkept hcheck5, hkept hcheck4, hbypos hp]

/-! ## The rows -/

section
variable (s : State)

theorem thermalTrip_completes (hon : s.pwr.on = true) (htrip : s.pwr.trip = false) :
    Completes .thermalTrip s (fun s' => s'.fuses = s.fuses ∧ s'.pwr.trip = true ∧ s'.thermtrip = true ∧ s'.mach.mem = []
      ∧ s'.mach.core.queues = {} ∧ s'.mach.core.rd R.STG_CAUSE_LAST = 3 ∧ s'.live = false) := by
  obtain ⟨c, hc, heq⟩ := reset_spec s (cause := 3) true (by decide)
  refine ⟨{ s.reset' 3 true with pwr := { (s.reset' 3 true).pwr with trip := true } }, ?_, ?_⟩
  · exact congrArg Host.Outcome.next (if_pos (by rw [hon, htrip]; rfl))
  · rw [heq]
    exact ⟨rfl, rfl, rfl, rfl, hc.queues, hc.last, by simp [State.live]⟩

theorem thermalTrip_idle (h : s.pwr.on = false ∨ s.pwr.trip = true) : Completes .thermalTrip s (fun s' => s' = s) :=
  ⟨s, congrArg Host.Outcome.next (if_neg (by obtain h | h := h <;> simp [h])), rfl⟩

theorem tripLatchClear_completes (cool : Bool) : Completes (.tripLatchClear cool) s (fun s' => s'.mach = s.mach ∧ s'.fuses = s.fuses
    ∧ s'.tap = s.tap ∧ s'.pwr = if cool && !s.pwr.fullRstN then { s.pwr with trip := false } else s.pwr) := by
  refine ⟨_, rfl, ?_⟩
  split
  · exact ⟨rfl, rfl, rfl, rfl⟩
  · exact ⟨rfl, rfl, rfl, rfl⟩

theorem vringLow_completes : Completes .vringLow s (fun s' => MemKept s s' ∧ s'.fuses = s.fuses ∧ s'.tap = s.tap
    ∧ s'.pwr = { s.pwr with vring := false } ∧ (∀ p < 6, s'.mach.core.rd (R.PRT_STATE_VRLOW p) = b2n s.pwr.on)
    ∧ (s.pwr.on = true → s'.alert = true)) := by
  obtain ⟨c, heq, -, hkept⟩ := holdOpen_spec { s with
    pwr := { s.pwr with vring := false }, mach := s.mach.onCore (fun c => c.setVrlow s.pwr.on) }
  obtain ⟨hports, halert⟩ := setVrlow_rd s.mach.core s.pwr.on
  refine ⟨_, congrArg Host.Outcome.next heq, ⟨rfl, rfl, rfl⟩, rfl, rfl, rfl, fun p hp => ?_, fun hon => ?_⟩
  · exact (hkept _ (.inr (show 8 ≤ 52 by decide))).trans (hports p hp)
  · have hshown : c.rd R.LDG_ALERT_VRLOW = 1 := (hkept _ (.inl rfl)).trans (halert.trans (by rw [hon]; rfl))
    simp [State.alert, hshown]

theorem vringRestored_completes : Completes .vringRestored s (fun s' => MemKept s s' ∧ s'.fuses = s.fuses ∧ s'.tap = s.tap
    ∧ s'.pwr = { s.pwr with vring := true } ∧ (∀ p < 6, s'.mach.core.rd (R.PRT_STATE_VRLOW p) = 0)
    ∧ s'.mach.core.rd R.LDG_ALERT_VRLOW = 0) := by
  obtain ⟨c, heq, -, hkept⟩ := holdOpen_spec { s with
    pwr := { s.pwr with vring := true }, mach := s.mach.onCore (fun c => (if s.pwr.on then c.conduct else c).setVrlow false) }
  obtain ⟨hports, halert⟩ := setVrlow_rd (if s.pwr.on then s.mach.core.conduct else s.mach.core) false
  exact ⟨_, congrArg Host.Outcome.next heq, ⟨rfl, rfl, rfl⟩, rfl, rfl, rfl,
    fun p hp => (hkept _ (.inr (show 8 ≤ 52 by decide))).trans (hports p hp), (hkept _ (.inl rfl)).trans halert⟩

theorem bypassClose_completes (hl : s.live = true) : Completes .bypassClose s (fun s' => MemKept s s' ∧ OutsideKept s s'
    ∧ s'.mach.core.rd (R.PRT_STATE_BYPOS 4) = 15 ∧ s'.mach.core.rd (R.PRT_STATE_BYPOS 5) = 15 ∧ s'.mach.core.ports.tries = []
    ∧ ∀ p l, p = 4 ∨ p = 5 → l < 4 → s'.mach.core.usable p 0 l = false ∧ s'.mach.core.usable p 1 l = false) := by
  refine completes_onCore (f := Core.bypassClose) rfl hl fun t hm ho ht => ⟨hm, ho, ?_⟩
  obtain ⟨hbypos, htries, h4, h5⟩ := bypassClose_spec s.mach.core
  rw [ht]
  refine ⟨hbypos 4 (.inl rfl), hbypos 5 (.inr rfl), htries, fun p l hp hl => ?_⟩
  have hnone (e : Nat) (he : e < 2) : s.mach.core.bypassClose.usable p e l = false := by
    have hsst : s.mach.core.bypassClose.sst p e l ∉ [2, 3] := by
      obtain rfl | rfl := hp
      exacts [h4 e he l hl, h5 e he l hl]
    simpa [Core.usable] using hsst
  exact ⟨hnone 0 (by decide), hnone 1 (by decide)⟩

end

/-- Settles O52, row by row. -/
theorem tripVringAndBypassAct : Obligations.TripVringAndBypassAct := by
  unfold Obligations.TripVringAndBypassAct
  exact fun s => ⟨thermalTrip_completes s, thermalTrip_idle s, tripLatchClear_completes s, vringLow_completes s,
    vringRestored_completes s, bypassClose_completes s⟩

end Sys2Proof.Machine
end

section
/-! Full resets and their release (R349, R350, R351, R368, R411; one step, log entry 5). -/

namespace Sys2Proof.Machine

/-! ## The straps sampled -/

/-- A field of no strand's register. -/
def offStrands (f : Fld) : Prop := f.off < 0x31000 ∨ 0x40000 ≤ f.off

theorem offStrands.apart {f : Fld} (h : offStrands f) {p d l : Nat} (hp : p < 6) (hd : d < 2) (hl : l < 64) :
    (R.PRT_STRAND_SSTATE p d l).apart f = true := by
  unfold offStrands at h
  exact apart_of_off_ne (by simp only [R.PRT_STRAND_SSTATE]; omega)

/-- A port's start: training of every link of a hub port; a ring port FAILED. -/
def Core.startPort (c : Core) (p : Nat) : Core :=
  if p < 4 then ((List.range 40).foldl (fun (c : Core) l => c.setLink p l 1) c).wr (R.PRT_STATE_STATE p) 1
  else (c.wr (R.PRT_STATE_STATE p) 5).wr (R.PRT_STATE_CAUSE p) 1

/-- The straps written. -/
def Core.setStraps (c : Core) (slot ward asm : Nat) : Core :=
  ((((c.wr R.STG_STRAP_SLOT slot).wr R.STG_STRAP_WARD ward).wr R.STG_STRAP_ASM asm).wr R.STG_STRAP_STRAPERR
    (b2n (strapErr slot asm))).wr R.PRT_SELF_SLOT slot

theorem strapIn_eq (c : Core) (slot ward asm : Nat) : c.strapIn slot ward asm =
    (List.range 6).foldl Core.startPort ((c.setStraps slot ward asm).wr (R.PRT_STATE_WARDEN ward) 1) := rfl

theorem startPort_rd {p : Nat} {f : Fld} (hp : p < 6) (ho : outsideState p f) (hf : offStrands f) (c : Core) :
    (c.startPort p).rd f = c.rd f := by
  unfold Core.startPort
  split
  · rw [rd_wr_state ho]
    exact foldl_same_mem (g := fun c : Core => c.rd f) _ (fun d l hl => setLink_rd ho d 1 fun e he =>
      hf.apart hp he (by have := List.mem_range.mp hl; omega)) c
  · rw [rd_wr_cause ho, rd_wr_state ho]

/-- A port started leaves the queues, and what the domain holds but for the links' records. -/
theorem startPort_rest (c : Core) (p : Nat) : (c.startPort p).queues = c.queues ∧ (c.startPort p).ports.hold = c.ports.hold := by
  have hlinks (c : Core) : ((List.range 40).foldl (fun (c : Core) l => c.setLink p l 1) c).queues = c.queues
      ∧ ((List.range 40).foldl (fun (c : Core) l => c.setLink p l 1) c).ports.hold = c.ports.hold := by
    refine ⟨foldl_same (g := Core.queues) (fun d l => ?_) _ c, foldl_same (g := fun c : Core => c.ports.hold) (fun d l => ?_) _ c⟩
    · have hset (c : Core) (e : Nat) : (c.setUnretired p e l 1).queues = c.queues := by
        unfold Core.setUnretired
        split <;> rfl
      rw [setLink_eq, hset, hset]
      rfl
    · obtain ⟨ls, h⟩ := setLink_ports d p l 1
      rw [h]
  unfold Core.startPort
  split
  · exact hlinks c
  · exact ⟨rfl, rfl⟩

/-- A hub port started is in training; a ring port is FAILED, with no partner. -/
theorem startPort_state (c : Core) (p : Nat) : (c.startPort p).rd (R.PRT_STATE_STATE p) = (if p < 4 then 1 else 5)
    ∧ (4 ≤ p → (c.startPort p).rd (R.PRT_STATE_CAUSE p) = 1) := by
  unfold Core.startPort
  split
  · exact ⟨Core.rd_wr_self _ _ 1 (show 0 + 3 ≤ 64 by decide), fun h => by omega⟩
  · refine ⟨?_, fun _ => Core.rd_wr_self _ _ 1 (show 32 + 4 ≤ 64 by decide)⟩
    rw [Core.rd_wr_apart _ _ _ _ (show 32 + 4 ≤ 64 by decide) (by simp [Fld.apart, R.PRT_STATE_CAUSE, R.PRT_STATE_STATE])]
    exact Core.rd_wr_self _ _ 5 (show 0 + 3 ≤ 64 by decide)

/-- The other ports' registers stand while one is started. -/
theorem startPort_other (c : Core) {p q : Nat} (hp : p < 6) (hq : q < 6) (hne : q ≠ p) {f : Fld} (hf : f.off = 0x30000 + 8 * q) :
    (c.startPort p).rd f = c.rd f :=
  startPort_rd hp (.inl (by omega)) (.inl (by omega)) c

theorem strapIn_ports (c : Core) {p : Nat} (hp : p < 6) (slot ward asm : Nat) :
    (c.strapIn slot ward asm).rd (R.PRT_STATE_STATE p) = (if p < 4 then 1 else 5)
      ∧ (4 ≤ p → (c.strapIn slot ward asm).rd (R.PRT_STATE_CAUSE p) = 1) := by
  rw [strapIn_eq]
  refine foldl_establishes (P := fun d : Core => d.rd (R.PRT_STATE_STATE p) = (if p < 4 then 1 else 5)
    ∧ (4 ≤ p → d.rd (R.PRT_STATE_CAUSE p) = 1)) (List.mem_range.mpr hp) (fun d => startPort_state d p) (fun d q hq hd => ?_) _
  by_cases hqp : q = p
  · rw [hqp]; exact startPort_state d p
  · have hkept {f : Fld} (hf : f.off = 0x30000 + 8 * p) := startPort_other d (List.mem_range.mp hq) hp (Ne.symm hqp) hf
    rwa [hkept (f := R.PRT_STATE_STATE p) rfl, hkept (f := R.PRT_STATE_CAUSE p) rfl]

/-- Past the straps themselves, sampling writes port states, WARDEN and the strands. -/
theorem strapIn_rd {f : Fld} (ho : ∀ p < 6, outsideState p f) (hf : offStrands f) (c : Core) (slot ward asm : Nat) :
    (c.strapIn slot ward asm).rd f = ((c.setStraps slot ward asm).wr (R.PRT_STATE_WARDEN ward) 1).rd f := by
  rw [strapIn_eq]
  exact foldl_same_mem (g := fun c : Core => c.rd f) _ (fun d p hp =>
    startPort_rd (List.mem_range.mp hp) (ho p (List.mem_range.mp hp)) hf d) _

theorem strapIn_warden (c : Core) {ward : Nat} (hw : ward < 4) (slot asm : Nat) :
    (c.strapIn slot ward asm).rd (R.PRT_STATE_WARDEN ward) = 1 := by
  rw [strapIn_rd (fun p _ => .inr ⟨show 3 ≤ 3 by decide, show 3 + 1 ≤ 8 by decide⟩)
    (.inl (show 0x30000 + 0x0000 + 8 * ward < 0x31000 by omega))]
  exact Core.rd_wr_self _ _ 1 (show 3 + 1 ≤ 64 by decide)

/-- Of the registers below the ledger's the straps alone are written. -/
theorem strapIn_rd_low {f : Fld} (hf : f.off < 0x20000) (c : Core) (slot ward asm : Nat) :
    (c.strapIn slot ward asm).rd f = (c.setStraps slot ward asm).rd f := by
  rw [strapIn_rd (fun p _ => .inl (by omega)) (.inl (by omega))]
  exact rd_wr_off _ 1 (by simp only [R.PRT_STATE_WARDEN]; omega)

/-- The straps read back as sampled. -/
theorem setStraps_rd (c : Core) {slot ward asm : Nat} (hs : slot < 16) (hw : ward < 4) (ha : asm < 8) :
    (c.setStraps slot ward asm).rd R.STG_STRAP_SLOT = slot ∧ (c.setStraps slot ward asm).rd R.STG_STRAP_WARD = ward
      ∧ (c.setStraps slot ward asm).rd R.STG_STRAP_ASM = asm
      ∧ (c.setStraps slot ward asm).rd R.STG_STRAP_STRAPERR = b2n (strapErr slot asm) := by
  have hself (d : Core) (f : Fld) (v : Nat) (hf : f.lo + f.w ≤ 64) (hv : v < 2 ^ f.w) : (d.wr f v).rd f = v :=
    (Core.rd_wr_self d f v hf).trans (Nat.mod_eq_of_lt hv)
  have herr : b2n (strapErr slot asm) < 2 := by cases strapErr slot asm <;> decide
  have hkept (d : Core) (f g : Fld) (v : Nat) (hf : f.lo + f.w ≤ 64 ∧ f.apart g = true) : (d.wr f v).rd g = d.rd g :=
    Core.rd_wr_apart d f g v hf.1 hf.2
  unfold Core.setStraps
  refine ⟨?_, ?_, ?_, ?_⟩
  · rw [hkept _ _ _ _ (by decide), hkept _ _ _ _ (by decide), hkept _ _ _ _ (by decide), hkept _ _ _ _ (by decide)]
    exact hself c R.STG_STRAP_SLOT slot (by decide) hs
  · rw [hkept _ _ _ _ (by decide), hkept _ _ _ _ (by decide), hkept _ _ _ _ (by decide)]
    exact hself _ R.STG_STRAP_WARD ward (by decide) hw
  · rw [hkept _ _ _ _ (by decide), hkept _ _ _ _ (by decide)]
    exact hself _ R.STG_STRAP_ASM asm (by decide) ha
  · rw [hkept _ _ _ _ (by decide)]
    exact hself _ R.STG_STRAP_STRAPERR _ (by decide) herr

theorem strapIn_straps (c : Core) {slot ward asm : Nat} (hs : slot < 16) (hw : ward < 4) (ha : asm < 8) :
    (c.strapIn slot ward asm).rd R.STG_STRAP_SLOT = slot ∧ (c.strapIn slot ward asm).rd R.STG_STRAP_WARD = ward
      ∧ (c.strapIn slot ward asm).rd R.STG_STRAP_ASM = asm
      ∧ (c.strapIn slot ward asm).rd R.STG_STRAP_STRAPERR = b2n (strapErr slot asm) := by
  rw [strapIn_rd_low (by decide), strapIn_rd_low (by decide), strapIn_rd_low (by decide), strapIn_rd_low (by decide)]
  exact setStraps_rd c hs hw ha

/-- Registers below the ledger's, but the straps', stand. -/
theorem strapIn_low {f : Fld} (hf : f.off < 0x20000) (hne : f.off ≠ R.STG_STRAP_SLOT.off) (c : Core) (slot ward asm : Nat) :
    (c.strapIn slot ward asm).rd f = c.rd f := by
  have hself : f.off ≠ R.PRT_SELF_SLOT.off := by simp only [R.PRT_SELF_SLOT]; omega
  rw [strapIn_rd_low hf]
  unfold Core.setStraps
  rw [rd_wr_off _ _ hself, rd_wr_off _ (g := R.STG_STRAP_STRAPERR) _ hne, rd_wr_off _ (g := R.STG_STRAP_ASM) _ hne,
    rd_wr_off _ (g := R.STG_STRAP_WARD) _ hne, rd_wr_off _ (g := R.STG_STRAP_SLOT) _ hne]

theorem strapIn_rest (c : Core) (slot ward asm : Nat) : (c.strapIn slot ward asm).queues = c.queues
    ∧ (c.strapIn slot ward asm).ports.hold = c.ports.hold := by
  rw [strapIn_eq]
  exact ⟨foldl_same (g := Core.queues) (fun d p => (startPort_rest d p).1) _ _,
    foldl_same (g := fun c : Core => c.ports.hold) (fun d p => (startPort_rest d p).2) _ _⟩

end Sys2Proof.Machine
end

section
/-! The rows of a full reset, of the supplies and of the release (R349, R350, R351, R368, R411; one step, log entry 5). -/

namespace Sys2Proof.Machine

/-- What a full reset leaves of a state. -/
def Cleared (s : State) (cause : Nat) (s' : State) : Prop :=
  s'.fuses = s.fuses ∧ s'.mach.mem = [] ∧ s'.mach.errs = [] ∧ s'.mach.corr = [] ∧ s'.mach.core.queues = {} ∧ s'.mach.core.net = {}
    ∧ s'.mach.core.mb = {} ∧ s'.mach.core.led = {} ∧ s'.mach.core.fw = {} ∧ s'.mach.core.rd R.STG_CAUSE_LAST = cause
    ∧ (∀ off, off ∉ R.STG_CAUSE_LAST.off :: pinRegs → s'.mach.core.cword off = cResetWord off)
    ∧ ∀ t off, s'.mach.core.tword t off = tResetWord off

theorem Blank.cleared {cause : Nat} {s s' : State} {c : Core} (h : Blank cause c) (hm : s'.mach = { core := c })
    (hf : s'.fuses = s.fuses) : Cleared s cause s' := by
  obtain ⟨hqueues, hnet, hmb, hled, hfw, hlast, hcreg, htreg⟩ := h
  rw [Cleared, hm]
  exact ⟨hf, rfl, rfl, rfl, hqueues, hnet, hmb, hled, hfw, hlast, hcreg, htreg⟩

/-! ## FULL_RST_N, PWRGOOD and the supplies -/

section
variable (s : State)

theorem fullLow_resets (hon : s.pwr.on = true) (hrst : s.pwr.fullRstN = true) (htrip : s.pwr.trip = false) :
    Cleared s 1 s.fullLow ∧ s.fullLow.tap = s.tap ∧ s.fullLow.pwr.fullRstN = false := by
  obtain ⟨c, hc, heq⟩ := reset_spec s (cause := 1) true (by decide)
  obtain ⟨d, hopen, hpins, -⟩ := holdOpen_spec { s.reset' 1 true with pwr := { (s.reset' 1 true).pwr with fullRstN := false } }
  have hlow : s.fullLow = State.holdOpen { s.reset' 1 true with pwr := { (s.reset' 1 true).pwr with fullRstN := false } } := by
    unfold State.fullLow
    rw [hon, hrst, htrip]
    rfl
  rw [hlow, hopen]
  rw [heq] at hpins ⊢
  exact ⟨(hc.pinRegs hpins).cleared rfl rfl, rfl, rfl⟩

/-- With the trip latch set the pin shows alone. -/
theorem fullLow_tripped (hon : s.pwr.on = true) (hrst : s.pwr.fullRstN = true) (htrip : s.pwr.trip = true) :
    MemKept s s.fullLow ∧ s.fullLow.fuses = s.fuses ∧ s.fullLow.tap = s.tap ∧ s.fullLow.pwr = { s.pwr with fullRstN := false } := by
  have hlow : s.fullLow = State.holdOpen { s with pwr := { s.pwr with fullRstN := false } } := by
    unfold State.fullLow
    rw [hon, hrst, htrip]
    rfl
  obtain ⟨d, hopen, -⟩ := holdOpen_spec { s with pwr := { s.pwr with fullRstN := false } }
  rw [hlow, hopen]
  exact ⟨⟨rfl, rfl, rfl⟩, rfl, rfl, rfl⟩

theorem fullLow_idle (h : s.pwr.on = false ∨ s.pwr.fullRstN = false) : s.fullLow = s :=
  if_neg (by obtain h | h := h <;> simp [h])

theorem supplyLoss_completes (hon : s.pwr.on = true) :
    Completes .supplyLoss s (fun s' => Cleared s 0 s' ∧ s'.pwr.on = false ∧ s'.pwr.trip = false ∧ s'.tap = {}) := by
  obtain ⟨c, hc, heq⟩ := reset_spec s (cause := 0) false (by decide)
  refine ⟨_, congrArg Host.Outcome.next (if_pos hon), ?_⟩
  rw [heq]
  exact ⟨hc.cleared rfl rfl, rfl, rfl, rfl⟩

theorem supplyLoss_idle (hon : s.pwr.on = false) : Completes .supplyLoss s (fun s' => s' = s) :=
  ⟨s, congrArg Host.Outcome.next (if_neg (by simp [hon])), rfl⟩

/-- With FULL_RST_N low and no instruction that drives the bumps, the positions stand as VRING has them. -/
theorem holdOpen_low {t : State} (hon : t.pwr.on = true) (hrst : t.pwr.fullRstN = false) (hir : bumpDriving t.tap.ir = false) :
    t.holdOpen = { t with mach := t.mach.onCore (fun c => c.setBypos (if t.pwr.vring then 15 else 0)) } := by
  unfold State.holdOpen
  rw [hon, hrst, hir]
  cases t.pwr.vring <;> rfl

theorem powerOn_completes (hon : s.pwr.on = false) :
    Completes .powerOn s (fun s' => Cleared s 0 s' ∧ s'.pwr.on = true ∧ s'.pwr.fullRstN = false ∧ s'.tap = {}
      ∧ ∀ p, p = 4 ∨ p = 5 → s'.mach.core.rd (R.PRT_STATE_BYPOS p) = if s.pwr.vring then 15 else 0) := by
  obtain ⟨c, hc, heq⟩ := reset_spec s (cause := 0) false (by decide)
  have hvrlow := setVrlow_pinRegs c (!s.pwr.vring)
  refine ⟨_, congrArg Host.Outcome.next ((if_neg (by simp [hon])).trans (holdOpen_low rfl rfl rfl)), ?_⟩
  rw [heq]
  refine ⟨((hc.pinRegs hvrlow).pinRegs (setBypos_pinRegs _ _)).cleared rfl rfl, rfl, rfl, rfl, fun p hp => ?_⟩
  exact setBypos_rd _ hp (by split <;> decide)

theorem powerOn_idle (hon : s.pwr.on = true) : Completes .powerOn s (fun s' => s' = s) :=
  ⟨s, congrArg Host.Outcome.next (if_pos hon), rfl⟩

end

/-! ## The release -/

/-- With the trip latch clear the release samples the straps, over a machine whose positions alone have moved. -/
theorem rise_samples {s : State} (htrip : s.pwr.trip = false) (slot ward asm : Nat) (comp : Bool) : ∃ c, PinRegsOnly s.mach.core c ∧
    (s.rise slot ward asm comp).mach = { s.mach with core :=
      ({ c with ports := { c.ports with hold := comp } } : Core).strapIn slot ward asm }
    ∧ (s.rise slot ward asm comp).fuses = s.fuses
    ∧ (s.rise slot ward asm comp).pwr = { s.pwr with fullRstN := true, compRstN := !comp, comp := comp } := by
  obtain ⟨c, hopen, hpins, -⟩ := holdOpen_spec { s with tap := if bumpDriving s.tap.ir then s.tap.toReset else s.tap }
  refine ⟨c, hpins, ?_⟩
  unfold State.rise
  dsimp only
  rw [hopen, if_neg (by simp [htrip])]
  exact ⟨rfl, rfl, rfl⟩

section
variable {s : State} {slot ward asm : Nat} (hs : slot < 16) (hw : ward < 4) (ha : asm < 8)
include hs hw ha

theorem fullRstNRise_exec (comp : Bool) : exec (.fullRstNRise slot ward ⟨asm, comp⟩) s
    = .next (if s.pwr.on && !s.pwr.fullRstN then s.rise slot ward asm comp else s) := by
  show onlyIf (decide (slot < 16) && decide (ward < 4) && decide (asm < 8)) _ = _
  rw [decide_eq_true hs, decide_eq_true hw, decide_eq_true ha]
  rfl

theorem fullRstNRise_completes (comp : Bool) (hon : s.pwr.on = true) (hrst : s.pwr.fullRstN = false) (htrip : s.pwr.trip = false) :
    Completes (.fullRstNRise slot ward ⟨asm, comp⟩) s (fun s' => MemKept s s' ∧ s'.fuses = s.fuses ∧ s'.pwr.fullRstN = true
      ∧ s'.pwr.compRstN = !comp ∧ s'.pwr.comp = comp ∧ s'.mach.core.ports.hold = comp
      ∧ s'.mach.core.rd R.STG_STRAP_SLOT = slot ∧ s'.mach.core.rd R.STG_STRAP_WARD = ward ∧ s'.mach.core.rd R.STG_STRAP_ASM = asm
      ∧ s'.mach.core.rd R.STG_STRAP_STRAPERR = b2n (strapErr slot asm) ∧ s'.mach.core.rd (R.PRT_STATE_WARDEN ward) = 1
      ∧ (∀ p < 4, s'.mach.core.rd (R.PRT_STATE_STATE p) = 1)
      ∧ ∀ p, p = 4 ∨ p = 5 → s'.mach.core.rd (R.PRT_STATE_STATE p) = 5 ∧ s'.mach.core.rd (R.PRT_STATE_CAUSE p) = 1) := by
  obtain ⟨c, -, hmach, hfuses, hpwr⟩ := rise_samples htrip slot ward asm comp
  refine ⟨s.rise slot ward asm comp, (fullRstNRise_exec hs hw ha comp).trans (by rw [hon, hrst]; rfl), ?_⟩
  dsimp only
  rw [MemKept, hmach, hfuses, hpwr]
  obtain ⟨hslot, hward, hasm, herr⟩ := strapIn_straps { c with ports := { c.ports with hold := comp } } hs hw ha
  have hports {p : Nat} (hp : p < 6) := strapIn_ports { c with ports := { c.ports with hold := comp } } hp slot ward asm
  refine ⟨⟨rfl, rfl, rfl⟩, rfl, rfl, rfl, rfl, (strapIn_rest _ slot ward asm).2, hslot, hward, hasm, herr, strapIn_warden _ hw slot asm,
    fun p hp => ?_, fun p hp => ?_⟩
  · obtain ⟨hstate, -⟩ := hports (p := p) (by omega)
    rw [hstate, if_pos hp]
  · obtain ⟨hstate, hcause⟩ := hports (p := p) (by omega)
    rw [hstate, if_neg (by omega)]
    exact ⟨rfl, hcause (by omega)⟩

/-- With the trip latch set the chiplet stays in reset, and no strap is sampled. -/
theorem fullRstNRise_tripped (comp : Bool) (hon : s.pwr.on = true) (hrst : s.pwr.fullRstN = false) (htrip : s.pwr.trip = true) :
    Completes (.fullRstNRise slot ward ⟨asm, comp⟩) s (fun s' => s'.pwr.fullRstN = true ∧ s'.live = false
      ∧ s'.mach.core.cword R.STG_STRAP_SLOT.off = s.mach.core.cword R.STG_STRAP_SLOT.off) := by
  obtain ⟨c, hopen, hpins, -⟩ := holdOpen_spec { s with tap := if bumpDriving s.tap.ir then s.tap.toReset else s.tap }
  refine ⟨s.rise slot ward asm comp, (fullRstNRise_exec hs hw ha comp).trans (by rw [hon, hrst]; rfl), ?_⟩
  unfold State.rise
  dsimp only
  rw [hopen, if_pos htrip]
  exact ⟨rfl, by simp [State.live, htrip], hpins.cword _ (by decide)⟩

theorem fullRstNRise_idle (comp : Bool) (h : s.pwr.on = false ∨ s.pwr.fullRstN = true) :
    Completes (.fullRstNRise slot ward ⟨asm, comp⟩) s (fun s' => s' = s) :=
  ⟨s, (fullRstNRise_exec hs hw ha comp).trans (congrArg Host.Outcome.next (if_neg (by obtain h | h := h <;> simp [h]))), rfl⟩

end

/-! ## MB_RESET -/

/-- The requests that MB_RESET_FULL answers before the reset. -/
def State.resetAnswered (s : State) (r : MbReq) : State :=
  { s with mach := s.mach.onCore (fun c =>
    ((c.mb.reqs.filter (fun (x : MbReq) => x.started && decide (x.cmd = 0x10))).foldl (fun (c : Core) x =>
      c.mbAnswer x stRESET 0 [] true) c).mbAnswer r stOK 0 [] true) }

/-- MB_RESET_FULL whose turn it is: a full reset, and its release with the straps as they stand. -/
theorem mbResetFull_exec {s : State} {r : MbReq} (hl : s.live = true) (hturn : s.mach.core.mbTurn (mbReset true) = some r) :
    exec .mbResetFull s = .next (((s.resetAnswered r).reset' 2 true).rise (s.mach.core.rd R.STG_STRAP_SLOT)
      (s.mach.core.rd R.STG_STRAP_WARD) (s.mach.core.rd R.STG_STRAP_ASM) false) := by
  show execMbResetFull s = _
  unfold execMbResetFull
  rw [hturn]
  exact congrArg Host.Outcome.next (if_pos hl)

theorem mbResetFull_completes {s : State} {r : MbReq} (h : Turn s (mbReset true) r) :
    Completes .mbResetFull s (fun s' => s'.fuses = s.fuses ∧ s'.mach.mem = [] ∧ s'.mach.core.queues = {} ∧ s'.pwr.fullRstN = true
      ∧ s'.mach.core.rd R.STG_CAUSE_LAST = 2 ∧ s'.mach.core.rd R.STG_STATUS_STAGE = 0
      ∧ ∀ f ∈ [R.STG_STRAP_SLOT, R.STG_STRAP_WARD, R.STG_STRAP_ASM], s'.mach.core.rd f = s.mach.core.rd f) := by
  obtain ⟨hl, hhead, hmine, -, hfree, -⟩ := h
  have hturn : s.mach.core.mbTurn (mbReset true) = some r := by simp [Core.mbTurn, hhead, hmine, hfree]
  have htrip : s.pwr.trip = false := by
    simp only [State.live, Bool.and_eq_true, Bool.not_eq_true'] at hl
    exact hl.1.2
  obtain ⟨c, hc, heq⟩ := reset_spec (s.resetAnswered r) (cause := 2) true (by decide)
  obtain ⟨d, hpins, hmach, hfuses, hpwr⟩ := rise_samples (s := (s.resetAnswered r).reset' 2 true) (by rw [heq]; exact htrip)
    (s.mach.core.rd R.STG_STRAP_SLOT) (s.mach.core.rd R.STG_STRAP_WARD) (s.mach.core.rd R.STG_STRAP_ASM) false
  rw [heq] at hpins
  have hd := hc.pinRegs hpins
  obtain ⟨hslot, hward, hasm, -⟩ := strapIn_straps { d with ports := { d.ports with hold := false } }
    (Core.rd_lt s.mach.core R.STG_STRAP_SLOT) (Core.rd_lt s.mach.core R.STG_STRAP_WARD) (Core.rd_lt s.mach.core R.STG_STRAP_ASM)
  refine ⟨_, mbResetFull_exec hl hturn, ?_⟩
  dsimp only
  rw [hmach, hfuses, hpwr, heq]
  refine ⟨rfl, rfl, (strapIn_rest _ _ _ _).1.trans hd.queues, rfl, (strapIn_low (by decide) (by decide) _ _ _ _).trans hd.last,
    (strapIn_low (by decide) (by decide) _ _ _ _).trans ?_, fun f hf => ?_⟩
  · have hword : d.cword R.STG_STATUS_STAGE.off = cResetWord R.STG_STATUS_STAGE.off := hd.creg _ (by decide)
    show fldGet R.STG_STATUS_STAGE (d.cword R.STG_STATUS_STAGE.off) = 0
    rw [hword]
    decide
  · simp only [List.mem_cons, List.not_mem_nil, or_false] at hf
    obtain rfl | rfl | rfl := hf
    exacts [hslot, hward, hasm]

/-- Settles O51, row by row: one step carries out a full reset, and the release samples the straps at once (log entry 5). -/
theorem fullResetsClearAndRelease : Obligations.FullResetsClearAndRelease := by
  unfold Obligations.FullResetsClearAndRelease
  intro s c but cleared
  refine ⟨fun i hi => ?low, fun r => mbResetFull_completes, fun slot ward asm comp hs hw ha => ⟨fullRstNRise_completes hs hw ha comp,
    fullRstNRise_tripped hs hw ha comp, fullRstNRise_idle hs hw ha comp⟩, supplyLoss_completes s, supplyLoss_idle s,
    powerOn_completes s, powerOn_idle s⟩
  have hexec : exec i s = .next s.fullLow := by
    simp only [List.mem_cons, List.not_mem_nil, or_false] at hi
    obtain rfl | rfl := hi <;> rfl
  exact ⟨fun hon hrst htrip => ⟨_, hexec, fullLow_resets s hon hrst htrip⟩,
    fun hon hrst htrip => ⟨_, hexec, fullLow_tripped s hon hrst htrip⟩,
    fun h => ⟨_, hexec, fullLow_idle s h⟩⟩

end Sys2Proof.Machine
end

section
/-! What answering requests leaves of the registers and the bell, and rows that act on control state alone (R330, R331). -/

namespace Sys2Proof.Machine

/-- A field reads as before where its register does. -/
theorem rd_of_cword {c d : Core} {f : Fld} (h : d.cword f.off = c.cword f.off) : d.rd f = c.rd f := by unfold Core.rd; rw [h]

/-! ## What answers write -/

/-- What answering requests of the six ports writes: registers of the mailboxes and of the network. It adds no request. -/
structure MailboxOnly (c d : Core) : Prop where
  cword : ∀ off, off < 0x400000 → ¬ (0x60100 ≤ off ∧ off < 0x60130) → d.cword off = c.cword off
  treg : d.treg = c.treg
  bell : d.bell = c.bell
  reqs : ∀ x ∈ d.mb.reqs, x ∈ c.mb.reqs

namespace MailboxOnly

theorem refl (c : Core) : MailboxOnly c c := ⟨fun _ _ _ => rfl, rfl, rfl, fun _ h => h⟩

theorem trans {c d e : Core} (h : MailboxOnly c d) (k : MailboxOnly d e) : MailboxOnly c e :=
  ⟨fun off hlt hmb => (k.cword off hlt hmb).trans (h.cword off hlt hmb), k.treg.trans h.treg, k.bell.trans h.bell,
    fun x hx => h.reqs x (k.reqs x hx)⟩

/-- A write of a mailbox's register. -/
theorem wr (c : Core) {f : Fld} (v : Nat) (hlo : 0x60100 ≤ f.off) (hhi : f.off < 0x60130) : MailboxOnly c (c.wr f v) :=
  ⟨fun off _ hmb => cword_wr_apart c f v off fun h => hmb (h ▸ ⟨hlo, hhi⟩), rfl, rfl, fun _ h => h⟩

theorem of_netOnly {c d : Core} (h : NetOnly c d) : MailboxOnly c d :=
  ⟨fun off hlt _ => h.creg off hlt, h.treg, h.bell, fun x hx => by rwa [h.mb] at hx⟩

theorem rd {c d : Core} (h : MailboxOnly c d) (f : Fld) (hlt : f.off < 0x400000 := by decide)
    (hmb : ¬ (0x60100 ≤ f.off ∧ f.off < 0x60130) := by decide) : d.rd f = c.rd f := rd_of_cword (h.cword _ hlt hmb)

end MailboxOnly

theorem mbAnswer_mailboxOnly (c : Core) {r : MbReq} (hr : r.port < 6) (st detail : Nat) (body : List Byte) :
    MailboxOnly c (c.mbAnswer r st detail body) := by
  have hclose : MailboxOnly c (c.mbClose r (c.mbPacket r st detail body)) := by
    refine (MailboxOnly.wr c (f := R.CH_MBSTAT_BUSY r.port) (setBit (c.rd (R.CH_MBSTAT_BUSY r.port)) r.slot false)
      (by simp only [R.CH_MBSTAT_BUSY]; omega) (by simp only [R.CH_MBSTAT_BUSY]; omega)).trans ?_
    exact ⟨fun _ _ _ => rfl, rfl, rfl, fun x hx => List.mem_of_mem_filter hx⟩
  rw [mbAnswer_eq]
  refine hclose.trans ?_
  unfold Core.mbSend
  split
  · exact .wr _ _ (by simp only [R.CH_MBSTAT_NORESP]; omega) (by simp only [R.CH_MBSTAT_NORESP]; omega)
  · exact .of_netOnly (injectTo_spec _ _ _ _).1

theorem mbDrain_mailboxOnly (n : Nat) {c : Core} (h : ∀ x ∈ c.mb.reqs, x.port < 6) : MailboxOnly c (Core.mbDrain n c) := by
  induction n generalizing c with
  | zero => exact .refl c
  | succ n ih =>
    unfold Core.mbDrain
    split
    · exact .refl c
    · next r hr =>
      split
      · exact .refl c
      · next st d _ =>
        have hone := mbAnswer_mailboxOnly c (h r (List.mem_of_find?_eq_some hr)) st d []
        exact hone.trans (ih fun x hx => h x (hone.reqs x hx))

theorem mbFinish_mailboxOnly {c : Core} {r : MbReq} (hr : r.port < 6) (h : ∀ x ∈ c.mb.reqs, x.port < 6) (st detail : Nat)
    (body : List Byte) : MailboxOnly c (c.mbFinish r st detail body) := by
  have hone := mbAnswer_mailboxOnly c hr st detail body
  exact hone.trans (mbDrain_mailboxOnly _ fun x hx => h x (hone.reqs x hx))

/-! ## A row that acts on control state alone -/

/-- Every request of a state whose row's turn it is came in by one of the six ports; so it is once that row's request has begun. -/
theorem turn_ports {s : State} {mine : MbReq → Bool} {r : MbReq} (ht : Turn s mine r) (now : Nat) :
    ∀ x ∈ (s.mach.core.putReq (r.begun now)).mb.reqs, x.port < 6 := by
  obtain ⟨-, hh, -, -, -, -, hslots⟩ := ht
  intro x hx
  obtain ⟨y, hy, rfl⟩ := List.mem_map.mp hx
  split
  · exact (hslots r (List.mem_of_find?_eq_some hh)).1
  · exact (hslots y hy).1

/-- The row whose turn it is, where it acts on control state alone, completes with its effect and responds; the answers write
registers of the mailboxes and of the network. -/
theorem completes_act {i : Instr} {s : State} {mine : MbReq → Bool} {f : Core → MbReq → Core × Nat × Nat × List Byte} {r : MbReq}
    {P : State → Prop} {d : Core} {st detail : Nat} {body : List Byte} (ht : Turn s mine r)
    (hi : exec i s = s.onMach (fun m => m.mbAct mine f))
    (hf : f (s.mach.core.putReq (r.begun s.mach.core.now)) (r.begun s.mach.core.now) = (d, st, detail, body))
    (hmb : d.mb = (s.mach.core.putReq (r.begun s.mach.core.now)).mb) (hst : st < 256) (hdetail : detail < 2 ^ 32)
    (h : ∀ t, MemKept s t → Responds t r st detail body → MailboxOnly d t.mach.core → P t) : Completes i s P := by
  refine completes_turn ht hi fun hport t he => ?_
  rw [mbRun_done (m := s.mach.onCore (fun c => c.putReq (r.begun s.mach.core.now)))
    (m' := { s.mach with core := d }) (st := st) (d := detail) (b := body) (by dsimp only [Mach.onCore]; rw [hf])] at he
  refine h t (by rw [MemKept, he]; exact ⟨rfl, rfl, rfl⟩)
    (mbFinish_responds (r := r.begun s.mach.core.now) hport hst hdetail (by rw [he]; rfl)) ?_
  rw [he]
  exact mbFinish_mailboxOnly (r := r.begun s.mach.core.now) hport (by rw [hmb]; exact turn_ports ht _) st detail body

end Sys2Proof.Machine
end

section
/-! MB_SELF, MB_BELLCFG, MB_JOB_START and MB_ROLE (R272, R293, R299, R305). -/

namespace Sys2Proof.Machine

/-! ## Several fields written -/

/-- Fields copied from an image leave those that stand apart from each of them. -/
theorem copyFlds_rd_apart {fs : List Fld} {g : Fld} (hw : ∀ f ∈ fs, f.lo + f.w ≤ 64) (h : ∀ f ∈ fs, f.apart g = true) (c : Core)
    (img : Nat) : (c.copyFlds img fs).rd g = c.rd g :=
  foldl_same_mem (g := fun c => Core.rd c g) fs (fun c f hf => Core.rd_wr_apart c f g _ (hw f hf) (h f hf)) c

/-- Fields that stand apart from each other, copied from an image, each read as the image's bits. -/
theorem copyFlds_rd_mem {fs : List Fld} {g : Fld} (hw : ∀ f ∈ fs, f.lo + f.w ≤ 64) (hp : fs.Pairwise (fun f k => k.apart f = true))
    (hg : g ∈ fs) (c : Core) (img : Nat) : (c.copyFlds img fs).rd g = bits img g.lo g.w := by
  induction fs generalizing c with
  | nil => simp at hg
  | cons f fs ih =>
    obtain ⟨hhead, htail⟩ := List.pairwise_cons.mp hp
    have hws : ∀ k ∈ fs, k.lo + k.w ≤ 64 := fun k hk => hw k (List.mem_cons_of_mem f hk)
    rcases List.mem_cons.mp hg with rfl | hmem
    · refine (copyFlds_rd_apart hws hhead (c.copyFld img g) img).trans ?_
      exact (Core.rd_wr_self c g _ (hw g hg)).trans (Nat.mod_eq_of_lt (bits_lt _ _ _))
    · exact ih hws htail hmem (c.copyFld img f)

theorem copyFlds_mb (c : Core) (img : Nat) (fs : List Fld) : (c.copyFlds img fs).mb = c.mb :=
  foldl_same (g := Core.mb) (fun c f => Core.wr_mb c f _) fs c

/-- A field of a request's body is below the power of two that its bytes span. -/
theorem field_lt (r : MbReq) (lo n : Nat) : r.field lo n < 256 ^ n :=
  (ofBytes_lt _).trans_le (Nat.pow_le_pow_right (by decide) (List.length_take_le n _))

/-- A request's body is the same once it has begun. -/
theorem begun_field (r : MbReq) (now lo n : Nat) : (r.begun now).field lo n = r.field lo n := rfl

/-! ## MB_SELF (R272) -/

/-- The fields of PRT_SELF that MB_SELF writes, and those of PRT_HUBMAP. -/
def selfFlds : List Fld := [R.PRT_SELF_PLANE, R.PRT_SELF_X, R.PRT_SELF_Y, R.PRT_SELF_Z, R.PRT_SELF_XNM1, R.PRT_SELF_YNM1,
  R.PRT_SELF_ZNM1, R.PRT_SELF_VALID]
def hubFlds : List Fld := [R.PRT_HUBMAP_PORTS0, R.PRT_HUBMAP_PORTS1, R.PRT_HUBMAP_SPACEHUB]

theorem mbSelf_within {c : Core} {r : MbReq} (h : (bits (r.field 0 8) 19 5 + 1) * (bits (r.field 0 8) 24 5 + 1)
      * (bits (r.field 0 8) 29 4 + 1) * perAssembly (c.rd R.STG_STRAP_ASM) ≤ scaleOf (c.rd R.CH_HMSTAT_SCALE)) :
    c.mbSelf r = ((c.copyFlds (r.field 0 8) selfFlds).copyFlds (r.field 8 8) hubFlds, stOK, 0, []) :=
  if_neg (Nat.not_lt.mpr h)

theorem mbSelf_completes {s : State} {r : MbReq} (ht : Turn s (mbIs 0x30) r)
    (h : (bits (r.field 0 8) 19 5 + 1) * (bits (r.field 0 8) 24 5 + 1) * (bits (r.field 0 8) 29 4 + 1)
      * perAssembly (s.mach.core.rd R.STG_STRAP_ASM) ≤ scaleOf (s.mach.core.rd R.CH_HMSTAT_SCALE)) :
    Completes .mbSelf s (fun s' => MemKept s s' ∧ Responds s' r stOK 0 [] ∧
      (∀ f ∈ selfFlds, s'.mach.core.rd f = bits (r.field 0 8) f.lo f.w)
        ∧ s'.mach.core.rd R.PRT_SELF_SLOT = s.mach.core.rd R.PRT_SELF_SLOT) := by
  refine completes_act ht rfl (mbSelf_within h) (by rw [copyFlds_mb, copyFlds_mb]) (by decide) (by decide) fun t hmem hresp hd =>
    ⟨hmem, hresp, fun f hf => ?self, ?slot⟩
  case self =>
    obtain ⟨hlt, hmb, hapart⟩ := (by decide : ∀ f ∈ selfFlds, f.off < 0x400000 ∧ ¬ (0x60100 ≤ f.off ∧ f.off < 0x60130)
      ∧ ∀ g ∈ hubFlds, g.apart f = true) f hf
    rw [hd.rd f hlt hmb, copyFlds_rd_apart (by decide) hapart]
    exact copyFlds_rd_mem (by decide) (by decide) hf _ _
  case slot =>
    rw [hd.rd R.PRT_SELF_SLOT, copyFlds_rd_apart (by decide) (by decide), copyFlds_rd_apart (by decide) (by decide)]
    rfl

/-! ## MB_BELLCFG (R299) -/

/-- The children's addresses written. -/
def Core.setChildren (c : Core) (n : Nat) (child : Nat → Nat) : Core :=
  (List.range n).foldl (fun (c : Core) k => c.wr (R.CH_BELLCHILD_CHILD k) (child k)) c

theorem setChildren_succ (c : Core) (n : Nat) (child : Nat → Nat) :
    c.setChildren (n + 1) child = (c.setChildren n child).wr (R.CH_BELLCHILD_CHILD n) (child n) := by
  unfold Core.setChildren
  rw [List.range_succ, List.foldl_append]
  rfl

theorem setChildren_rd_apart (c : Core) {n : Nat} (hn : n ≤ 16) (child : Nat → Nat) (g : Fld)
    (hg : g.off < 0x68100 ∨ 0x68180 ≤ g.off) : (c.setChildren n child).rd g = c.rd g := by
  refine rd_of_cword (foldl_same_mem (g := fun c => Core.cword c g.off) _ (fun c k hk => ?_) c)
  have := List.mem_range.mp hk
  exact cword_wr_apart _ _ _ _ (by simp only [R.CH_BELLCHILD_CHILD]; omega)

theorem setChildren_child (c : Core) {n k : Nat} (child : Nat → Nat) (hk : k < n) (hlt : child k < 2 ^ 64) :
    (c.setChildren n child).rd (R.CH_BELLCHILD_CHILD k) = child k := by
  induction n with
  | zero => omega
  | succ n ih =>
    rw [setChildren_succ]
    by_cases h : k = n
    · subst h
      exact (Core.rd_wr_self _ _ _ (show 0 + 64 ≤ 64 by decide)).trans (Nat.mod_eq_of_lt hlt)
    · refine (rd_of_cword (cword_wr_apart _ _ _ _ ?_)).trans (ih (by omega))
      simp only [R.CH_BELLCHILD_CHILD]
      omega

theorem setChildren_mb (c : Core) (n : Nat) (child : Nat → Nat) : (c.setChildren n child).mb = c.mb :=
  foldl_same (g := Core.mb) (fun c k => Core.wr_mb c (R.CH_BELLCHILD_CHILD k) _) _ c

/-- The fields of CH_BELLCFG that MB_BELLCFG copies beside the role. -/
def bellFlds : List Fld := [R.CH_BELLCFG_ROOT, R.CH_BELLCFG_NCHILD, R.CH_BELLCFG_RINGDIR, R.CH_BELLCFG_CHDIR, R.CH_BELLCFG_NTILES,
  R.CH_BELLCFG_SEALEN]

/-- The parent, and the direction of a ring, as the bell and the ports hold them. -/
def Core.setParent (c : Core) (par dir : Nat) : Core :=
  ((c.wr R.CH_BELLPAR_PARENT par).wr R.PRT_BELLPAR_PARENT par).wr R.PRT_BELLDIR_RINGDIR dir

/-- A configuration that keeps the role, of a chiplet that may have its bell's neighbours in either plane. -/
theorem bellcfg_sameRole {c : Core} {r : MbReq} (hn : bits (r.field 0 8) 3 5 ≤ 16) (hs : c.rd R.CH_BELLSTEP_STATE ≠ 1)
    (htwin : c.rd R.CH_HMSTAT_TWIN ≠ 0) (hrole : bits (r.field 0 8) 0 2 = c.rd R.CH_BELLCFG_ROLE) :
    c.bellcfg r = (((c.copyFlds (r.field 0 8) bellFlds).setParent (r.field 8 8) (bits (r.field 0 8) 8 1)).setChildren
      (bits (r.field 0 8) 3 5) (fun k => r.field (16 + 8 * k) 8), stOK, 0, []) := by
  unfold Core.bellcfg
  rw [if_neg (by omega), if_neg hs, if_neg (fun h => htwin h.1)]
  dsimp only
  rw [if_neg (not_not.mpr hrole)]
  rfl

theorem setParent_mb (c : Core) (par dir : Nat) : (c.setParent par dir).mb = c.mb := rfl

theorem setParent_rd_apart (c : Core) (par dir : Nat) {g : Fld} (h1 : R.CH_BELLPAR_PARENT.apart g = true)
    (h2 : R.PRT_BELLPAR_PARENT.apart g = true) (h3 : R.PRT_BELLDIR_RINGDIR.apart g = true) : (c.setParent par dir).rd g = c.rd g := by
  unfold Core.setParent
  rw [Core.rd_wr_apart _ _ _ _ (by decide) h3, Core.rd_wr_apart _ _ _ _ (by decide) h2, Core.rd_wr_apart _ _ _ _ (by decide) h1]

theorem setParent_parent (c : Core) {par : Nat} (dir : Nat) (h : par < 2 ^ 64) : (c.setParent par dir).rd R.CH_BELLPAR_PARENT = par := by
  unfold Core.setParent
  rw [Core.rd_wr_apart _ _ _ _ (by decide) (by decide), Core.rd_wr_apart _ _ _ _ (by decide) (by decide),
    Core.rd_wr_self _ _ _ (by decide)]
  exact Nat.mod_eq_of_lt h

theorem mbBellcfg_completes {s : State} {r : MbReq} (ht : Turn s (mbIs 0x31) r) (hn : bits (r.field 0 8) 3 5 ≤ 16)
    (hs : s.mach.core.rd R.CH_BELLSTEP_STATE ≠ 1) (htwin : s.mach.core.rd R.CH_HMSTAT_TWIN ≠ 0)
    (hrole : bits (r.field 0 8) 0 2 = s.mach.core.rd R.CH_BELLCFG_ROLE) :
    Completes .mbBellcfg s (fun s' => MemKept s s' ∧ Responds s' r stOK 0 [] ∧
      s'.mach.core.rd R.CH_BELLPAR_PARENT = r.field 8 8 ∧ (∀ f ∈ [R.CH_BELLCFG_ROOT, R.CH_BELLCFG_NCHILD, R.CH_BELLCFG_NTILES],
        s'.mach.core.rd f = bits (r.field 0 8) f.lo f.w) ∧
      ∀ k < bits (r.field 0 8) 3 5, s'.mach.core.rd (R.CH_BELLCHILD_CHILD k) = r.field (16 + 8 * k) 8) := by
  refine completes_act ht rfl (bellcfg_sameRole (r := r.begun s.mach.core.now) hn hs htwin hrole)
    (by rw [setChildren_mb, setParent_mb, copyFlds_mb]) (by decide) (by decide) (fun t hmem hresp hd => ?_)
  simp only [begun_field] at hd
  refine ⟨hmem, hresp, ?parent, fun f hf => ?config, fun k hk => ?address⟩
  case parent =>
    rw [hd.rd R.CH_BELLPAR_PARENT, setChildren_rd_apart _ hn _ R.CH_BELLPAR_PARENT (by decide)]
    exact setParent_parent _ _ (field_lt r 8 8)
  case config =>
    obtain ⟨hin, hlt, hmb, hoff, h1, h2, h3⟩ := (by decide : ∀ f ∈ [R.CH_BELLCFG_ROOT, R.CH_BELLCFG_NCHILD, R.CH_BELLCFG_NTILES],
      f ∈ bellFlds ∧ f.off < 0x400000 ∧ ¬ (0x60100 ≤ f.off ∧ f.off < 0x60130) ∧ (f.off < 0x68100 ∨ 0x68180 ≤ f.off)
        ∧ R.CH_BELLPAR_PARENT.apart f = true ∧ R.PRT_BELLPAR_PARENT.apart f = true ∧ R.PRT_BELLDIR_RINGDIR.apart f = true) f hf
    rw [hd.rd f hlt hmb, setChildren_rd_apart _ hn _ _ hoff, setParent_rd_apart _ _ _ h1 h2 h3]
    exact copyFlds_rd_mem (by decide) (by decide) hin _ _
  case address =>
    rw [hd.rd _ (by simp only [R.CH_BELLCHILD_CHILD]; omega) (by simp only [R.CH_BELLCHILD_CHILD]; omega)]
    exact setChildren_child _ _ hk (field_lt r (16 + 8 * k) 8)

/-! ## MB_ROLE (R305) -/

theorem dropPart_mb (c : Core) (t : Nat) : (c.dropPart t).mb = c.mb := by
  unfold Core.dropPart
  split <;> rfl

/-- Pace setpoints are no register and no request. -/
theorem paceStart_keeps (c : Core) : c.paceStart.creg = c.creg ∧ c.paceStart.treg = c.treg ∧ c.paceStart.mb = c.mb := by
  unfold Core.paceStart
  generalize (if c.rd R.CH_BELLCFG_ROLE = 3 then c.rd R.WGH_PACECTL_VMEM else c.rd R.WGH_PACECTL_VNOM) = v
  exact ⟨foldl_same (g := Core.creg) (f := fun c d => Core.setTgt c d v) (fun _ _ => rfl) _ c,
    foldl_same (g := Core.treg) (f := fun c d => Core.setTgt c d v) (fun _ _ => rfl) _ c,
    foldl_same (g := Core.mb) (f := fun c d => Core.setTgt c d v) (fun _ _ => rfl) _ c⟩

/-- The dark row pairs that `held` does not name, ordered lit. -/
def Core.lightPairs (c : Core) (held : Nat → Bool) : Core :=
  (List.range 24).foldl (fun c d => if c.rd (R.WGH_DOMST_MODE d) = 2 ∧ held d = false then c.order d 3 else c) c

theorem lightPairs_mb (c : Core) (held : Nat → Bool) : (c.lightPairs held).mb = c.mb := by
  unfold Core.lightPairs
  exact foldl_same (g := Core.mb) (fun c d => by split <;> rfl) _ c

/-- Lighting row pairs writes WGH_DOMST alone. -/
theorem lightPairs_cword (c : Core) (held : Nat → Bool) {off : Nat} (h : off < 0x50200 ∨ 0x502C0 ≤ off) :
    (c.lightPairs held).cword off = c.cword off := by
  unfold Core.lightPairs
  refine foldl_same_mem (g := fun c => Core.cword c off) _ (fun c d hd => ?_) c
  have := List.mem_range.mp hd
  split
  · exact cword_wr_apart c (R.WGH_DOMST_MODE d) 3 off (by simp only [R.WGH_DOMST_MODE]; omega)
  · rfl

theorem takeRoleAs_eq (c : Core) (role : Nat) (leave : List Nat) : ∃ held, c.takeRoleAs role leave
    = Core.paceStart (if role = 2 then (leave.foldl Core.dropPart c).wr R.CH_BELLCFG_ROLE role
      else ((leave.foldl Core.dropPart c).wr R.CH_BELLCFG_ROLE role).lightPairs held) := by
  refine ⟨fun d => decide ((((leave.foldl Core.dropPart c).wr R.CH_BELLCFG_ROLE role).rd (R.LDG_FP_ROW_DISABLED (2 * d))) = 1)
    || ((leave.foldl Core.dropPart c).wr R.CH_BELLCFG_ROLE role).reduced, ?_⟩
  unfold Core.takeRoleAs Core.lightPairs
  dsimp only

/-- A role taken on is the role, and no request of the mailboxes changes. -/
theorem takeRoleAs_role (c : Core) (role : Nat) (leave : List Nat) :
    (c.takeRoleAs role leave).rd R.CH_BELLCFG_ROLE = role % 4 ∧ (c.takeRoleAs role leave).mb = c.mb := by
  have hmb : (leave.foldl Core.dropPart c).mb = c.mb := foldl_same (g := Core.mb) dropPart_mb leave c
  obtain ⟨held, he⟩ := takeRoleAs_eq c role leave
  rw [he]
  obtain ⟨hcreg, -, hpace⟩ := paceStart_keeps (if role = 2 then (leave.foldl Core.dropPart c).wr R.CH_BELLCFG_ROLE role
      else ((leave.foldl Core.dropPart c).wr R.CH_BELLCFG_ROLE role).lightPairs held)
  rw [rd_congr hcreg, hpace]
  split
  · exact ⟨Core.rd_wr_self _ _ _ (by decide), hmb⟩
  · rw [lightPairs_mb, rd_of_cword (lightPairs_cword _ _ (by decide))]
    exact ⟨Core.rd_wr_self _ _ _ (by decide), hmb⟩

theorem mbRole_now {c : Core} {r : MbReq} (hs : c.rd R.CH_BELLSTEP_STATE ≠ 1) (h0 : r.field 4 4 = 0) :
    c.mbRole r = (c.takeRole (r.byte 0), stOK, 0, []) := by
  unfold Core.mbRole
  dsimp only
  rw [if_pos hs, if_pos h0]
  rfl

theorem mbRole_named {c : Core} {r : MbReq} (hs : c.rd R.CH_BELLSTEP_STATE = 1) (h0 : r.field 4 4 ≠ 0) :
    c.mbRole r = ({ c with bell := { c.bell with change := some (r.field 4 4, r.byte 0) } }, stOK, 0, []) := by
  unfold Core.mbRole
  dsimp only
  rw [if_neg (not_not.mpr hs), if_neg h0]
  rfl

theorem mbRole_atOnce_completes {s : State} {r : MbReq} (ht : Turn s (mbIs 0x33) r) (hs : s.mach.core.rd R.CH_BELLSTEP_STATE ≠ 1)
    (h0 : r.field 4 4 = 0) : Completes .mbRole s (fun s' => MemKept s s' ∧ s'.mach.core.rd R.CH_BELLCFG_ROLE = r.byte 0 % 4
      ∧ Responds s' r stOK 0 []) := by
  obtain ⟨hrole, hmb⟩ := takeRoleAs_role (s.mach.core.putReq (r.begun s.mach.core.now)) (r.byte 0) _
  refine completes_act ht rfl (mbRole_now (r := r.begun s.mach.core.now) hs h0) hmb (by decide) (by decide) fun t hmem hresp hd =>
    ⟨hmem, ?_, hresp⟩
  rw [hd.rd R.CH_BELLCFG_ROLE]
  exact hrole

theorem mbRole_atRing_completes {s : State} {r : MbReq} (ht : Turn s (mbIs 0x33) r) (hs : s.mach.core.rd R.CH_BELLSTEP_STATE = 1)
    (h0 : r.field 4 4 ≠ 0) : Completes .mbRole s (fun s' => MemKept s s' ∧
      s'.mach.core.bell.change = some (r.field 4 4, r.byte 0)
        ∧ s'.mach.core.rd R.CH_BELLCFG_ROLE = s.mach.core.rd R.CH_BELLCFG_ROLE ∧ Responds s' r stOK 0 []) := by
  refine completes_act ht rfl (mbRole_named (r := r.begun s.mach.core.now) hs h0) rfl (by decide) (by decide) fun t hmem hresp hd =>
    ⟨hmem, by rw [hd.bell]; rfl, hd.rd R.CH_BELLCFG_ROLE, hresp⟩

/-! ## MB_JOB_START (R293) -/

/-- The participants of a job: the lit present tiles of its map. -/
def Core.participant (c : Core) (map t : Nat) : Bool := bit map t && c.present t && !c.tileDark t

/-- SEQ_BELL as a job start writes it at each tile. -/
def Core.setParticipants (c : Core) (part : Nat → Bool) (n : Nat) : Core :=
  (List.range n).foldl (fun (c : Core) t => (c.twr t R.SEQ_BELL_PART (b2n (part t))).twr t R.SEQ_BELL_PEND 0) c

theorem setParticipants_keeps (c : Core) (part : Nat → Bool) (n : Nat) :
    (c.setParticipants part n).creg = c.creg ∧ (c.setParticipants part n).mb = c.mb :=
  ⟨foldl_same (g := Core.creg) (fun c t => Core.twr_creg (c.twr t R.SEQ_BELL_PART (b2n (part t))) t R.SEQ_BELL_PEND 0) _ c,
    foldl_same (g := Core.mb) (fun c t => Core.twr_mb (c.twr t R.SEQ_BELL_PART (b2n (part t))) t R.SEQ_BELL_PEND 0) _ c⟩

theorem setParticipants_part (c : Core) (part : Nat → Bool) {n t : Nat} (h : t < n) :
    (c.setParticipants part n).trd t R.SEQ_BELL_PART = b2n (part t) := by
  induction n with
  | zero => omega
  | succ n ih =>
    have hs : c.setParticipants part (n + 1)
        = ((c.setParticipants part n).twr n R.SEQ_BELL_PART (b2n (part n))).twr n R.SEQ_BELL_PEND 0 := by
      unfold Core.setParticipants
      rw [List.range_succ, List.foldl_append]
      rfl
    rw [hs, Core.trd_twr_apart _ _ _ _ _ _ (by decide) (by decide) (by decide) (.inr (by decide))]
    by_cases hn : t = n
    · subst hn
      rw [Core.trd_twr_self _ _ _ _ (by decide) (by decide)]
      cases part t <;> rfl
    · refine (Core.trd_twr_apart _ _ _ _ _ _ (by decide) (by decide) (by decide) (.inl ?_)).trans (ih (by omega))
      exact hn

/-- The registers of the bell as a job start writes them. -/
def Core.jobRegs (c : Core) (seed n s0 : Nat) : Core :=
  let c := ((c.wr R.CH_JOBSEED_SEED seed).wr R.CH_BELLCFG_NTILES n).wr R.CH_BELLSTEP_STEP (s0 + 2 ^ 32 - 1)
  let c := ((c.wr R.CH_BELLSTEP_STATE 1).wr R.CH_BELLSTAT_HSTAT 0).wr R.CH_BELLSTAT_WDOG 0
  (c.wr R.CH_BELLSTAT_LOST 0).wr R.CH_BELLTIME_RINGAT (c.now % 2 ^ 32)

/-- The bell with no loss, no change and no exchange behind it, its watchdog armed. -/
def Core.freshBell (c : Core) : Core :=
  { c with bell := { c.bell with lost := [], armed := some c.now, change := none, compared := [], exchanged := [] } }

theorem startJob_eq (c : Core) (seed s0 map : Nat) : c.startJob seed s0 map
    = ((((c.setParticipants (c.participant map) 960).jobRegs seed ((List.range 960).filter (c.participant map)).length
      s0).freshBell).startStep.paceStart).checkStep := by
  unfold Core.startJob Core.setParticipants Core.jobRegs Core.freshBell Core.participant
  dsimp only

theorem jobRegs_treg (c : Core) (seed n s0 : Nat) : (c.jobRegs seed n s0).treg = c.treg := by
  unfold Core.jobRegs
  rw [Core.wr_treg, Core.wr_treg, Core.wr_treg, Core.wr_treg, Core.wr_treg, Core.wr_treg, Core.wr_treg, Core.wr_treg]
theorem jobRegs_mb (c : Core) (seed n s0 : Nat) : (c.jobRegs seed n s0).mb = c.mb := by
  unfold Core.jobRegs
  rw [Core.wr_mb, Core.wr_mb, Core.wr_mb, Core.wr_mb, Core.wr_mb, Core.wr_mb, Core.wr_mb, Core.wr_mb]

theorem jobRegs_fields (c : Core) {seed n : Nat} (s0 : Nat) (hseed : seed < 2 ^ 64) (hn : n < 2 ^ 10) :
    (c.jobRegs seed n s0).rd R.CH_BELLSTEP_STATE = 1 ∧ (c.jobRegs seed n s0).rd R.CH_JOBSEED_SEED = seed
      ∧ (c.jobRegs seed n s0).rd R.CH_BELLSTEP_STEP = (s0 + 2 ^ 32 - 1) % 2 ^ 32 ∧ (c.jobRegs seed n s0).rd R.CH_BELLCFG_NTILES = n := by
  have hlast (d : Core) (v : Nat) {g : Fld} (h1 : R.CH_BELLSTAT_HSTAT.apart g = true) (h2 : R.CH_BELLSTAT_WDOG.apart g = true)
      (h3 : R.CH_BELLSTAT_LOST.apart g = true) (h4 : R.CH_BELLTIME_RINGAT.apart g = true) :
      ((((d.wr R.CH_BELLSTAT_HSTAT 0).wr R.CH_BELLSTAT_WDOG 0).wr R.CH_BELLSTAT_LOST 0).wr R.CH_BELLTIME_RINGAT v).rd g = d.rd g := by
    rw [Core.rd_wr_apart _ _ _ _ (by decide) h4, Core.rd_wr_apart _ _ _ _ (by decide) h3, Core.rd_wr_apart _ _ _ _ (by decide) h2,
      Core.rd_wr_apart _ _ _ _ (by decide) h1]
  unfold Core.jobRegs
  dsimp only
  refine ⟨?state, ?seed, ?step, ?ntiles⟩
  case state =>
    rw [hlast _ _ (by decide) (by decide) (by decide) (by decide)]
    exact Core.rd_wr_self _ _ _ (by decide)
  case seed =>
    rw [hlast _ _ (by decide) (by decide) (by decide) (by decide), Core.rd_wr_apart _ _ _ _ (by decide) (by decide),
      Core.rd_wr_apart _ _ _ _ (by decide) (by decide), Core.rd_wr_apart _ _ _ _ (by decide) (by decide)]
    exact (Core.rd_wr_self _ _ _ (by decide)).trans (Nat.mod_eq_of_lt hseed)
  case step =>
    rw [hlast _ _ (by decide) (by decide) (by decide) (by decide), Core.rd_wr_apart _ _ _ _ (by decide) (by decide)]
    exact Core.rd_wr_self _ _ _ (by decide)
  case ntiles =>
    rw [hlast _ _ (by decide) (by decide) (by decide) (by decide), Core.rd_wr_apart _ _ _ _ (by decide) (by decide),
      Core.rd_wr_apart _ _ _ _ (by decide) (by decide)]
    exact (Core.rd_wr_self _ _ _ (by decide)).trans (Nat.mod_eq_of_lt hn)

theorem sendBell_spec (c : Core) (p : Packet) (viaU : Bool) : NetOnly c (c.sendBell p viaU) := by
  unfold Core.sendBell
  split
  · exact .refl c
  · split
    · exact (injectTo_spec _ _ _ _).1
    · exact (inject_spec _ _ _).1

/-- What a step's beginning and a check of it leave: the tiles' registers, the requests, and the registers of the bell but its
status, its timeout and its times. -/
structure StepOnly (c d : Core) : Prop where
  cword : ∀ off, off < 0x400000 → off ≠ 0x68020 → off ≠ 0x68028 → off ≠ 0x68030 → d.cword off = c.cword off
  treg : d.treg = c.treg
  mb : d.mb = c.mb

theorem StepOnly.trans {c d e : Core} (h : StepOnly c d) (k : StepOnly d e) : StepOnly c e :=
  ⟨fun off h0 h1 h2 h3 => (k.cword off h0 h1 h2 h3).trans (h.cword off h0 h1 h2 h3), k.treg.trans h.treg, k.mb.trans h.mb⟩

theorem StepOnly.rd {c d : Core} (h : StepOnly c d) {f : Fld} (h0 : f.off < 0x400000) (h1 : f.off ≠ 0x68020) (h2 : f.off ≠ 0x68028)
    (h3 : f.off ≠ 0x68030) : d.rd f = c.rd f := rd_of_cword (h.cword _ h0 h1 h2 h3)

theorem freshBell_stepOnly (c : Core) : StepOnly c c.freshBell := ⟨fun _ _ _ _ _ => rfl, rfl, rfl⟩

theorem startStep_stepOnly (c : Core) : StepOnly c c.startStep := by
  refine ⟨fun off _ h1 h2 _ => ?_, rfl, rfl⟩
  unfold Core.startStep
  dsimp only
  rw [cword_wr_apart _ R.CH_BELLSTAT_JSTAT _ _ h1, cword_wr_apart _ R.CH_BELLTMO_PACE _ _ h2,
    cword_wr_apart _ R.CH_BELLSTAT_UPSENT _ _ h1, cword_wr_apart _ R.CH_BELLSTAT_CPOSTS _ _ h1,
    cword_wr_apart _ R.CH_BELLSTAT_TPOSTS _ _ h1]
  rfl

theorem paceStart_stepOnly (c : Core) : StepOnly c c.paceStart := by
  obtain ⟨hcreg, htreg, hmb⟩ := paceStart_keeps c
  exact ⟨fun off _ _ _ _ => cword_congr hcreg off, htreg, hmb⟩

theorem upSent_stepOnly (c : Core) : StepOnly c c.upSent :=
  ⟨fun _ _ h1 _ h3 => (cword_wr_apart _ R.CH_BELLTIME_UPAT _ _ h3).trans (cword_wr_apart c R.CH_BELLSTAT_UPSENT _ _ h1), rfl, rfl⟩

theorem checkStep_stepOnly (c : Core) : StepOnly c c.checkStep := by
  unfold Core.checkStep
  split
  · refine (upSent_stepOnly c).trans ?_
    have hsend := sendBell_spec c.upSent (c.bellPacket 1 (c.rd R.CH_BELLSTAT_JSTAT) (c.rd R.CH_BELLSTEP_STEP)
      (c.rd R.CH_BELLPAR_PARENT)) (decide (c.rd R.CH_BELLCFG_RINGDIR = 1))
    exact ⟨fun off h0 _ _ _ => hsend.creg off h0, hsend.treg, hsend.mb⟩
  · exact ⟨fun _ _ _ _ _ => rfl, rfl, rfl⟩

theorem jobStart_starts {c : Core} {r : MbReq} (hs : c.rd R.CH_BELLSTEP_STATE ≠ 1) (hserve : c.serving = true) :
    ∃ body, c.jobStart r = (c.startJob (r.field 0 8) (r.field 8 4) (r.field 12 120), stOK, 0, body) := by
  unfold Core.jobStart
  rw [if_neg (by simp [hs, hserve])]
  exact ⟨_, rfl⟩

/-- What a job's start leaves in the bell's registers and at the tiles. -/
theorem startJob_starts (c : Core) {seed : Nat} (s0 map : Nat) (hseed : seed < 2 ^ 64) :
    ∃ b : Core, (b.rd R.CH_BELLSTEP_STATE = 1 ∧ b.rd R.CH_JOBSEED_SEED = seed
      ∧ b.rd R.CH_BELLSTEP_STEP = (s0 + 2 ^ 32 - 1) % 2 ^ 32
      ∧ b.rd R.CH_BELLCFG_NTILES = ((List.range 960).filter (c.participant map)).length)
      ∧ (∀ t < 960, b.trd t R.SEQ_BELL_PART = b2n (c.participant map t)) ∧ b.mb = c.mb ∧ StepOnly b (c.startJob seed s0 map) := by
  have hn : ((List.range 960).filter (c.participant map)).length < 2 ^ 10 := by
    have := List.length_filter_le (c.participant map) (List.range 960)
    rw [List.length_range] at this
    omega
  rw [startJob_eq]
  refine ⟨_, jobRegs_fields (c.setParticipants (c.participant map) 960) s0 hseed hn,
    fun t ht => (trd_congr (jobRegs_treg _ _ _ _) t _).trans (setParticipants_part c (c.participant map) ht),
    (jobRegs_mb _ _ _ _).trans (setParticipants_keeps c _ _).2, ?_⟩
  refine .trans ?_ ((startStep_stepOnly _).trans ((paceStart_stepOnly _).trans (checkStep_stepOnly _)))
  exact freshBell_stepOnly _

theorem mbJobStart_completes {s : State} {r : MbReq} (ht : Turn s (mbIs 0x32) r) (hs : s.mach.core.rd R.CH_BELLSTEP_STATE ≠ 1)
    (hserve : s.mach.core.serving = true) :
    Completes .mbJobStart s (fun s' => MemKept s s' ∧ s'.mach.core.rd R.CH_BELLSTEP_STATE = 1 ∧
      s'.mach.core.rd R.CH_JOBSEED_SEED = r.field 0 8 ∧ s'.mach.core.rd R.CH_BELLSTEP_STEP = (r.field 8 4 + 2 ^ 32 - 1) % 2 ^ 32 ∧
      (∀ t < 960, s'.mach.core.trd t R.SEQ_BELL_PART = b2n (s.mach.core.participant (r.field 12 120) t)) ∧
      s'.mach.core.rd R.CH_BELLCFG_NTILES = ((List.range 960).filter (s.mach.core.participant (r.field 12 120))).length) := by
  obtain ⟨body, hact⟩ := jobStart_starts (c := s.mach.core.putReq (r.begun s.mach.core.now)) (r := r.begun s.mach.core.now) hs hserve
  obtain ⟨b, ⟨hstate, hseed, hstep, hntiles⟩, hpart, hmb, honly⟩ := startJob_starts (s.mach.core.putReq (r.begun s.mach.core.now))
    (r.field 8 4) (r.field 12 120) (field_lt r 0 8)
  refine completes_act ht rfl hact (honly.mb.trans hmb) (by decide) (by decide) fun t hmem _ hd => ?_
  simp only [begun_field] at hd
  have hrd (f : Fld) (h0 : f.off < 0x400000) (h : ¬ (0x60100 ≤ f.off ∧ f.off < 0x60130)) (h1 : f.off ≠ 0x68020) (h2 : f.off ≠ 0x68028)
      (h3 : f.off ≠ 0x68030) : t.mach.core.rd f = b.rd f := (hd.rd f h0 h).trans (honly.rd h0 h1 h2 h3)
  refine ⟨hmem, ?_, ?_, ?_, fun u hu => ?_, ?_⟩
  · exact (hrd _ (by decide) (by decide) (by decide) (by decide) (by decide)).trans hstate
  · exact (hrd _ (by decide) (by decide) (by decide) (by decide) (by decide)).trans hseed
  · exact (hrd _ (by decide) (by decide) (by decide) (by decide) (by decide)).trans hstep
  · exact (trd_congr (hd.treg.trans honly.treg) u _).trans (hpart u hu)
  · exact (hrd _ (by decide) (by decide) (by decide) (by decide) (by decide)).trans hntiles

/-- Settles O39, row by row: each configures by writes to fields that stand apart, and its answer writes none of them. -/
theorem jobsAreConfiguredAndStarted : Obligations.JobsAreConfiguredAndStarted := by
  intro s r
  exact ⟨mbSelf_completes, mbBellcfg_completes, mbJobStart_completes, mbRole_atOnce_completes, mbRole_atRing_completes⟩

end Sys2Proof.Machine
end

section
/-! A source's packets as the mesh takes them in (R217, R223, R229, R239), and the parts a command has issued (R211, R283). -/

namespace Sys2Proof.Machine

/-! ## What a packet carries -/

/-- A packet without what its entry into the mesh sets: what its source gave it. -/
def Packet.atSource (p : Packet) : Packet := { p with epoch := 0, vc := 0, phase := 0, esc := false, inter := 0, hops := 0 }

/-- A packet with a SEQ. -/
def Packet.withSeq (p : Packet) (n : Nat) : Packet := { p with seq := n }

theorem onMesh_atSource (c : Core) (p : Packet) : (c.onMesh p).1.atSource = p.atSource ∧ (c.onMesh p).1.epoch = p.epoch := by
  unfold Core.onMesh
  split <;> exact ⟨rfl, rfl⟩

/-- A packet that enters the mesh carries what its source gave it, and its epoch. -/
theorem enterMesh_carries (c : Core) (p : Packet) (u here inp dest unit : Nat) (port via : Option Nat) :
    ∃ g : Flying, (c.enterMesh p u here inp dest unit port via).net.fly = c.net.fly ++ [g] ∧ g.pkt.atSource = p.atSource
      ∧ g.pkt.epoch = p.epoch := by
  obtain ⟨hsrc, hep⟩ := onMesh_atSource c p
  have hfly : (c.onMesh p).2.net.fly = c.net.fly := by
    obtain ⟨⟨n, hn⟩, -⟩ := onMesh_spec c p
    rw [hn]
  unfold Core.enterMesh
  dsimp only
  rw [← hfly]
  split
  · exact ⟨_, (entered_spec _ _).2, hsrc, hep⟩
  · exact ⟨_, rfl, hsrc, hep⟩

/-! ## Ways -/

/-- A way leads where a unit's packet is to go: of a multicast, to the first present tile of its span (R229). -/
def Core.hasWay (c : Core) (p : Packet) (u : Nat) : Prop :=
  if p.mcast then c.spanPresent p.dst p.maxis p.mlast ≠ [] else (c.route p.dst (c.unitRouter u)).isSome = true

theorem hasWay_congr {c d : Core} (h : d.creg = c.creg) (p : Packet) (u : Nat) : d.hasWay p u ↔ c.hasWay p u := by
  have hspan : d.spanPresent p.dst p.maxis p.mlast = c.spanPresent p.dst p.maxis p.mlast :=
    eq_of_registers (g := fun c => c.spanPresent p.dst p.maxis p.mlast) (fun _ => rfl) h
  unfold Core.hasWay
  rw [hspan, unitRouter_congr h, route_congr h]

theorem hasWay_of_route {c : Core} {p : Packet} {u : Nat} (hm : p.mcast = false)
    (h : (c.route p.dst (c.unitRouter u)).isSome = true) : c.hasWay p u := by
  unfold Core.hasWay
  rwa [hm, if_neg (by decide)]

theorem hasWay_of_span {c : Core} {p : Packet} {u : Nat} (hm : p.mcast = true) (h : c.spanPresent p.dst p.maxis p.mlast ≠ []) :
    c.hasWay p u := by
  unfold Core.hasWay
  rwa [if_pos hm]

/-- A check that refuses nothing is passed, and so are those after it. -/
theorem unrefused_iff {p : Prop} [Decidable p] {st : Nat} {r : Option Nat} :
    (if p then some st else r) = none ↔ ¬ p ∧ r = none := by
  split <;> simp [*]

/-- What passes the source's checks has a way (Table 12.6, R223, R277). -/
theorem route_of_sourceStatus {c : Core} {a n router : Nat} (h : c.sourceStatus a n router = none) :
    (c.route a router).isSome = true := by
  have hout (hw : ¬ (c.wayOut a router).isNone = true) :
      ((c.exitPort a router).map (fun p => (exitRouter p router, unitPort p, some p))).isSome = true := by
    unfold Core.wayOut at hw
    split at hw
    · exact absurd rfl hw
    · rw [Option.isSome_map, Option.isSome_iff_ne_none]
      exact fun hn => hw (Option.isNone_iff_eq_none.mpr hn)
  unfold Core.sourceStatus at h
  dsimp only at h
  simp only [unrefused_iff] at h
  obtain ⟨-, -, -, -, -, h⟩ := h
  unfold Core.route
  dsimp only
  by_cases hmem : adClass a = 4 ∨ adClass a = 5
  · rw [if_pos hmem] at h ⊢
    obtain ⟨-, h⟩ := unrefused_iff.mp h
    by_cases hc : c.cached a = true
    · rw [if_pos hc]
      rfl
    · rw [if_neg hc] at h ⊢
      exact hout (unrefused_iff.mp h).1
  · rw [if_neg hmem] at h ⊢
    by_cases he : c.elsewhere a = true
    · rw [if_pos he] at h ⊢
      exact hout (unrefused_iff.mp h).1
    · rw [if_neg he]
      rfl

theorem route_of_partStatus {c : Core} {x : Cmd} {a off n : Nat} (h : c.partStatus x a off n = none) :
    (c.route (a + off) (c.unitRouter x.unit)).isSome = true := by
  unfold Core.partStatus at h
  split at h
  · cases h
  · next d hd =>
    have hsum : d = a + off := by
      unfold partAddr at hd
      dsimp only at hd
      split at hd
      · exact (Option.some.inj hd).symm
      · cases hd
    rw [← hsum]
    exact route_of_sourceStatus h

/-! ## Packets put on the fabric -/

theorem launch_netOnly (c : Core) (p : Packet) (u : Nat) : NetOnly c (c.launch p u) := by
  unfold Core.launch
  split
  · unfold Core.injectSpan
    split
    · exact .refl c
    · exact (enterMesh_spec _ _ _ _ _ _ _ _ _).1
  · exact (inject_spec c p u).1

/-- A packet put on the fabric that has a way: one more is in the mesh, with what its source gave it, in the epoch in force. -/
theorem launch_carries {c : Core} {p : Packet} {u : Nat} (h : c.hasWay p u) :
    ∃ g : Flying, (c.launch p u).net.fly = c.net.fly ++ [g] ∧ g.pkt.atSource = p.atSource
      ∧ g.pkt.epoch = c.rd R.NET_RTCTL_ACTIVE := by
  unfold Core.hasWay at h
  unfold Core.launch
  split
  · next hm =>
    rw [if_pos hm] at h
    obtain ⟨t, l, hspan⟩ := List.exists_cons_of_ne_nil h
    unfold Core.injectSpan
    rw [hspan]
    obtain ⟨g, hg, hsrc, hep⟩ := enterMesh_carries c { p with mcast := true, epoch := c.rd R.NET_RTCTL_ACTIVE } u (c.unitRouter u)
      (c.unitSide u) (c.tileRouter t) t none none
    refine ⟨g, hg, hsrc.trans ?_, hep⟩
    rw [← hm]
    rfl
  · next hm =>
    rw [if_neg hm] at h
    obtain ⟨⟨dest, unit, port⟩, hr⟩ := Option.isSome_iff_exists.mp h
    obtain ⟨g, hg, hsrc, hep⟩ := enterMesh_carries c { p with epoch := c.rd R.NET_RTCTL_ACTIVE } u (c.unitRouter u) (c.unitSide u) dest
      unit port none
    unfold Core.inject
    dsimp only
    rw [hr]
    exact ⟨g, hg, hsrc, hep⟩

/-- Drawing a stream's next SEQ changes the source's streams alone. -/
theorem nextSeq_src (c : Core) (u dst : Nat) : ∃ l, (c.nextSeq u dst).2 = { c with net := { c.net with src := l } } := by
  unfold Core.nextSeq
  split <;> exact ⟨_, rfl⟩

/-- A new request that has a way, sent at a unit: one more is in the mesh, with what its source gave it and its stream's SEQ. -/
theorem sendFrom_carries {c : Core} {p : Packet} {u at' : Nat} (h : c.hasWay p at') :
    (c.sendFrom p u at').2.queues = c.queues ∧ ∃ n, (c.sendFrom p u at').1 = p.withSeq n ∧
      ∃ g : Flying, (c.sendFrom p u at').2.net.fly = c.net.fly ++ [g] ∧ g.pkt.atSource = (p.withSeq n).atSource := by
  obtain ⟨l, hl⟩ := nextSeq_src c u p.dst
  unfold Core.sendFrom
  dsimp only
  rw [hl]
  have hway : ({ c with net := { c.net with src := l } } : Core).hasWay { p with seq := (c.nextSeq u p.dst).1 } at' :=
    (hasWay_congr (c := c) rfl _ _).mpr h
  obtain ⟨g, hg, hsrc, -⟩ := launch_carries hway
  exact ⟨(launch_netOnly _ _ _).queues, _, rfl, g, hg, hsrc⟩

/-- What holds of a packet holds of one sent. -/
theorem sent_imp {s t : State} {P Q : Packet → Prop} (h : Sent s t P) (hpq : ∀ p, P p → Q p) : Sent s t Q := by
  obtain ⟨g, hg, hp⟩ := h
  exact ⟨g, hg, hpq _ hp⟩

/-! ## Parts -/

theorem settle_parts (x : Cmd) : x.settle.parts = x.parts := by
  unfold Cmd.settle
  split <;> rfl

theorem settle_keeps (x : Cmd) : x.settle.unit = x.unit ∧ x.settle.q = x.q ∧ x.settle.idx = x.idx := by
  unfold Cmd.settle
  split <;> exact ⟨rfl, rfl, rfl⟩

theorem addParts_id (x : Cmd) (ps : List Part) : (x.addParts ps).id = x.id := settle_id _
theorem addParts_parts (x : Cmd) (ps : List Part) : (x.addParts ps).parts = x.parts ++ ps := settle_parts _

/-- The parts that a packet makes of a command's next ones. -/
def Cmd.partsSent (y : Cmd) (p : Packet) (now loc : Nat) (st : Option Nat) : List Part :=
  y.nextParts.map (fun k => { k := k, pkt := p, first := now, loc := loc, status := st })

/-- A packet sent for a command's next parts: what is in the mesh, and what the command then has issued. -/
theorem sendParts_carries {s t : State} {x y : Cmd} {p : Packet} {loc : Nat} {st : Option Nat}
    (hx : x ∈ s.mach.core.queues.cmds) (hid : y.id = x.id) (hparts : y.parts = x.parts) (hway : s.mach.core.hasWay p y.unit)
    (ht : t.mach.core = s.mach.core.sendParts y p loc st) :
    ∃ n, Sent s t (fun q => q.atSource = (p.withSeq n).atSource) ∧
      Queued t x.id (fun z => z.parts = x.parts ++ y.partsSent (p.withSeq n) s.mach.core.now loc st) := by
  obtain ⟨hqueues, n, hn, g, hg, hsrc⟩ := sendFrom_carries (u := y.unit) hway
  have hcore : t.mach.core = (s.mach.core.sendFrom p y.unit y.unit).2.putCmd
      (y.addParts (y.partsSent (p.withSeq n) s.mach.core.now loc st)) := by
    rw [ht, ← hn]
    rfl
  refine ⟨n, ⟨g, by rw [hcore, ← hg]; rfl, hsrc⟩, queued_of_put (l := s.mach.core.queues.cmds)
    (y := y.addParts (y.partsSent (p.withSeq n) s.mach.core.now loc st)) ((addParts_id _ _).trans hid) ?_ ⟨x, hx, rfl⟩ ?_⟩
  · rw [hcore, ← hqueues]
    rfl
  · rw [addParts_parts, hparts]

end Sys2Proof.Machine
end

section
/-! Parts reissued, lost and answered, and streams released (R286, R288, R289). -/

namespace Sys2Proof.Machine

/-! ## The open part of a running command -/

/-- The open part a row names is a part of that number of a queued command, and it has no status. -/
theorem openPart_mem {c : Core} {u q n k : Nat} {x : Cmd} {y : Part} (h : c.openPart u q n k = some (x, y)) :
    x ∈ c.queues.cmds ∧ y ∈ x.parts ∧ y.k = k := by
  unfold Core.openPart at h
  split at h
  · cases h
  · next z hz =>
    obtain ⟨w, hw, he⟩ := Option.map_eq_some_iff.mp h
    obtain ⟨rfl, rfl⟩ := Prod.mk.inj he
    have hk := List.find?_some hw
    simp only [Bool.and_eq_true, decide_eq_true_eq] at hk
    exact ⟨List.mem_of_mem_filter (List.mem_of_find?_eq_some hz), List.mem_of_find?_eq_some hw, hk.1.1⟩

/-- Whether a part of a command awaits an answer. -/
def Core.awaits (c : Core) (p : Packet) (x : Cmd) (k : Part) : Bool :=
  decide (k.k = p.part) && k.status.isNone && decide (k.pkt.seq = p.seq) && !c.landing x.id k.k

/-- The open part an answer belongs to is the first of the command in the slot that awaits it. -/
theorem answered_eq_some {c : Core} {p : Packet} {x : Cmd} {y : Part} : c.answered p = some (x, y) ↔
    c.running? (srcOwner p.dst).1 (srcOwner p.dst).2.1 (srcOwner p.dst).2.2 = some x ∧ x.parts.find? (c.awaits p x) = some y := by
  unfold Core.answered
  dsimp only
  constructor
  · intro h
    split at h
    · cases h
    · next z hz =>
      obtain ⟨w, hw, he⟩ := Option.map_eq_some_iff.mp h
      obtain ⟨rfl, rfl⟩ := Prod.mk.inj he
      exact ⟨hz, hw⟩
  · rintro ⟨hx, hy⟩
    rw [hx]
    exact Option.map_eq_some_iff.mpr ⟨y, hy, rfl⟩

theorem awaits_iff {c : Core} {p : Packet} {x : Cmd} {k : Part} : c.awaits p x k = true ↔
    k.k = p.part ∧ k.status = none ∧ k.pkt.seq = p.seq ∧ c.landing x.id k.k = false := by
  simp [Core.awaits, and_assoc]

/-- A part with no data landing has none once an arrival has gone. -/
theorem landing_dropArr {c : Core} {i : Nat × Nat} {k : Nat} (a : Arrival) (h : c.landing i k = false) :
    (c.dropArr a).landing i k = false := by
  refine List.any_eq_false.mpr fun b hb => List.any_eq_false.mp h b ?_
  exact List.mem_of_mem_filter hb

/-- An answer that an open part awaits still finds it once its own arrival has gone: all that could await it have one number. -/
theorem answered_dropArr {c : Core} {p : Packet} {x : Cmd} {y : Part} (a : Arrival) (h : c.answered p = some (x, y)) :
    (c.dropArr a).answered p = some (x, y) := by
  obtain ⟨hx, hy⟩ := answered_eq_some.mp h
  obtain ⟨hnum, -, -, hland⟩ := awaits_iff.mp (List.find?_some hy)
  have hsame : (c.dropArr a).awaits p x = c.awaits p x := by
    funext k
    rw [Bool.eq_iff_iff, awaits_iff, awaits_iff]
    refine and_congr_right fun hk => ?_
    rw [hnum, ← hk] at hland
    simp only [hland, landing_dropArr a hland]
  exact answered_eq_some.mpr ⟨hx, by rw [hsame]; exact hy⟩

/-! ## A part put on the fabric again -/

/-- The unit by which a part's packet goes out again: a SEALX goes by the seal unit. -/
def Part.sender (y : Part) (x : Cmd) : Nat := if y.pkt.typ = 10 then unitSeam else x.unit

theorem resend_eq (c : Core) (x : Cmd) (y : Part) : c.resend x y = c.launch y.pkt (y.sender x) := rfl

/-- A part of one position that a way leads to is in the mesh again, with its SEQ, in the epoch in force. -/
theorem resend_again {s t : State} {c : Core} {x : Cmd} {y : Part} (hcreg : c.creg = s.mach.core.creg)
    (hfly : c.net.fly = s.mach.core.net.fly) (ht : t.mach.core.net.fly = (c.resend x y).net.fly) (hm : y.pkt.mcast = false)
    (hr : (s.mach.core.route y.pkt.dst (s.mach.core.unitRouter (y.sender x))).isSome = true) :
    Sent s t (fun p => p.typ = y.pkt.typ ∧ p.dst = y.pkt.dst ∧ p.payload = y.pkt.payload ∧ p.seq = y.pkt.seq ∧ p.part = y.pkt.part
      ∧ p.epoch = s.mach.core.rd R.NET_RTCTL_ACTIVE) := by
  obtain ⟨g, hg, hsrc, hep⟩ := launch_carries ((hasWay_congr hcreg _ _).mpr (hasWay_of_route hm hr))
  refine ⟨g, by rw [ht, resend_eq, hg, hfly], (congrArg Packet.typ hsrc :), (congrArg Packet.dst hsrc :),
    (congrArg Packet.payload hsrc :), (congrArg Packet.seq hsrc :), (congrArg Packet.part hsrc :), hep.trans (rd_congr hcreg _)⟩

/-- A command with a part counted once more as issued. -/
def Cmd.reissued (x : Cmd) (k : Nat) : Cmd :=
  { x with parts := x.parts.map (fun z => if z.k = k then { z with tries := z.tries + 1 } else z) }

theorem reissue_due {c : Core} {u q n k : Nat} {x : Cmd} {y : Part} (ho : c.openPart u q n k = some (x, y)) (ht : y.tries < 3)
    (hd : c.rd R.NET_E2E_REISSUE * (y.tries + 1) ≤ c.now - y.first) : c.reissue u q n k = (c.resend x y).putCmd (x.reissued k) := by
  unfold Core.reissue
  rw [ho]
  exact if_pos ⟨ht, hd⟩

theorem exec_reissue {s : State} {u q n k : Nat} (hq : isQueue u q = true) :
    exec (.reissue u q n k) s = s.onCore (fun c => c.reissue u q n k) := by
  show onlyIf (isQueue u q) _ = _
  rw [hq, onlyIf_true]

theorem reissue_completes {s : State} {u q n k : Nat} {x : Cmd} {y : Part} (hl : s.live = true) (hq : isQueue u q = true)
    (ho : s.mach.core.openPart u q n k = some (x, y)) (ht : y.tries < 3)
    (hd : s.mach.core.rd R.NET_E2E_REISSUE * (y.tries + 1) ≤ s.mach.core.now - y.first) :
    Completes (.reissue u q n k) s (fun s' => MemKept s s' ∧ OutsideKept s s' ∧
      (y.pkt.mcast = false → (s.mach.core.route y.pkt.dst (s.mach.core.unitRouter (y.sender x))).isSome = true →
        Sent s s' (fun p => p.typ = y.pkt.typ ∧ p.dst = y.pkt.dst ∧ p.payload = y.pkt.payload ∧ p.seq = y.pkt.seq
          ∧ p.part = y.pkt.part ∧ p.epoch = s.mach.core.rd R.NET_RTCTL_ACTIVE)) ∧
      Queued s' x.id (fun z => z.status = x.status ∧
        z.parts = x.parts.map (fun p => if p.k = k then { p with tries := p.tries + 1 } else p))) := by
  obtain ⟨hx, -, -⟩ := openPart_mem ho
  refine completes_onCore (f := fun c => c.reissue u q n k) (exec_reissue hq) hl fun t hmem hout he => ?_
  rw [reissue_due ho ht hd] at he
  refine ⟨hmem, hout, fun hm hr => resend_again rfl rfl (by rw [he]; rfl) hm hr,
    queued_of_put (l := s.mach.core.queues.cmds) (y := x.reissued k) rfl ?_ ⟨x, hx, rfl⟩ ⟨rfl, rfl⟩⟩
  rw [he, ← (launch_netOnly s.mach.core y.pkt (y.sender x)).queues]
  rfl

/-! ## A part given its status -/

/-- A command with a part given its status. -/
def Cmd.partEnded (x : Cmd) (k st : Nat) : Cmd :=
  { x with parts := x.parts.map (fun y => if y.k = k then { y with status := some st } else y) }

theorem partDone_eq (c : Core) (x : Cmd) (k st : Nat) : c.partDone x k st
    = if x.opcode = 0x39 then (c.putCmd (x.partEnded k st)).sealxSettle x.sealStep else c.putCmd (x.partEnded k st).settle := rfl

/-- Settling an exchange of seals leaves the network, and gives commands no more than their outcomes. -/
theorem sealxSettle_keeps (c : Core) (step : Nat) : (c.sealxSettle step).net = c.net ∧
    ∃ g : Cmd → Cmd, (c.sealxSettle step).queues.cmds = c.queues.cmds.map g ∧ ∀ y, (g y).id = y.id ∧ (g y).parts = y.parts := by
  have hsame : ∃ g : Cmd → Cmd, c.queues.cmds = c.queues.cmds.map g ∧ ∀ y, (g y).id = y.id ∧ (g y).parts = y.parts :=
    ⟨id, (List.map_id _).symm, fun _ => ⟨rfl, rfl⟩⟩
  unfold Core.sealxSettle
  split
  · exact ⟨rfl, hsame⟩
  · split
    · refine ⟨rfl, _, rfl, fun y => ?_⟩
      split <;> exact ⟨rfl, rfl⟩
    · exact ⟨rfl, hsame⟩

theorem partDone_net (c : Core) (x : Cmd) (k st : Nat) : (c.partDone x k st).net = c.net := by
  rw [partDone_eq]
  split
  · exact (sealxSettle_keeps _ _).1
  · rfl

/-- The ended part has its status. -/
theorem partEnded_part (x : Cmd) {k st : Nat} (hk : ∃ p ∈ x.parts, p.k = k) :
    (∃ p ∈ (x.partEnded k st).parts, p.k = k) ∧ ∀ p ∈ (x.partEnded k st).parts, p.k = k → p.status = some st := by
  obtain ⟨p, hp, hpk⟩ := hk
  refine ⟨⟨_, List.mem_map_of_mem hp, by rw [if_pos hpk]; exact hpk⟩, fun r hr hrk => ?_⟩
  obtain ⟨w, -, rfl⟩ := List.mem_map.mp hr
  by_cases hw : w.k = k
  · rw [if_pos hw]
  · rw [if_neg hw] at hrk
    exact absurd hrk hw

theorem partDone_hasPart {t : State} {c : Core} {x : Cmd} {k st : Nat} (hx : x ∈ c.queues.cmds) (hk : ∃ p ∈ x.parts, p.k = k)
    (ht : t.mach.core = c.partDone x k st) : HasPart t x.id k (fun p => p.status = some st) := by
  rw [partDone_eq] at ht
  split at ht
  · obtain ⟨-, g, hg, hkeep⟩ := sealxSettle_keeps (c.putCmd (x.partEnded k st)) x.sealStep
    refine queued_of_map (l := (c.putCmd (x.partEnded k st)).queues.cmds) (g := g) (by rw [ht, hg]) (fun y _ => (hkeep y).1) ?_ ?_
    · exact ⟨x.partEnded k st, List.mem_map.mpr ⟨x, hx, if_pos rfl⟩, rfl⟩
    · intro y hy hid
      obtain ⟨w, -, rfl⟩ := List.mem_map.mp hy
      have hput : w.id = (x.partEnded k st).id := by
        by_contra hne
        rw [if_neg hne] at hid
        exact hne hid
      rw [(hkeep _).2, if_pos hput]
      exact partEnded_part x hk
  · refine queued_of_put (l := c.queues.cmds) (y := (x.partEnded k st).settle) (settle_id _) (by rw [ht]; rfl) ⟨x, hx, rfl⟩ ?_
    rw [settle_parts]
    exact partEnded_part x hk

theorem exec_partLoss {s : State} {u q n k : Nat} (hq : isQueue u q = true) :
    exec (.partLoss u q n k) s = s.onCore (fun c => c.partLoss u q n k) := by
  show onlyIf (isQueue u q) _ = _
  rw [hq, onlyIf_true]

theorem partLoss_completes {s : State} {u q n k : Nat} {x : Cmd} {y : Part} (hl : s.live = true) (hq : isQueue u q = true)
    (ho : s.mach.core.openPart u q n k = some (x, y)) (hd : s.mach.core.rd R.NET_E2E_LOSS ≤ s.mach.core.now - y.first) :
    Completes (.partLoss u q n k) s (fun s' => MemKept s s' ∧ OutsideKept s s'
      ∧ HasPart s' x.id k (fun p => p.status = some stTIMEOUT)) := by
  obtain ⟨hx, hy, hk⟩ := openPart_mem ho
  refine completes_onCore (f := fun c => c.partLoss u q n k) (exec_partLoss hq) hl fun t hmem hout he =>
    ⟨hmem, hout, partDone_hasPart hx ⟨y, hy, hk⟩ (he.trans ?_)⟩
  unfold Core.partLoss
  rw [ho]
  exact if_pos hd

/-! ## ACK at its source -/

/-- An arrival finished with stands at its holding unit no more. -/
theorem dropArr_gone (c : Core) (a : Arrival) : ∀ b ∈ (c.dropArr a).net.arr, b.id ≠ a.id := fun b hb => by
  have := (List.mem_filter.mp hb).2
  simpa using this

theorem ack_answers {s : State} {i : Nat} {a : Arrival} {x : Cmd} {k : Part} (hl : s.live = true)
    (ha : s.mach.core.net.arr[i]? = some a) (htyp : a.pkt.typ = 4) (hc : adClass a.pkt.dst ≠ 1)
    (hans : s.mach.core.answered a.pkt = some (x, k)) :
    Completes (.ack i) s (fun s' => MemKept s s' ∧ OutsideKept s s' ∧ (∀ b ∈ s'.mach.core.net.arr, b.id ≠ a.id) ∧
      (a.pkt.status = stEPOCH → k.pkt.mcast = false →
        (s.mach.core.route k.pkt.dst (s.mach.core.unitRouter (k.sender x))).isSome = true →
        Sent s s' (fun p => p.typ = k.pkt.typ ∧ p.dst = k.pkt.dst ∧ p.payload = k.pkt.payload ∧ p.seq = k.pkt.seq
          ∧ p.part = k.pkt.part ∧ p.epoch = s.mach.core.rd R.NET_RTCTL_ACTIVE)) ∧
      (a.pkt.status ≠ stEPOCH → HasPart s' x.id k.k (fun p => p.status = some a.pkt.status))) := by
  obtain ⟨hrun, hk⟩ := answered_eq_some.mp hans
  obtain ⟨hx, -⟩ := running?_mem hrun
  have hk : k ∈ x.parts := List.mem_of_find?_eq_some hk
  have hrow : s.mach.ackAt a = s.mach.onCore (fun c =>
      if a.pkt.status = stEPOCH then (c.dropArr a).resend x k else (c.dropArr a).partDone x k.k a.pkt.status) := by
    unfold Mach.ackAt Mach.onCore
    rw [if_neg hc]
    dsimp only
    rw [answered_dropArr a hans]
  refine completes_onMach (f := fun m => match m.core.net.arr[i]? with | some a => if a.pkt.typ = 4 then m.ackAt a else m | none => m)
    rfl hl fun t hout he => ?_
  rw [ha] at he
  dsimp only at he
  rw [if_pos htyp, hrow] at he
  refine ⟨memKept_of_onCore he, hout, ?gone, fun hst hm hr => ?again, fun hst => ?ended⟩
  all_goals have hcore := core_of_onCore he
  case gone =>
    rw [hcore]
    split
    · rw [resend_eq, (launch_netOnly _ _ _).arr]
      exact dropArr_gone _ a
    · rw [partDone_net]
      exact dropArr_gone _ a
  case again =>
    rw [if_pos hst] at hcore
    exact resend_again (c := s.mach.core.dropArr a) rfl rfl (by rw [hcore]) hm hr
  case ended =>
    rw [if_neg hst] at hcore
    exact partDone_hasPart (c := s.mach.core.dropArr a) hx ⟨k, hk, rfl⟩ hcore

/-- A slice's write that was taken and that nobody waits on is done with. -/
theorem larderAck_written {m : Mach} {a : Arrival} {f : Fetch} (hf : m.core.fetchOf a.pkt = some f) (hw : f.write = true)
    (hn : f.waiters = []) (hst : a.pkt.status = stOK) (hi : f.inval = false) :
    m.larderAck a = m.onCore (fun c => (c.dropArr a).dropFetch f) := by
  unfold Mach.larderAck
  rw [hf]
  simp [hw, hn, hst, hi, Mach.wakeWaiters]

theorem ack_larder {s : State} {i : Nat} {a : Arrival} {f : Fetch} (hl : s.live = true) (ha : s.mach.core.net.arr[i]? = some a)
    (htyp : a.pkt.typ = 4) (hc : adClass a.pkt.dst = 1) (hf : s.mach.core.fetchOf a.pkt = some f) (hw : f.write = true)
    (hn : f.waiters = []) (hst : a.pkt.status = stOK) (hi : f.inval = false) :
    Completes (.ack i) s (fun s' => MemKept s s' ∧ OutsideKept s s' ∧ (∀ b ∈ s'.mach.core.net.arr, b.id ≠ a.id) ∧
      s'.mach.core.lar.fetches = s.mach.core.lar.fetches.filter (fun g => decide (g.tag ≠ f.tag))) := by
  refine completes_onMach (f := fun m => match m.core.net.arr[i]? with | some a => if a.pkt.typ = 4 then m.ackAt a else m | none => m)
    rfl hl fun t hout he => ?_
  rw [ha] at he
  dsimp only at he
  unfold Mach.ackAt at he
  rw [if_pos htyp, if_pos hc, larderAck_written hf hw hn hst hi] at he
  refine ⟨memKept_of_onCore he, hout, ?_, ?_⟩
  all_goals rw [core_of_onCore he]
  · exact dropArr_gone s.mach.core a
  · rfl

/-! ## Streams released (R288) -/

theorem releaseStream_source {c : Core} {i : Nat} {e : SStream} (he : c.net.src[i]? = some e)
    (hd : c.rd R.NET_E2E_LOSS ≤ c.now - e.last)
    (hfree : ∀ x ∈ c.queues.cmds, x.unit = e.unit → x.running = true → ∀ p ∈ x.parts, p.status = none →
      streamDst p.pkt.dst ≠ e.dst) : c.releaseStream i = { c with net := { c.net with src := c.net.src.eraseIdx i } } := by
  obtain ⟨hi, -⟩ := List.getElem?_eq_some_iff.mp he
  have hidle : c.queues.cmds.any (fun x => decide (x.unit = e.unit) && x.running
      && x.parts.any (fun k => k.status.isNone && decide (streamDst k.pkt.dst = e.dst))) = false := by
    refine List.any_eq_false.mpr fun x hx hbusy => ?_
    simp only [Bool.and_eq_true, decide_eq_true_eq, List.any_eq_true, Option.isNone_iff_eq_none] at hbusy
    obtain ⟨⟨hu, hrun⟩, p, hp, hnone, hdst⟩ := hbusy
    exact hfree x hx hu hrun p hp hnone hdst
  unfold Core.releaseStream
  dsimp only
  rw [if_pos hi, he]
  exact if_pos ⟨hd, hidle⟩

theorem releaseStream_holder {c : Core} {i : Nat} {e : HStream} (hi : c.net.src.length ≤ i)
    (he : c.net.held[i - c.net.src.length]? = some e) (hd : c.rd R.NET_E2E_LOSS ≤ c.now - e.last) :
    c.releaseStream i = { c with net := { c.net with held := c.net.held.eraseIdx (i - c.net.src.length) } } := by
  unfold Core.releaseStream
  dsimp only
  rw [if_neg (by omega), he]
  exact if_pos hd

theorem streamRelease_completes {s : State} {i : Nat} {n : NetSt} (hl : s.live = true)
    (h : s.mach.core.releaseStream i = { s.mach.core with net := n }) :
    Completes (.streamRelease i) s (fun s' => s'.mach.core.net = n ∧ RegsKept s s' ∧ MemKept s s') :=
  completes_onCore (f := fun c => c.releaseStream i) rfl hl fun t hmem _ he =>
    ⟨by rw [he, h], regsKept_of_eq (he.trans h) rfl rfl, hmem⟩

/-- What a row leaves that holds wherever its effect does. -/
theorem completes_imp {i : Instr} {s : State} {P Q : State → Prop} (h : Completes i s P) (hpq : ∀ t, P t → Q t) : Completes i s Q := by
  obtain ⟨t, he, hp⟩ := h
  exact ⟨t, he, hpq t hp⟩

/-- Settles O13: a part goes out again as its source issued it, or takes the status it is given; a stream's entry alone leaves. -/
theorem partsEndAndStreamsAreReleased : Obligations.PartsEndAndStreamsAreReleased := by
  refine ⟨fun s => ⟨?reissue, ?loss, ?ack⟩, fun s i hl => ⟨?source, ?holder⟩⟩
  case reissue => exact fun _ _ _ _ _ _ hl hq ho ht hd => reissue_completes hl hq ho ht hd
  case loss => exact fun _ _ _ _ _ _ hl hq ho hd => partLoss_completes hl hq ho hd
  case ack =>
    exact fun _ _ hl ha htyp => ⟨fun _ _ hc hans => ack_answers hl ha htyp hc hans,
      fun _ hc hf hw hn hst hi => ack_larder hl ha htyp hc hf hw hn hst hi⟩
  case source =>
    refine fun e he hd hfree => completes_imp (streamRelease_completes hl (releaseStream_source he hd hfree)) fun t h => ?_
    obtain ⟨hnet, hregs, hmem⟩ := h
    exact ⟨by rw [hnet], by rw [hnet], hregs, hmem⟩
  case holder =>
    refine fun e hi he hd => completes_imp (streamRelease_completes hl (releaseStream_holder hi he hd)) fun t h => ?_
    obtain ⟨hnet, hregs, hmem⟩ := h
    exact ⟨by rw [hnet], by rw [hnet], hregs, hmem⟩

end Sys2Proof.Machine
end

section
/-! Reads that nothing holds back: of tile memory, of a larder slice, and of a command (R95, R165, R173, R283). -/

namespace Sys2Proof.Machine

/-! ## Units touched -/

theorem mem_touched {k p n l : Nat} : l ∈ touched k p n ↔ 0 < n ∧ p / 2 ^ k ≤ l ∧ l ≤ (p + n - 1) / 2 ^ k := by
  unfold touched
  split
  · next h => simp [h]
  · next h =>
    have hle : p / 2 ^ k ≤ (p + n - 1) / 2 ^ k := Nat.div_le_div_right (by omega)
    simp only [List.mem_map, List.mem_range]
    constructor
    · rintro ⟨i, hi, rfl⟩
      omega
    · rintro ⟨-, hlo, hhi⟩
      exact ⟨l - p / 2 ^ k, by omega, by omega⟩

/-- Bytes within others touch no other units. -/
theorem touched_within {k p n a b l : Nat} (ha : p ≤ a) (hb : a + b ≤ p + n) (h : l ∈ touched k a b) : l ∈ touched k p n := by
  obtain ⟨h0, hlo, hhi⟩ := mem_touched.mp h
  exact mem_touched.mpr ⟨by omega, (Nat.div_le_div_right ha).trans hlo, hhi.trans (Nat.div_le_div_right (by omega))⟩

/-! ## Memory in pieces -/

theorem read_add (m : Mach) (a n k : Nat) : m.read a (n + k) = m.read a n ++ m.read (a + n) k := by
  rw [Mach.read_eq, Mach.read_eq, Mach.read_eq, List.range_add, List.map_append, List.map_map]
  simp only [Function.comp_def, Nat.add_assoc]

/-- Lines read one after another are the bytes they hold. -/
theorem flatMap_lines (m : Mach) (b l k : Nat) :
    ((List.range k).map (fun i => l + i)).flatMap (fun i => m.read (b + 64 * i) 64) = m.read (b + 64 * l) (64 * k) := by
  induction k with
  | zero => simp [Mach.read_eq]
  | succ k ih =>
    rw [List.range_succ, List.map_append, List.flatMap_append, ih, List.map_singleton, List.flatMap_singleton, Nat.mul_succ, read_add]
    congr 2
    omega

/-- The bytes at a place, out of the lines that hold them. -/
theorem lines_read (m : Mach) (b p n : Nat) :
    (((touched 6 p n).flatMap (fun l => m.read (b + 64 * l) 64)).drop (p % 64)).take n = m.read (b + p) n := by
  unfold touched
  split
  · next h => simp [h, Mach.read_eq]
  · rw [flatMap_lines, read_drop_take _ _ _ _ _ (by omega)]
    congr 1
    omega

/-- Slots' shares read one after another are the bytes they hold. -/
theorem flatMap_slots (m : Mach) (b p n : Nat) {k : Nat} (hk : k ≤ (p + n - 1) / 256 + 1 - p / 256) (hn : 0 < n) :
    ((List.range k).map (fun i => p / 256 + i)).flatMap (fun s =>
      m.read (b + max p (256 * s)) (min (p + n) (256 * (s + 1)) - max p (256 * s)))
        = m.read (b + p) (min (p + n) (max p (256 * (p / 256 + k))) - p) := by
  induction k with
  | zero =>
    rw [show min (p + n) (max p (256 * (p / 256 + 0))) - p = 0 by omega]
    simp [Mach.read_eq]
  | succ k ih =>
    rw [List.range_succ, List.map_append, List.flatMap_append, ih (by omega), List.map_singleton, List.flatMap_singleton,
      show min (p + n) (max p (256 * (p / 256 + (k + 1)))) - p = (min (p + n) (max p (256 * (p / 256 + k))) - p)
        + (min (p + n) (256 * (p / 256 + k + 1)) - max p (256 * (p / 256 + k))) by omega, read_add]
    congr 2
    omega

/-- The bytes at a place, out of the shares of the slots that hold them. -/
theorem slots_read (m : Mach) (b p n : Nat) : (slotChunks p n).flatMap (fun r => m.read (b + r.1) r.2) = m.read (b + p) n := by
  unfold slotChunks touched
  split
  · next h => simp [h, Mach.read_eq]
  · next h =>
    rw [List.flatMap_map]
    refine (flatMap_slots m b p n (k := (p + n - 1) / 2 ^ 8 + 1 - p / 2 ^ 8) (by omega) (by omega)).trans ?_
    congr 1
    omega

/-- A slot's share lies within the bytes it is a share of. -/
theorem slotChunks_within {p n : Nat} {r : Nat × Nat} (h : r ∈ slotChunks p n) : p ≤ r.1 ∧ r.1 + r.2 ≤ p + n := by
  obtain ⟨s, hs, rfl⟩ := List.mem_map.mp h
  obtain ⟨h0, hlo, hhi⟩ := mem_touched.mp hs
  dsimp only
  omega

/-! ## Reads -/

/-- Tile memory in whose lines no error stands reads as its bytes, and nothing changes. -/
theorem tileRead_clean {m : Mach} {t p n : Nat} (h : ∀ l ∈ touched 6 p n, m.lineErrs (lineId t l) = []) :
    m.tileRead t p n = (m, some (m.read (tileBase t + p) n)) := by
  unfold Mach.tileRead readSpan
  rw [readInOrder_clean (g := fun l => m.read (tileBase t + 64 * l) 64) (fun l hl => Mach.readLine_clean _ _ _ _ _ _ (h l hl)),
    ← lines_read m (tileBase t) p n]
  rfl

/-- Shares that each read as their bytes without a change read as those in order, without a change. -/
theorem readChunks_clean {m : Mach} {x : Cmd} {b : Nat} {rs : List (Nat × Nat)}
    (h : ∀ r ∈ rs, m.readSlot x r.1 r.2 = .ok m (m.read (b + r.1) r.2)) :
    m.readChunks x rs = .ok m (rs.flatMap (fun r => m.read (b + r.1) r.2)) := by
  induction rs with
  | nil => rfl
  | cons r rs ih =>
    unfold Mach.readChunks
    rw [h r List.mem_cons_self]
    dsimp only [Ans.bind]
    rw [ih fun q hq => h q (List.mem_cons_of_mem r hq)]
    rfl

theorem seenAt_none {c : Core} (hs : c.queues.seen = []) (x : Cmd) (p n : Nat) : c.seenAt x p n = none := by
  unfold Core.seenAt
  rw [hs]
  rfl

/-- A read that nothing holds back, where no command's read has waited, gives the bytes and changes nothing. -/
theorem localRead_unheld {m : Mach} {x : Cmd} {cls off n : Nat} (hs : m.core.queues.seen = []) (hr : m.ReadsNow x cls off n) :
    m.localRead x cls off n = .ok m (m.bytesAt x off n) := by
  obtain ⟨hstatus, hbank, htags, herr⟩ := hr
  have hgo : ∀ r ∈ slotChunks (x.phys off) n, m.core.readTags x.unit r.1 r.2 = .go := fun r hrm => by
    obtain ⟨hlo, hhi⟩ := slotChunks_within hrm
    refine readTags_go fun k hk => htags k ?_
    obtain ⟨hk, hregion⟩ := List.mem_filter.mp hk
    exact List.mem_filter.mpr ⟨touched_within hlo hhi hk, hregion⟩
  have hslot : ∀ r ∈ slotChunks (x.phys off) n, m.readSlot x r.1 r.2 = .ok m (m.read (tileBase x.unit + r.1) r.2) := fun r hrm => by
    obtain ⟨hlo, hhi⟩ := slotChunks_within hrm
    unfold Mach.readSlot
    rw [seenAt_none hs, hgo r hrm, tileRead_clean fun l hl => herr l (touched_within hlo hhi hl)]
  have hfailed : m.core.meetsFailed x (x.phys off) n = false := List.any_eq_false.mpr fun r hrm => by simp [hgo r hrm]
  unfold Mach.localRead
  rw [hstatus]
  dsimp only
  rw [hbank, if_neg (by decide), hfailed, if_neg (by decide), readChunks_clean hslot, slots_read]
  show Ans.ok (if m.core.queues.seen = [] then m else _) _ = _
  rw [if_pos hs]
  rfl

/-- A slice in whose lines no error stands reads as its bytes, and nothing changes. -/
theorem sliceRead_bytes {m : Mach} {s p n : Nat} (h : ∀ l ∈ touched 6 p n, m.lineErrs (sliceLineId s l) = []) :
    m.sliceRead s p n = (m, some (m.read (sliceBase s + p) n)) := by rw [Mach.sliceRead_clean h, lines_read]

end Sys2Proof.Machine
end

section
/-! The mover at its source: PUT, GET, GATHER, COPY and RTINC (R283 to R286). -/

namespace Sys2Proof.Machine

/-! ## A command's packets -/

/-- Every packet makes one part, but those of a multicast PUT (R230). -/
theorem width_eq_one {x : Cmd} (h : ¬ (x.opcode = 0x30 ∧ rmMC x.word ≠ 0)) : x.width = 1 := if_neg h

/-- A packet's one part is its command's next. -/
theorem partsSent_one {x y : Cmd} {p : Packet} {now loc : Nat} {st : Option Nat} (hw : y.width = 1)
    (hparts : y.parts = x.parts) : y.partsSent p now loc st
      = [{ k := x.parts.length, pkt := p, first := now, loc := loc, status := st }] := by
  unfold Cmd.partsSent Cmd.nextParts
  rw [hw, hparts]
  rfl

theorem partsSent_length (y : Cmd) (p : Packet) (now loc : Nat) (st : Option Nat) :
    (y.partsSent p now loc st).length = y.width := by simp [Cmd.partsSent, Cmd.nextParts]

/-- What a source gives its packets, whatever the SEQ. -/
def SourceFact (p : Packet) (is : Packet → Prop) : Prop := ∀ q n, q.atSource = (p.withSeq n).atSource → is q

/-- A packet of one part sent for a command: it is in the mesh, and its part is the command's next. -/
theorem sendParts_issues {s t : State} {u q f op : Nat} {x y : Cmd} {p : Packet} {loc : Nat} {st : Option Nat} {is : Packet → Prop}
    (hr : Runs s u q f op x) (hid : y.id = x.id) (hparts : y.parts = x.parts) (hw : y.width = 1) (hway : s.mach.core.hasWay p y.unit)
    (his : SourceFact p is) (ht : t.mach.core = s.mach.core.sendParts y p loc st) :
    Sent s t is ∧ Issued t x (fun r => is r.pkt ∧ r.loc = loc) := by
  obtain ⟨hx, -⟩ := runs_mem hr
  obtain ⟨n, hsent, hthere, hqueued⟩ := sendParts_carries hx hid hparts hway ht
  refine ⟨sent_imp hsent fun q hq => his q n hq, hthere, fun z hz hzid => ?_⟩
  rw [hqueued z hz hzid, partsSent_one hw hparts]
  exact ⟨_, rfl, rfl, his _ n rfl, rfl⟩

/-! ## READREQs (R285, R286) -/

/-- The READREQ of a command's next part. -/
def Core.readreqPacket (c : Core) (x : Cmd) (a n : Nat) : Packet :=
  { typ := 2, ackreq := true, len := n, part := x.parts.length, dst := a, src := c.srcOf x }

theorem readPart_sends {m : Mach} {x : Cmd} {a off n loc : Nat} (hst : m.core.partStatus x a off n = none)
    (hroom : m.core.streamRoom x.unit a 1 = true) :
    m.readPart x a off n loc = m.onCore (fun c => c.sendParts x (c.readreqPacket x (a + off) n) loc none) := by
  unfold Mach.readPart
  rw [hst]
  dsimp only
  rw [hroom]
  rfl

/-- What the obligation says of a part that reads. -/
theorem readreq_fact (c : Core) (x : Cmd) (a n : Nat) : SourceFact (c.readreqPacket x a n) (fun p =>
    p.typ = 2 ∧ p.dst = a ∧ p.len = n ∧ p.part = x.parts.length) := fun _ _ h =>
  ⟨(congrArg Packet.typ h :), (congrArg Packet.dst h :), (congrArg Packet.len h :), (congrArg Packet.part h :)⟩

/-- A row whose running command reads its next part sends the READREQ. -/
theorem readRow_completes {i : Instr} {s : State} {ok : Bool} {u q f op : Nat} {x : Cmd} {g : Mach → Cmd → Mach} {a off n loc : Nat}
    (hr : Runs s u q f op x) (hop : op ≠ 0x30) (hok : ok = true)
    (hi : exec i s = onlyIf ok (s.onMach (fun m => m.withCmd u q f op g))) (hg : g s.mach x = s.mach.readPart x a off n loc)
    (hst : s.mach.core.partStatus x a off n = none) (hroom : s.mach.core.streamRoom u a 1 = true) :
    Completes i s (fun s' => OutsideKept s s' ∧ MemKept s s' ∧
      Sent s s' (fun p => p.typ = 2 ∧ p.dst = a + off ∧ p.len = n ∧ p.part = x.parts.length) ∧
      Issued s' x (fun r => (r.pkt.typ = 2 ∧ r.pkt.dst = a + off ∧ r.pkt.len = n ∧ r.pkt.part = x.parts.length) ∧ r.loc = loc)) := by
  obtain ⟨-, hu, -⟩ := runs_mem hr
  obtain ⟨-, -, -, ho⟩ := id hr
  refine completes_runs hr hok hi fun t hout he => ?_
  rw [hg, readPart_sends hst (by rwa [hu])] at he
  exact ⟨hout, memKept_of_onCore he, sendParts_issues hr rfl rfl (width_eq_one fun h => hop (ho.symm.trans h.1))
    (hasWay_of_route rfl (route_of_partStatus hst)) (readreq_fact _ _ _ _) (core_of_onCore he)⟩

theorem get_completes {s : State} {u q f : Nat} {x : Cmd} (hr : Runs s u q f 0x31 x) (hmore : x.more = true)
    (hroom : s.mach.core.streamRoom u (rmRemote x.word) 1 = true)
    (hst : s.mach.core.partStatus x (rmRemote x.word) (512 * x.parts.length) (min 512 (rmLen x.word - 512 * x.parts.length)) = none) :
    Completes (.get u q f) s (fun s' => OutsideKept s s' ∧ MemKept s s' ∧
      Sent s s' (fun p => p.typ = 2 ∧ p.dst = rmRemote x.word + 512 * x.parts.length
        ∧ p.len = min 512 (rmLen x.word - 512 * x.parts.length) ∧ p.part = x.parts.length) ∧
      Issued s' x (fun r => (r.pkt.typ = 2 ∧ r.pkt.dst = rmRemote x.word + 512 * x.parts.length
        ∧ r.pkt.len = min 512 (rmLen x.word - 512 * x.parts.length) ∧ r.pkt.part = x.parts.length)
          ∧ r.loc = x.landAt (512 * x.parts.length))) :=
  readRow_completes hr (by decide) (runs_isQueue hr) rfl (if_pos hmore) hst hroom

/-- COPY looks at its next part once every part before it is done. -/
theorem copy_idle {m : Mach} {x : Cmd} (h : ∀ p ∈ x.parts, p.status.isSome = true) : m.copy x =
    if x.more then m.readPart x (cpSrc x.word) (512 * x.parts.length) (min 512 (cpLen x.word - 512 * x.parts.length)) 0
    else m.onCore (fun c => c.putCmd x.settle) := by
  unfold Mach.copy
  rw [if_neg]
  intro hany
  obtain ⟨p, hp, hnone⟩ := List.any_eq_true.mp hany
  rw [Option.isNone_iff_eq_none] at hnone
  simpa [hnone] using h p hp

theorem copy_completes {s : State} {u q f : Nat} {x : Cmd} (hr : Runs s u q f 0x33 x) (hdone : ∀ p ∈ x.parts, p.status.isSome = true)
    (hmore : x.more = true) (hroom : s.mach.core.streamRoom u (cpSrc x.word) 1 = true)
    (hst : s.mach.core.partStatus x (cpSrc x.word) (512 * x.parts.length) (min 512 (cpLen x.word - 512 * x.parts.length)) = none) :
    Completes (.copy u q f) s (fun s' => OutsideKept s s' ∧ MemKept s s' ∧
      Sent s s' (fun p => p.typ = 2 ∧ p.dst = cpSrc x.word + 512 * x.parts.length
        ∧ p.len = min 512 (cpLen x.word - 512 * x.parts.length) ∧ p.part = x.parts.length) ∧
      Issued s' x (fun r => (r.pkt.typ = 2 ∧ r.pkt.dst = cpSrc x.word + 512 * x.parts.length
        ∧ r.pkt.len = min 512 (cpLen x.word - 512 * x.parts.length) ∧ r.pkt.part = x.parts.length) ∧ r.loc = 0)) :=
  readRow_completes hr (by decide) (runs_isQueue hr) rfl ((copy_idle hdone).trans (if_pos hmore)) hst hroom

/-! ## GATHER (R285) -/

theorem gather_next {m : Mach} {x : Cmd} {a o n i : Nat} (hne : x.gather ≠ []) (hmore : x.more = true)
    (hpart : gatherPart x.gather x.parts.length = some (a, o, n, i)) : m.gather x = m.readPart x a o n (x.phys i) := by
  unfold Mach.gather
  rw [if_neg hne, if_pos hmore, hpart]

theorem gather_part_completes {s : State} {u f : Nat} {x : Cmd} {a o n i : Nat} (hr : Runs s u 6 f 0x32 x) (hu : u < 960)
    (hne : x.gather ≠ []) (hmore : x.more = true) (hpart : gatherPart x.gather x.parts.length = some (a, o, n, i))
    (hst : s.mach.core.partStatus x a o n = none) (hroom : s.mach.core.streamRoom u a 1 = true) :
    Completes (.gather u f) s (fun s' => OutsideKept s s' ∧ MemKept s s' ∧
      Sent s s' (fun p => p.typ = 2 ∧ p.dst = a + o ∧ p.len = n ∧ p.part = x.parts.length) ∧
      Issued s' x (fun r => (r.pkt.typ = 2 ∧ r.pkt.dst = a + o ∧ r.pkt.len = n ∧ r.pkt.part = x.parts.length)
        ∧ r.loc = x.phys i)) :=
  readRow_completes hr (by decide) (decide_eq_true hu) rfl (gather_next hne hmore hpart) hst hroom

/-- A GATHER with its list taken. -/
def Core.takeList (c : Core) (x : Cmd) (es : List (Nat × Nat × Nat)) : Cmd :=
  { x with
    wait := none
    reads := c.readSlots x (gaList x.word) (16 * gaCount x.word)
    gather := es.flatMap (fun e => [e.1, e.2.1, e.2.2])
    p := gatherParts es }

theorem gather_first {m : Mach} {x : Cmd} (h0 : x.gather = [])
    (hread : m.localRead x clsMover (gaList x.word) (16 * gaCount x.word)
      = .ok m (m.bytesAt x (gaList x.word) (16 * gaCount x.word))) :
    m.gather x = m.onCore (fun c => match x.gatherStatus (m.bytesAt x (gaList x.word) (16 * gaCount x.word)) with
      | some st => c.finishCmd x st
      | none => c.putCmd (c.takeList x
          ((gatherEntries (m.bytesAt x (gaList x.word) (16 * gaCount x.word)) (gaCount x.word)).getD []))) := by
  unfold Mach.gather
  rw [if_pos h0, hread]
  dsimp only
  cases x.gatherStatus (m.bytesAt x (gaList x.word) (16 * gaCount x.word)) <;> rfl

theorem gather_list_completes {s : State} {u f : Nat} {x : Cmd} (hr : Runs s u 6 f 0x32 x) (hu : u < 960) (h0 : x.gather = [])
    (hs : s.mach.core.queues.seen = []) (hread : s.mach.ReadsNow x clsMover (gaList x.word) (16 * gaCount x.word)) :
    let list := s.mach.bytesAt x (gaList x.word) (16 * gaCount x.word)
    Completes (.gather u f) s (fun s' => OutsideKept s s' ∧ MemKept s s' ∧
      (∀ st, x.gatherStatus list = some st → Finished s' x.id st) ∧
      ∀ es, x.gatherStatus list = none → gatherEntries list (gaCount x.word) = some es → Queued s' x.id (fun y =>
        y.phase = .run ∧ y.gather = es.flatMap (fun e => [e.1, e.2.1, e.2.2]) ∧ y.p = gatherParts es)) := by
  intro list
  obtain ⟨hx, -⟩ := runs_mem hr
  obtain ⟨-, -, hrun, -⟩ := id hr
  obtain ⟨-, -, -, hphase, -⟩ := running?_mem hrun
  refine completes_runs hr (decide_eq_true hu) rfl fun t hout he => ?_
  rw [gather_first h0 (localRead_unheld hs hread)] at he
  refine ⟨hout, memKept_of_onCore he, fun st hst => ?refused, fun es hst hes => ?taken⟩
  all_goals
    have hcore := core_of_onCore he
    rw [hst] at hcore
  case refused => exact finished_of_finishCmd hcore ⟨x, hx, rfl⟩
  case taken =>
    rw [hes] at hcore
    exact queued_of_put (l := s.mach.core.queues.cmds) (y := s.mach.core.takeList x es) rfl (by rw [hcore]; rfl) ⟨x, hx, rfl⟩
      ⟨hphase, rfl, rfl⟩

/-! ## RTINC (R286) -/

theorem rtinc_sends {m : Mach} {x : Cmd} (hmore : x.more = true) (hst : m.core.partStatus x (rmRemote x.word) 0 0 = none)
    (hroom : m.core.streamRoom x.unit (rmRemote x.word) 1 = true) :
    m.rtinc x = m.onCore (fun c => c.sendParts x (c.tincPacket x) 0 none) := by
  unfold Mach.rtinc
  rw [if_pos hmore, hst]
  dsimp only
  rw [hroom]
  rfl

theorem rtinc_completes {s : State} {u q f : Nat} {x : Cmd} (hr : Runs s u q f 0x34 x) (hmore : x.more = true)
    (hst : s.mach.core.partStatus x (rmRemote x.word) 0 0 = none) (hroom : s.mach.core.streamRoom u (rmRemote x.word) 1 = true) :
    Completes (.rtinc u q f) s (fun s' => OutsideKept s s' ∧ MemKept s s' ∧
      Sent s s' (fun p => p.typ = 5 ∧ p.dst = rmRemote x.word ∧ p.tally = bits x.word 128 6 ∧ p.arg = bits x.word 134 21) ∧
      Issued s' x (fun r => (r.pkt.typ = 5 ∧ r.pkt.dst = rmRemote x.word ∧ r.pkt.tally = bits x.word 128 6
        ∧ r.pkt.arg = bits x.word 134 21) ∧ r.loc = 0)) := by
  obtain ⟨-, hu, -⟩ := runs_mem hr
  obtain ⟨-, -, -, ho⟩ := id hr
  refine completes_runs hr (runs_isQueue hr) rfl fun t hout he => ?_
  rw [rtinc_sends hmore hst (by rwa [hu])] at he
  refine ⟨hout, memKept_of_onCore he, sendParts_issues hr rfl rfl (width_eq_one fun h => absurd (ho.symm.trans h.1) (by decide))
    (hasWay_of_route rfl (route_of_partStatus hst)) (fun _ _ h => ?_) (core_of_onCore he)⟩
  exact ⟨(congrArg Packet.typ h :), (congrArg Packet.dst h :), (congrArg Packet.tally h :), (congrArg Packet.arg h :)⟩

/-! ## PUT (R283, R284, R230) -/

/-- A command that has read `n` bytes at an offset, the consuming slots noted. -/
def Core.noteReads (c : Core) (x : Cmd) (off n : Nat) : Cmd :=
  let new := if x.unit < 960 then c.readSlots x (bits (rmLocal x.word) 0 20 + off) n else []
  { x with reads := x.reads ++ new.filter (fun s => !x.reads.contains s) }

theorem noteReads_id (c : Core) (x : Cmd) (off n : Nat) : (c.noteReads x off n).id = x.id := rfl
theorem noteReads_parts (c : Core) (x : Cmd) (off n : Nat) : (c.noteReads x off n).parts = x.parts := rfl
theorem noteReads_unit (c : Core) (x : Cmd) (off n : Nat) : (c.noteReads x off n).unit = x.unit := rfl
theorem noteReads_width (c : Core) (x : Cmd) (off n : Nat) : (c.noteReads x off n).width = x.width := rfl

/-- What the obligation says of a packet that writes. -/
theorem putPacket_fact (c : Core) (x : Cmd) (off : Nat) (bs : List Byte) : SourceFact (c.putPacket x off bs) (fun p =>
    p.typ = 1 ∧ p.mcast = decide (rmMC x.word ≠ 0) ∧ p.dst = rmRemote x.word + off ∧ p.payload = bs ∧ p.len = bs.length
      ∧ p.part = x.parts.length ∧ p.src = c.srcOf x) := fun _ _ h =>
  ⟨(congrArg Packet.typ h :), (congrArg Packet.mcast h :), (congrArg Packet.dst h :), (congrArg Packet.payload h :),
    (congrArg Packet.len h :), (congrArg Packet.part h :), (congrArg Packet.src h :)⟩

/-- A PUT's packet to one unit has a way where its part is not refused. -/
theorem putPacket_way {c : Core} {x : Cmd} {off n : Nat} (bs : List Byte) (hmc : rmMC x.word = 0)
    (hst : c.partStatus x (rmRemote x.word) off n = none) : c.hasWay (c.putPacket x off bs) x.unit :=
  hasWay_of_route (p := c.putPacket x off bs) (decide_eq_false (not_not.mpr hmc)) (route_of_partStatus hst)

/-- A PUT's packet to a span has a way where one of the span's tiles is there. -/
theorem putPacket_span {c : Core} {x : Cmd} {off : Nat} (bs : List Byte) (u : Nat) (hmc : rmMC x.word ≠ 0)
    (h : c.spanPresent (rmRemote x.word + off) (decide (rmMC x.word = 2)) (rmMlast x.word) ≠ []) :
    c.hasWay (c.putPacket x off bs) u :=
  hasWay_of_span (p := c.putPacket x off bs) (decide_eq_true hmc) h

/-- The local bytes of a PUT as they stand: of its tile, or of the slice that LOCAL names. -/
def Mach.putBytes (m : Mach) (x : Cmd) (off n : Nat) : List Byte :=
  if x.unit < 960 then m.bytesAt x (bits (rmLocal x.word) 0 20 + off) n
  else m.read (sliceBase (bits (rmLocal x.word) 22 7) + (bits (rmLocal x.word) 0 22 + off)) n

theorem putBytes_length (m : Mach) (x : Cmd) (off n : Nat) : (m.putBytes x off n).length = n := by
  unfold Mach.putBytes Mach.bytesAt
  split <;> exact Mach.read_length _ _ _

/-- Nothing holds a PUT's read of its local bytes. -/
def Mach.PutReads (m : Mach) (x : Cmd) (off n : Nat) : Prop :=
  (x.unit < 960 → m.core.queues.seen = [] ∧ m.ReadsNow x clsMover (bits (rmLocal x.word) 0 20 + off) n) ∧
  (960 ≤ x.unit → m.core.unitThere (960 + bits (rmLocal x.word) 22 7) = true ∧ m.core.rd (R.LAR_CTL_STATE (bits (rmLocal x.word) 22 7)) ≠ 1
    ∧ m.core.rd (R.LAR_CTL_MODE (bits (rmLocal x.word) 22 7)) ≠ 0
    ∧ ∀ i ∈ touched 6 (bits (rmLocal x.word) 0 22 + off) n, m.lineErrs (sliceLineId (bits (rmLocal x.word) 22 7) i) = [])

theorem localBytes_unheld {m : Mach} {x : Cmd} {off n : Nat} (h : m.PutReads x off n) :
    m.localBytes x off n = .ok m (m.putBytes x off n) := by
  obtain ⟨htile, hgroup⟩ := h
  unfold Mach.localBytes Mach.putBytes
  dsimp only
  split
  · next hu =>
    obtain ⟨hs, hread⟩ := htile hu
    exact localRead_unheld hs hread
  · next hu =>
    obtain ⟨hthere, hstate, hmode, herr⟩ := hgroup (by omega)
    rw [hthere, if_neg (by decide), if_neg hstate, if_neg hmode, sliceRead_bytes herr]

/-- PUT's checks of its next packet at an offset. -/
def Core.putStatus (c : Core) (x : Cmd) (off n : Nat) : Option Nat :=
  if rmMC x.word = 0 then c.partStatus x (rmRemote x.word) off n else spanStatus (rmRemote x.word) off n

/-- The offset of PUT's next packet, and its bytes' number. -/
def Cmd.putOff (x : Cmd) : Nat := 512 * (x.parts.length / x.width)
def Cmd.putLen (x : Cmd) : Nat := min 512 (rmLen x.word - x.putOff)

theorem put_sends {m : Mach} {x : Cmd} (hmore : x.more = true) (hst : m.core.putStatus x x.putOff x.putLen = none)
    (hroom : m.core.streamRoom x.unit (rmRemote x.word) x.width = true) (hread : m.PutReads x x.putOff x.putLen) :
    m.put x = m.onCore (fun c => c.sendParts (c.noteReads x x.putOff x.putLen)
      (c.putPacket x x.putOff (m.putBytes x x.putOff x.putLen)) 0 (if bit x.word 195 then some stOK else none)) := by
  have hbytes := localBytes_unheld hread
  unfold Core.putStatus at hst
  unfold Cmd.putLen at hst hbytes ⊢
  unfold Cmd.putOff at hst hbytes ⊢
  unfold Mach.put
  dsimp only
  rw [if_pos hmore, hst]
  dsimp only
  rw [hroom, if_neg (by decide), hbytes]
  rfl

/-- A run of PUT that sends its next packet leaves what sending it leaves. -/
theorem put_row {s : State} {u q f : Nat} {x : Cmd} {P : State → Prop} (hr : Runs s u q f 0x30 x) (hmore : x.more = true)
    (hst : s.mach.core.putStatus x x.putOff x.putLen = none) (hroom : s.mach.core.streamRoom u (rmRemote x.word) x.width = true)
    (hread : s.mach.PutReads x x.putOff x.putLen)
    (h : ∀ t, OutsideKept s t → MemKept s t → t.mach.core = s.mach.core.sendParts (s.mach.core.noteReads x x.putOff x.putLen)
      (s.mach.core.putPacket x x.putOff (s.mach.putBytes x x.putOff x.putLen)) 0 (if bit x.word 195 then some stOK else none) → P t) :
    Completes (.put u q f) s P := by
  obtain ⟨-, hu, -⟩ := runs_mem hr
  refine completes_runs hr (runs_isQueue hr) rfl fun t hout he => ?_
  rw [put_sends hmore hst (by rwa [hu]) hread] at he
  exact h t hout (memKept_of_onCore he) (core_of_onCore he)

theorem put_unicast_completes {s : State} {u q f : Nat} {x : Cmd} (hr : Runs s u q f 0x30 x) (hmore : x.more = true)
    (hroom : s.mach.core.streamRoom u (rmRemote x.word) x.width = true) (hread : s.mach.PutReads x x.putOff x.putLen)
    (hmc : rmMC x.word = 0) (hst : s.mach.core.partStatus x (rmRemote x.word) x.putOff x.putLen = none) {is : Packet → Prop}
    (his : is = fun p => p.typ = 1 ∧ p.mcast = false ∧ p.dst = rmRemote x.word + x.putOff ∧ p.payload = s.mach.putBytes x x.putOff x.putLen
      ∧ p.len = x.putLen ∧ p.part = x.parts.length ∧ p.src = s.mach.core.srcOf x) :
    Completes (.put u q f) s (fun s' => OutsideKept s s' ∧ MemKept s s' ∧ Sent s s' is ∧
      Issued s' x (fun r => is r.pkt ∧ r.loc = 0)) := by
  refine put_row hr hmore ((if_pos hmc).trans hst) hroom hread fun t hout hmem hcore => ⟨hout, hmem, ?_⟩
  have hbs := putBytes_length s.mach x x.putOff x.putLen
  generalize s.mach.putBytes x x.putOff x.putLen = bs at his hcore hbs
  generalize x.putOff = off at *
  generalize x.putLen = n at *
  refine sendParts_issues hr (noteReads_id _ _ _ _) (noteReads_parts _ _ _ _) ((noteReads_width _ _ _ _).trans (width_eq_one fun h => h.2 hmc))
    (putPacket_way _ hmc hst) (fun p m h => ?_) hcore
  obtain ⟨htyp, hm, hdst, hpay, hlen, hpart, hsrc⟩ := putPacket_fact _ _ _ _ p m h
  rw [his]
  exact ⟨htyp, hm.trans (decide_eq_false (not_not.mpr hmc)), hdst, hpay, hlen.trans hbs, hpart, hsrc⟩

theorem put_multicast_completes {s : State} {u q f : Nat} {x : Cmd} (hr : Runs s u q f 0x30 x) (hmore : x.more = true)
    (hroom : s.mach.core.streamRoom u (rmRemote x.word) x.width = true) (hread : s.mach.PutReads x x.putOff x.putLen)
    (hmc : rmMC x.word ≠ 0) (hst : spanStatus (rmRemote x.word) x.putOff x.putLen = none)
    (hspan : s.mach.core.spanPresent (rmRemote x.word + x.putOff) (decide (rmMC x.word = 2)) (rmMlast x.word) ≠ []) :
    Completes (.put u q f) s (fun s' => OutsideKept s s' ∧ MemKept s s' ∧
      Sent s s' (fun p => p.typ = 1 ∧ p.mcast = true ∧ p.dst = rmRemote x.word + x.putOff
        ∧ p.payload = s.mach.putBytes x x.putOff x.putLen ∧ p.part = x.parts.length) ∧
      Queued s' x.id (fun y => ∃ ps, y.parts = x.parts ++ ps ∧ ps.length = x.width)) := by
  obtain ⟨hx, -⟩ := runs_mem hr
  refine put_row hr hmore ((if_neg hmc).trans hst) hroom hread fun t hout hmem hcore => ⟨hout, hmem, ?_⟩
  generalize s.mach.putBytes x x.putOff x.putLen = bs at hcore ⊢
  generalize x.putOff = off at *
  generalize x.putLen = n at *
  obtain ⟨m, hsent, hthere, hqueued⟩ := sendParts_carries hx (noteReads_id _ _ _ _) (noteReads_parts _ _ _ _)
    (putPacket_span bs _ hmc hspan) hcore
  refine ⟨sent_imp hsent fun p h => ?_, hthere, fun y hy hid =>
    ⟨_, hqueued y hy hid, (partsSent_length _ _ _ _ _).trans (noteReads_width _ _ _ _)⟩⟩
  obtain ⟨htyp, hm, hdst, hpay, -, hpart, -⟩ := putPacket_fact _ _ _ _ p m h
  exact ⟨htyp, hm.trans (decide_eq_true hmc), hdst, hpay, hpart⟩

/-! ## A transfer whose parts are done -/

/-- A command with every part issued and answered with OK ends with OK. -/
theorem settle_ok {x : Cmd} (hp : x.phase = .run) (hall : ∀ p ∈ x.parts, p.status = some stOK) (hn : x.parts.length = x.p) :
    x.settle = x.finish stOK := by
  have hsome : x.parts.all (fun k => k.status.isSome) = true := List.all_eq_true.mpr fun p h => by rw [hall p h]; rfl
  have hbad : x.parts.find? (fun k => decide (k.status ≠ some stOK)) = none := List.find?_eq_none.mpr fun p h => by simp [hall p h]
  unfold Cmd.settle
  rw [if_pos ⟨hp, hsome, .inr hn⟩, hbad]
  dsimp only [Option.bind_none, Option.getD_none]
  rw [if_neg (by omega)]

/-- A row that settles its running command, whose parts are all issued and answered with OK, ends it with OK. -/
theorem settledRow_completes {i : Instr} {s : State} {ok : Bool} {u q f op : Nat} {x : Cmd} {g : Mach → Cmd → Mach}
    (hr : Runs s u q f op x) (hok : ok = true) (hi : exec i s = onlyIf ok (s.onMach (fun m => m.withCmd u q f op g)))
    (hg : g s.mach x = s.mach.onCore (fun c => c.putCmd x.settle)) (hall : ∀ p ∈ x.parts, p.status = some stOK)
    (hn : x.parts.length = x.p) :
    Completes i s (fun s' => Finished s' x.id stOK ∧ OutsideKept s s' ∧ MemKept s s' ∧ RegsKept s s') := by
  obtain ⟨hx, -⟩ := runs_mem hr
  obtain ⟨-, -, hrun, -⟩ := id hr
  obtain ⟨-, -, -, hphase, -⟩ := running?_mem hrun
  refine completes_runs hr hok hi fun t hout he => ?_
  rw [hg, settle_ok hphase hall hn] at he
  have hcore := core_of_onCore he
  exact ⟨queued_of_put (l := s.mach.core.queues.cmds) (y := x.finish stOK) rfl (by rw [hcore]; rfl) ⟨x, hx, rfl⟩ ⟨rfl, rfl⟩, hout,
    memKept_of_onCore he, regsKept_of_eq hcore rfl rfl⟩

theorem put_done {m : Mach} {x : Cmd} (h : ¬ x.more = true) : m.put x = m.onCore (fun c => c.putCmd x.settle) := if_neg h

theorem get_done {m : Mach} {x : Cmd} (h : ¬ x.more = true) : m.get x = m.onCore (fun c => c.putCmd x.settle) := if_neg h

theorem gather_done {m : Mach} {x : Cmd} (hne : x.gather ≠ []) (h : ¬ x.more = true) :
    m.gather x = m.onCore (fun c => c.putCmd x.settle) := by
  unfold Mach.gather
  rw [if_neg hne, if_neg h]

theorem copy_done {m : Mach} {x : Cmd} (hall : ∀ p ∈ x.parts, p.status = some stOK) (h : ¬ x.more = true) :
    m.copy x = m.onCore (fun c => c.putCmd x.settle) :=
  (copy_idle fun p hp => by rw [hall p hp]; rfl).trans (if_neg h)

/-- Settles O12: each row of the mover reads the checks its run passes, and then sends the packet of the command's next part. -/
theorem moverIssuesTheNextPart : Obligations.MoverIssuesTheNextPart := by
  intro s u q f x
  refine ⟨fun hr hmore hroom htile hgroup => ?put, get_completes, fun hr hu => ?gather, copy_completes,
    rtinc_completes, fun hmore _ hall hn => ?done⟩
  case put =>
    obtain ⟨-, hu, -⟩ := runs_mem hr
    subst hu
    have hread : s.mach.PutReads x x.putOff x.putLen := ⟨htile, hgroup⟩
    exact ⟨fun hmc hst => put_unicast_completes hr hmore hroom hread hmc hst rfl,
      fun hmc hst _ hspan => put_multicast_completes hr hmore hroom hread hmc hst hspan⟩
  case gather =>
    exact ⟨gather_list_completes hr hu, fun _ _ _ _ hne hmore hpart hst hroom =>
      gather_part_completes hr hu hne hmore hpart hst hroom⟩
  case done =>
    have hmore : ¬ x.more = true := by rw [hmore]; decide
    exact ⟨fun hr => settledRow_completes hr (runs_isQueue hr) rfl (put_done hmore) hall hn,
      fun hr => settledRow_completes hr (runs_isQueue hr) rfl (get_done hmore) hall hn,
      fun hr hu hne => settledRow_completes hr (decide_eq_true hu) rfl (gather_done hne hmore) hall hn,
      fun hr => settledRow_completes hr (runs_isQueue hr) rfl (copy_done hall hmore) hall hn⟩

end Sys2Proof.Machine
end
